-- ==== Sys2Proof/Word.lean ====
section
/-! DEFINITION. Word types and the small operand types of instructions. Widths are those of 00_scope.md and
02_instruction_formats_and_assembly.md; every number is little-endian (R4). -/

namespace Sys2Proof

abbrev Byte := BitVec 8
abbrev W16 := BitVec 16
abbrev W32 := BitVec 32
abbrev W64 := BitVec 64
abbrev W128 := BitVec 128
/-- A register index of a class with 32 members (R26). -/
abbrev Reg := BitVec 5

/-- The n bits of w that begin at bit lo. -/
def field {k : Nat} (w : BitVec k) (lo n : Nat) : BitVec n := BitVec.ofNat n (w.toNat / 2 ^ lo)

/-- Bit i of w. -/
def bitAt {k : Nat} (w : BitVec k) (i : Nat) : Bool := w.toNat / 2 ^ i % 2 == 1

/-- The bit of a truth value. -/
def bit01 (b : Bool) : Nat := if b then 1 else 0

/-- The value of a byte list, the first byte lowest (R4). -/
def leNat : List Byte → Nat
  | [] => 0
  | b :: bs => b.toNat + 256 * leNat bs

/-- The n low bytes of x, lowest first (R4). -/
def leBytes : Nat → Nat → List Byte
  | 0, _ => []
  | n + 1, x => BitVec.ofNat 8 x :: leBytes n (x / 256)

/-- Data sign-extended to 64 bits. -/
def sext64 {k : Nat} (w : BitVec k) : W64 := w.signExtend 64

/-- Conditions of CMP and of format B (R222, R233). -/
inductive Cond where
  | eq | ne | ltS | geS | ltN | geN | z | nz
  deriving DecidableEq, Repr

/-- Ordering qualifier (R30). -/
inductive Order where
  | plain | acq | rel | ar
  deriving DecidableEq, Repr

/-- Scalar rounding (R30). -/
inductive Rm where
  | rne | rz | rdn | rup
  deriving DecidableEq, Repr

/-- Vector and matrix rounding (R36): the scalar modes and stochastic. -/
inductive Vrm where
  | rne | rz | rdn | rup | sr
  deriving DecidableEq, Repr

/-- FCMP conditions (R227). -/
inductive FCond where
  | eq | lt | le | un
  deriving DecidableEq, Repr

/-- FCVT selectors (R228). -/
inductive FcvtSel where
  | xf | sf | nf | fs | fn
  deriving DecidableEq, Repr

/-- Element widths of LDVS, STVS, LDVG, STVG (R32). -/
inductive Ew where
  | e8 | e16 | e32 | e64
  deriving DecidableEq, Repr

/-- Handle levels (R33). -/
inductive Level where
  | tile | twin | cluster
  deriving DecidableEq, Repr

/-- Operations of the atomics and of HATOM (R34, R139). -/
inductive AtomOp where
  | add | and | or | xor | minS | minN | maxS | maxN | swap
  deriving DecidableEq, Repr

/-- CRED operations (R35). -/
inductive RedOp where
  | add | min | max
  deriving DecidableEq, Repr

/-- MMAS block sizes (R37). -/
inductive BlockSize where
  | b8 | b16 | b32
  deriving DecidableEq, Repr

/-- Branch hints of format B: none, .T, .N (R31). -/
inductive Hint where
  | none | t | n
  deriving DecidableEq, Repr

/-- The enabling mask of a vector instruction whose ME is set: MP and MR (R25). -/
structure Mask where
  agnostic : Bool
  reg : BitVec 2
  deriving DecidableEq, Repr

/-- Word 0's Q and word 1 of the copies (R35). -/
structure CopyTags where
  q : BitVec 2
  bar : BitVec 6
  barV : Bool
  sem : BitVec 4
  semV : Bool
  ev : BitVec 4
  evV : Bool
  deriving DecidableEq, Repr

/-- ID, predecessors, event and semaphore of a matrix command (R37). -/
structure MTags where
  id : BitVec 6
  p0 : BitVec 6
  p1 : BitVec 6
  ev : BitVec 4
  evV : Bool
  sem : BitVec 4
  semV : Bool
  deriving DecidableEq, Repr

/-- The operands MMA and MMAS share (R37): the command's tags, accumulator, A and B with the register that
holds a remote operand's virtual tile, K ÷ 16 and ZA. -/
structure MmaArgs where
  tags : MTags
  acc : BitVec 2
  a : Reg
  b : Reg
  ra : Option Reg
  rb : Option Reg
  k16 : BitVec 6
  za : Bool
  deriving DecidableEq, Repr

/-- The MMAS literal (R37): scale handles, tensor scale registers and block size. -/
structure MmasArgs where
  sa : Reg
  sb : Reg
  ta : Reg
  tb : Reg
  bs : BlockSize
  deriving DecidableEq, Repr

/-- One core of the module: its tile's site index (R14) and its role. -/
structure CoreId where
  site : Nat
  compute : Bool
  deriving DecidableEq, Repr

/-- Registers of the physical function, of the windows and of the cores that have no row of their own, and the window of a routed VF, which
an entry of a joined module enters (R6, R62, R329, R415, R427, R428, R431, R433, R214). -/
inductive PfReg where
  | ptroot (p : Nat) | slice (site slot : Nat) | enperiod (p : Nat) | hdmva (vf : Nat) | hdmsize (vf : Nat)
  | msixMask (vf vec : Nat) | msixAddr (vf vec : Nat) | msixData (vf vec : Nat) | linkEntry (port vf : Nat) (entry : List Byte) | readOnly (vf : Nat) | sys (c : CoreId) (num : BitVec 10)
  deriving DecidableEq, Repr

/-- Where a detected fault lies (R381, R386, R394); a line of rim memory by its pseudo-channel × 2^28 + offset. -/
inductive FaultSite where
  | scratch (ctx h word : Nat) | rimLine (pa : Nat) | saveArea (ctx acc : Nat) | tileState (site : Nat)
  | link (cl : Nat) | sliceOrEngine (cl : Nat) | digest (core run : Nat) (d : W64)
  deriving DecidableEq, Repr

/-- What the physical function writes: bytes, and the tags of the granules they touch, lowest first (R50, R58). -/
structure PfData where
  bytes : List Byte
  tags : List Bool := []
  deriving DecidableEq, Repr

/-- A continuation record as its 128 bytes lie in memory (R318). -/
structure RecImage where
  w0 : W64
  w1 : W64
  join : W128
  regs : List W128
  deriving DecidableEq, Repr

end Sys2Proof
end

