-- ==== Sys2Proof/Syntax.lean ====
section
/-! DEFINITION. The instructions: one constructor per row of opcode_table.json. The constructors add to
nop are the instructions of R28 (a Literal constructor is its instruction's LEN 0b10 form, R27). The others are the
events of the device and its surroundings, each one whole step (95_what_each_step_holds.md). Compiled Lean builds no
constructor with fields past the first 245, so the events with fields stand first: only decode, which is never
compiled, builds the late ones. -/

namespace Sys2Proof

inductive Instr where
  | clusterSelfTestDone (cl : Nat) (word : W128)
  | hostPortReady (port : Nat) (ok : Bool)
  | hbmStackReady (stack : Nat) (ok : Bool)
  | kwelinkPortReady (port : Nat) (ok : Bool)
  | registerWrite (reg : PfReg) (v : W64)
  | loadRequest (k : Nat) (id : Nat)
  | loadReply (k : Nat) (id : Nat)
  | atsTranslationCompletion (id : Nat) (host : Nat) (size : Nat) (r : Bool) (w : Bool) (unsupported : Bool)
  | prgResponse (id : Nat) (ok : Bool)
  | atsInvalidateRequest (p : Nat) (lo : Nat) (hi : Nat)
  | invalidateVaRange (p : Nat) (lo : Nat) (hi : Nat)
  | invalidatePartition (p : Nat)
  | invalidationComplete (id : Nat)
  | resumePage (p : Nat) (va : Nat)
  | writeTableEntry (p : Nat) (pa : Nat) (v : W64)
  | rimpartWrite (p : Nat) (v : W64) (pcs : List Nat)
  | pseudoChannelZero (pc : Nat)
  | rimCommandIssue (pc : Nat)
  | idlePrecharge (pc : Nat) (bank : Nat)
  | refresh (pc : Nat)
  | scrub (pa : Nat)
  | trailSpill (k : Nat)
  | trailRefill (k : Nat) (id : Nat)
  | trailStallEnd (k : Nat)
  | sliceNotice (pub : Nat) (sl : Nat) (room : Bool)
  | noticeAcceptDelayed (pub : Nat) (sl : Nat)
  | releaseReplies (pub : Nat)
  | sliceCommit (pub : Nat) (sl : Nat)
  | sliceWithdraw (pub : Nat) (sl : Nat)
  | segmentPublished (pub : Nat)
  | segmentFold (sl : Nat)
  | frontierReduction (p : Nat)
  | shadowFinalise (sl : Nat) (page : Nat)
  | horizonBoundary (k : Nat)
  | pressureBoundary (k : Nat)
  | fpWaitComplete (k : Nat)
  | atomicEngineRequest (cl : Nat)
  | atomicReply (k : Nat) (id : Nat)
  | prefRequest (k : Nat) (va : Nat) (len : Nat)
  | flipNotice (pub : Nat) (sl : Nat) (room : Bool)
  | zeroFillComplete (site : Nat) (id : Nat)
  | scoreboardStallEnd (k : Nat)
  | hcasxTarget (k : Nat) (id : Nat)
  | hcasxReply (k : Nat) (id : Nat)
  | copyAccept (k : Nat)
  | copyChunk (site : Nat)
  | chunkHold (id : Nat)
  | cpubFlipStart (ctx : Nat) (q : Nat)
  | bankDrowsy (site : Nat) (slot : Nat) (bank : Nat)
  | debugVectorRead (c : CoreId) (slot : Nat) (r : Reg)
  | debugVectorWrite (c : CoreId) (slot : Nat) (r : Reg) (v : BitVec 1024) (tag : Byte)
  | queuePush (k : Nat)
  | queuePop (k : Nat)
  | accownWrite (site : Nat) (v : W64)
  | matrixAccept (k : Nat)
  | reservationGrant (cl : Nat)
  | matrixStep (site : Nat)
  | matrixRetire (site : Nat)
  | remoteOperandRequest (site : Nat)
  | licenceTransfer (pair : Nat)
  | messageArrival (id : Nat)
  | messageReoffer (k : Nat)
  | messageAging (ctx : Nat)
  | coreDispatch (c : CoreId)
  | stealBackoffEnd (c : CoreId)
  | coreWake (c : CoreId)
  | bucketRefill (r : Nat)
  | launchHelpStart (k : Nat)
  | launchHelpResume (k : Nat)
  | watchdog (r : Nat)
  | sliceEnd (site : Nat)
  | eventTermFire (site : Nat) (term : Nat)
  | barrierArrival (id : Nat)
  | chairliftEvaluation (p : Nat)
  | gangSwapOut (r : Nat) (gang : Nat)
  | gangSwapIn (r : Nat) (gang : Nat)
  | lodgeDrain (ctx : Nat)
  | deferredTrap (c : CoreId)
  | monitorTimeout (c : CoreId)
  | kill (k : Nat)
  | restart (k : Nat)
  | duplexCompare (ctx : Nat)
  | detectedFault (f : FaultSite)
  | maskedFault (p : Nat)
  | drainReceipt (id : Nat)
  | viralClusterReset (cl : Nat)
  | configurePartition (p : Nat) (cls : List Nat) (key : Byte) (rimpart : W64) (pcs : List Nat) (slice : Nat) (swap : List Nat) (shadow : List Nat)
  | addCluster (p : Nat) (cl : Nat)
  | removeCluster (p : Nat) (cl : Nat)
  | disablePartition (p : Nat)
  | resumeRegion (r : Nat)
  | endRegion (r : Nat)
  | addSwapFrames (p : Nat) (fs : List Nat)
  | addShadowFrames (p : Nat) (fs : List Nat)
  | bindVf (vf : Nat) (port : Nat) (p : Nat) (root : Nat)
  | unbindVf (vf : Nat)
  | startRootRegion (p : Nat) (va : Nat)
  | writeVfEnergy (vf : Nat) (v : W64)
  | monitorStoreLoad (site : Nat) (bytes : List Byte)
  | meterSnapshot (p : Nat)
  | energyPeriodEnd (p : Nat) (used : List Nat)
  | lidEvent (open_ : Bool) (sensor : Bool)
  | getVersion (fn : Nat)
  | getCapabilities (fn : Nat) (ver : Nat)
  | negotiateAlgorithms (fn : Nat) (ver : Nat) (p384 : Bool) (sha384 : Bool)
  | getDigests (fn : Nat) (ver : Nat)
  | getCertificate (fn : Nat) (ver : Nat) (slot : Nat) (off : Nat) (len : Nat)
  | challenge (fn : Nat) (ver : Nat) (slot : Nat) (nonce : List Byte)
  | getMeasurements (fn : Nat) (ver : Nat) (index : Nat) (nonce : List Byte) (signed : Bool)
  | railSettingWrite (rail : Nat) (mv : Nat) (m : Nat)
  | clusterSwitchWrite (cl : Nat) (rail : Nat)
  | droopAlarm (cl : Nat) (sag : Nat)
  | stretchEnd (cl : Nat)
  | halvedIssueEnd (cl : Nat)
  | vectorUnitSleep (site : Nat)
  | vectorWakeRampEnd (site : Nat)
  | hqtailDoorbell (vf : Nat) (v : W64)
  | hqEntryTake (vf : Nat)
  | fenceComplete (vf : Nat)
  | dqheadWrite (vf : Nat) (v : W64)
  | hqbaseWrite (vf : Nat) (v : W64)
  | dqbaseWrite (vf : Nat) (v : W64)
  | hacq (vf : Nat) (v : W64)
  | hacqComplete (vf : Nat)
  | cxlMemRead (vf : Nat) (off : Nat)
  | cxlMemWrite (vf : Nat) (off : Nat) (v : BitVec 512)
  | routeVfKwelink (vf : Nat) (port : Nat) (remote : Nat)
  | unrouteVf (vf : Nat)
  | kwelinkLaneLoss (port : Nat) (lanes : Nat)
  | kwelinkRetrainDone (port : Nat)
  | kwelinkDown (port : Nat)
  | physicalFunctionWrite (p : Nat) (pa : Nat) (data : PfData)
  | placeRunQueueRecord (r : Nat) (rec : RecImage)
  | regionShareWrite (r : Nat) (cls : List Nat)
  | spdmSessionMessage (fn : Nat) (bytes : List Byte)
  | hostPortLinkDown (port : Nat)
  | add (d a b : Reg)
  | addLiteral (d a : Reg) (lit : W64)
  | sub (d a b : Reg)
  | subLiteral (d a : Reg) (lit : W64)
  | and (d a b : Reg)
  | andLiteral (d a : Reg) (lit : W64)
  | or (d a b : Reg)
  | orLiteral (d a : Reg) (lit : W64)
  | xor (d a b : Reg)
  | xorLiteral (d a : Reg) (lit : W64)
  | shl (d a b : Reg)
  | shlLiteral (d a : Reg) (lit : W64)
  | shr (d a b : Reg)
  | shrLiteral (d a : Reg) (lit : W64)
  | sar (d a b : Reg)
  | sarLiteral (d a : Reg) (lit : W64)
  | mul (d a b : Reg)
  | mulLiteral (d a : Reg) (lit : W64)
  | mulhS (d a b : Reg)
  | mulhSLiteral (d a : Reg) (lit : W64)
  | mulhN (d a b : Reg)
  | mulhNLiteral (d a : Reg) (lit : W64)
  | divS (d a b : Reg)
  | divSLiteral (d a : Reg) (lit : W64)
  | divN (d a b : Reg)
  | divNLiteral (d a : Reg) (lit : W64)
  | remS (d a b : Reg)
  | remSLiteral (d a : Reg) (lit : W64)
  | remN (d a b : Reg)
  | remNLiteral (d a : Reg) (lit : W64)
  | minS (d a b : Reg)
  | minSLiteral (d a : Reg) (lit : W64)
  | minN (d a b : Reg)
  | minNLiteral (d a : Reg) (lit : W64)
  | maxS (d a b : Reg)
  | maxSLiteral (d a : Reg) (lit : W64)
  | maxN (d a b : Reg)
  | maxNLiteral (d a : Reg) (lit : W64)
  | clz (d a : Reg)
  | ctz (d a : Reg)
  | popc (d a : Reg)
  | sel (d a b : Reg)
  | selLiteral (d a : Reg) (lit : W64)
  | mov (d a : Reg)
  | cmp (cond : Cond) (d a b : Reg)
  | cmpLiteral (cond : Cond) (d a : Reg) (lit : W64)
  | addi (d a : Reg) (imm : BitVec 11)
  | addiLiteral (d a : Reg) (lit : W64)
  | andi (d a : Reg) (imm : BitVec 11)
  | andiLiteral (d a : Reg) (lit : W64)
  | ori (d a : Reg) (imm : BitVec 11)
  | oriLiteral (d a : Reg) (lit : W64)
  | xori (d a : Reg) (imm : BitVec 11)
  | xoriLiteral (d a : Reg) (lit : W64)
  | shli (d a : Reg) (imm : BitVec 11)
  | shliLiteral (d a : Reg) (lit : W64)
  | shri (d a : Reg) (imm : BitVec 11)
  | shriLiteral (d a : Reg) (lit : W64)
  | sari (d a : Reg) (imm : BitVec 11)
  | sariLiteral (d a : Reg) (lit : W64)
  | li (d : Reg) (imm : BitVec 11)
  | liLiteral (d : Reg) (lit : W64)
  | fadd (f64 : Bool) (rm : Rm) (d a b : Reg)
  | faddLiteral (f64 : Bool) (rm : Rm) (d a : Reg) (lit : W64)
  | fsub (f64 : Bool) (rm : Rm) (d a b : Reg)
  | fsubLiteral (f64 : Bool) (rm : Rm) (d a : Reg) (lit : W64)
  | fmul (f64 : Bool) (rm : Rm) (d a b : Reg)
  | fmulLiteral (f64 : Bool) (rm : Rm) (d a : Reg) (lit : W64)
  | ffma (f64 : Bool) (rm : Rm) (d a b : Reg)
  | ffmaLiteral (f64 : Bool) (rm : Rm) (d a : Reg) (lit : W64)
  | fmin (f64 : Bool) (d a b : Reg)
  | fminLiteral (f64 : Bool) (d a : Reg) (lit : W64)
  | fmax (f64 : Bool) (d a b : Reg)
  | fmaxLiteral (f64 : Bool) (d a : Reg) (lit : W64)
  | fcmp (f64 : Bool) (cond : FCond) (d a b : Reg)
  | fcmpLiteral (f64 : Bool) (cond : FCond) (d a : Reg) (lit : W64)
  | fcvt (f64 : Bool) (rm : Rm) (sel : FcvtSel) (d a : Reg)
  | fabs (f64 : Bool) (d a : Reg)
  | fneg (f64 : Bool) (d a : Reg)
  | csetb (d a b : Reg)
  | csetp (d a b : Reg)
  | cinc (d a b : Reg)
  | cgetb (d a : Reg)
  | cgetl (d a : Reg)
  | cgetp (d a : Reg)
  | cclr (d a : Reg)
  | ctest (d a b : Reg)
  | beq (hint : Hint) (off : BitVec 9) (a b : Reg)
  | bne (hint : Hint) (off : BitVec 9) (a b : Reg)
  | bltS (hint : Hint) (off : BitVec 9) (a b : Reg)
  | bgeS (hint : Hint) (off : BitVec 9) (a b : Reg)
  | bltN (hint : Hint) (off : BitVec 9) (a b : Reg)
  | bgeN (hint : Hint) (off : BitVec 9) (a b : Reg)
  | bz (hint : Hint) (off : BitVec 9) (a : Reg)
  | bnz (hint : Hint) (off : BitVec 9) (a : Reg)
  | b (hint : Bool) (off : BitVec 22)
  | call (hint : Bool) (off : BitVec 22)
  | jr (a : Reg)
  | callr (a : Reg)
  | loop (hint : Hint) (off : BitVec 9) (a : Reg)
  | ld8N (d a : Reg) (imm : BitVec 11)
  | ld8NLiteral (d a : Reg) (lit : W64)
  | ld8S (d a : Reg) (imm : BitVec 11)
  | ld8SLiteral (d a : Reg) (lit : W64)
  | ld16N (d a : Reg) (imm : BitVec 11)
  | ld16NLiteral (d a : Reg) (lit : W64)
  | ld16S (d a : Reg) (imm : BitVec 11)
  | ld16SLiteral (d a : Reg) (lit : W64)
  | ld32N (d a : Reg) (imm : BitVec 11)
  | ld32NLiteral (d a : Reg) (lit : W64)
  | ld32S (d a : Reg) (imm : BitVec 11)
  | ld32SLiteral (d a : Reg) (lit : W64)
  | ld64 (d a : Reg) (imm : BitVec 11)
  | ld64Literal (d a : Reg) (lit : W64)
  | ldc (d a : Reg) (imm : BitVec 11)
  | ldcLiteral (d a : Reg) (lit : W64)
  | st8 (d a : Reg) (imm : BitVec 11)
  | st8Literal (d a : Reg) (lit : W64)
  | st16 (d a : Reg) (imm : BitVec 11)
  | st16Literal (d a : Reg) (lit : W64)
  | st32 (d a : Reg) (imm : BitVec 11)
  | st32Literal (d a : Reg) (lit : W64)
  | st64 (d a : Reg) (imm : BitVec 11)
  | st64Literal (d a : Reg) (lit : W64)
  | stc (d a : Reg) (imm : BitVec 11)
  | stcLiteral (d a : Reg) (lit : W64)
  | ldv (d a : Reg) (off : W32) (tag : Byte) (m : Option Mask)
  | stv (d a : Reg) (off : W32) (m : Option Mask)
  | ldvs (d a b : Reg) (off : W32) (tag : Byte) (ew : Ew) (m : Option Mask)
  | stvs (d a b : Reg) (off : W32) (ew : Ew) (m : Option Mask)
  | ldvg (d a vi : Reg) (off : W32) (tag : Byte) (ew : Ew) (m : Option Mask)
  | stvg (d a vi : Reg) (off : W32) (ew : Ew) (m : Option Mask)
  | rel (a : Reg)
  | acq (a b : Reg)
  | phase (a : Reg)
  | pref (a b : Reg)
  | trailq (d : Reg) (sel : BitVec 3)
  | atomAdd (order : Order) (w32 : Bool) (d a b : Reg)
  | atomAnd (order : Order) (w32 : Bool) (d a b : Reg)
  | atomOr (order : Order) (w32 : Bool) (d a b : Reg)
  | atomXor (order : Order) (w32 : Bool) (d a b : Reg)
  | atomMinS (order : Order) (w32 : Bool) (d a b : Reg)
  | atomMinN (order : Order) (w32 : Bool) (d a b : Reg)
  | atomMaxS (order : Order) (w32 : Bool) (d a b : Reg)
  | atomMaxN (order : Order) (w32 : Bool) (d a b : Reg)
  | atomSwap (order : Order) (w32 : Bool) (d a b : Reg)
  | cas (order : Order) (w32 : Bool) (d a b : Reg)
  | cas2 (order : Order) (d a b : Reg)
  | atomfAdd (order : Order) (w32 : Bool) (d a b : Reg)
  | halloc (h : Reg) (rows cols : W16) (tag : Byte) (level : Level) (retain shatom : Bool)
  | hfree (h : Reg)
  | hretain (h : Reg) (k : Bool)
  | hquery (d h : Reg) (sel : BitVec 3)
  | hexport (h : Reg)
  | hunexport (h : Reg)
  | hzero (h : Reg)
  | hwait (h : Reg)
  | ldh32 (d h b : Reg)
  | ldh64 (d h b : Reg)
  | sth32 (d h b : Reg)
  | sth64 (d h b : Reg)
  | ldhv (d h b : Reg)
  | sthv (d h b : Reg)
  | hatom (order : Order) (w32 : Bool) (op : AtomOp) (d h b : Reg)
  | hcas (order : Order) (w32 : Bool) (d h b cmp : Reg)
  | hcasx (order : Order) (w32 : Bool) (d h b cmp vtr : Reg)
  | cpy (t : CopyTags) (out : Bool) (h a b : Reg)
  | cpys (t : CopyTags) (out : Bool) (h a b : Reg) (rows rowb : W16)
  | cpyv (t : CopyTags) (out : Bool) (h a b : Reg) (hx hy hz : BitVec 4)
  | cpyg (t : CopyTags) (h a b : Reg) (count eb : W16)
  | cpym (t : CopyTags) (h a : Reg) (count : BitVec 5)
  | cshd (t : CopyTags) (h a b : Reg)
  | cpub (t : CopyTags) (a : Reg)
  | cred (t : CopyTags) (op : RedOp) (h a b : Reg)
  | barx (t : CopyTags) (b : Reg)
  | cwait (mask : BitVec 4)
  | cstat (d : Reg) (q : BitVec 2)
  | ccancel (mask : BitVec 4)
  | vadd (m : Option Mask) (d a b : Reg)
  | vsub (m : Option Mask) (d a b : Reg)
  | vmul (m : Option Mask) (d a b : Reg)
  | vfma (m : Option Mask) (d a b : Reg)
  | vfms (m : Option Mask) (d a b : Reg)
  | vmin (m : Option Mask) (d a b : Reg)
  | vmax (m : Option Mask) (d a b : Reg)
  | vdiv (m : Option Mask) (d a b : Reg)
  | vsqrt (m : Option Mask) (d a : Reg)
  | vrcp (m : Option Mask) (d a : Reg)
  | vrsq (m : Option Mask) (d a : Reg)
  | vexp2 (m : Option Mask) (d a : Reg)
  | vlog2 (m : Option Mask) (d a : Reg)
  | vabs (m : Option Mask) (d a : Reg)
  | vneg (m : Option Mask) (d a : Reg)
  | vand (m : Option Mask) (d a b : Reg)
  | vor (m : Option Mask) (d a b : Reg)
  | vxor (m : Option Mask) (d a b : Reg)
  | vnot (m : Option Mask) (d a : Reg)
  | vshl (m : Option Mask) (d a b : Reg)
  | vshr (m : Option Mask) (d a b : Reg)
  | vsar (m : Option Mask) (d a b : Reg)
  | vpopc (m : Option Mask) (d a : Reg)
  | vclz (m : Option Mask) (d a : Reg)
  | vcmpeq (m : Option Mask) (d a b : Reg)
  | vcmpne (m : Option Mask) (d a b : Reg)
  | vcmplt (m : Option Mask) (d a b : Reg)
  | vcmple (m : Option Mask) (d a b : Reg)
  | vcmpun (m : Option Mask) (d a b : Reg)
  | vsel (mr : BitVec 2) (d a b : Reg)
  | vmerge (m : Option Mask) (d a b : Reg)
  | vpopm (mr : Option (BitVec 2)) (d a : Reg)
  | vfirst (mr : Option (BitVec 2)) (d a : Reg)
  | viota (m : Option Mask) (d a : Reg) (k : BitVec 2)
  | vmaskand (m : Option Mask) (d a b : Reg)
  | vmaskor (m : Option Mask) (d a b : Reg)
  | vmasknot (m : Option Mask) (d a : Reg)
  | vshuf (m : Option Mask) (d a b : Reg)
  | vrot (m : Option Mask) (d a b : Reg)
  | vbcast (m : Option Mask) (d a : Reg)
  | vext (d a b : Reg)
  | vins (d a b : Reg)
  | vredadd (mr : Option (BitVec 2)) (d a b : Reg)
  | vredmin (mr : Option (BitVec 2)) (d a b : Reg)
  | vredmax (mr : Option (BitVec 2)) (d a b : Reg)
  | vscan (m : Option Mask) (d a : Reg)
  | vmov (m : Option Mask) (d a : Reg)
  | vslide (m : Option Mask) (d a b : Reg)
  | vcvt (tag : Byte) (rm : Vrm) (sat : Bool) (m : Option Mask) (d a : Reg)
  | vpack (tag : Byte) (rm : Vrm) (sat : Bool) (m : Option Mask) (d a b : Reg)
  | vunpk (tag : Byte) (rm : Vrm) (sat : Bool) (m : Option Mask) (d a : Reg)
  | vsat (tag : Byte) (m : Option Mask) (d a : Reg)
  | vtag (tag : Byte) (d a : Reg)
  | vtagq (d a : Reg)
  | vdot (m : Option Mask) (d a b : Reg)
  | mma (x : MmaArgs)
  | mmas (x : MmaArgs) (y : MmasArgs)
  | mlda (t : MTags) (acc : BitVec 2) (h : Reg)
  | msta (t : MTags) (h : Reg) (acc : BitVec 2)
  | mzero (t : MTags) (acc : BitVec 2)
  | mtrn (t : MTags) (d h : Reg)
  | mcvt (t : MTags) (rm : Vrm) (sat : Bool) (h : Reg) (acc : BitVec 2)
  | mwait (id : BitVec 6)
  | mcons (id : BitVec 6)
  | mspill (acc slot : BitVec 2)
  | mfill (acc slot : BitVec 2)
  | licq (d : Reg)
  | accq (d : Reg) (sel : BitVec 2)
  | fmtset (f : BitVec 3) (a : Reg)
  | fmtget (d : Reg) (f : BitVec 3)
  | send (rel : Bool) (a b : Reg) (hdl : Byte) (npay : BitVec 3)
  | sendh (rel : Bool) (a b : Reg) (hdl : Byte) (npay : BitVec 3) (h : Reg)
  | spawn (a b : Reg) (hdl : Byte) (nreg : BitVec 6)
  | fork (a b : Reg) (off : W32) (nreg : BitVec 3)
  | join (a b : Reg)
  | launch (a b : Reg) (hdl : Byte)
  | sethdl (d a b : Reg)
  | gethdl (d b : Reg)
  | myid (d : Reg)
  | gridq (d : Reg) (sel : BitVec 3)
  | ganghint (a : Reg)
  | barinit (n : BitVec 6) (a : Reg)
  | bararr (n : BitVec 6) (a : Reg)
  | barwait (n : BitVec 6)
  | semup (s : BitVec 4)
  | semdn (s : BitVec 4)
  | semtry (d : Reg) (s : BitVec 4)
  | qstat (d : Reg) (k : BitVec 3)
  | evcfg (t : BitVec 3) (a : Reg)
  | evpulse (k : BitVec 4)
  | evread (d : Reg) (k : BitVec 4)
  | srd (d : Reg) (num : BitVec 10)
  | swr (num : BitVec 10) (a : Reg)
  | tstamp (d : Reg)
  | cstamp (d : Reg)
  | trap (code : BitVec 10)
  | brk (code : BitVec 10)
  | ret
  | acqa
  | licreq
  | licrel
  | halt
  | yield
  | rft
  | sigchk
  | nop
  | moduleReset
  | glideStart
  | glideStage
  | checkpoint
  | restore
  deriving DecidableEq, Repr

end Sys2Proof
end

