-- ==== Sys2Proof/WellFormed.lean ====
section
/-! DEFINITION. Well-formed instructions: the field values decode accepts beyond what the types of the operands
already say (R26 to R38 and the decode checks of the entries). -/

namespace Sys2Proof

/-- The defined format tags (R127): raw, floats, integers, custom, mask. -/
def definedTag (t : Byte) : Bool :=
  let n := t.toNat
  n ≤ 8 || (0x10 ≤ n && n ≤ 0x19) || (0x20 ≤ n && n ≤ 0x27) || n == 0x40

/-- A defined tag other than raw and mask (R275). -/
def numberTag (t : Byte) : Bool := definedTag t && t != 0#8 && t != 0x40#8

/-- Element width in bits that a tag fixes by itself (R238); none for raw, mask and custom tags. -/
def tagWidth? (t : Byte) : Option Nat :=
  match t.toNat with
  | 0x01 => some 32 | 0x02 => some 64 | 0x03 => some 16 | 0x04 => some 16
  | 0x05 => some 8 | 0x06 => some 8 | 0x07 => some 4 | 0x08 => some 8
  | 0x10 => some 8 | 0x11 => some 8 | 0x12 => some 16 | 0x13 => some 16
  | 0x14 => some 32 | 0x15 => some 32 | 0x16 => some 64 | 0x17 => some 64
  | 0x18 => some 4 | 0x19 => some 4
  | _ => none

/-- Bits of an element width (R32). -/
def Ew.bits : Ew → Nat
  | .e8 => 8 | .e16 => 16 | .e32 => 32 | .e64 => 64

/-- Tags LDVS and LDVG accept at decode (R127); a custom tag's own width is read from f(k) when it issues. -/
def gatherTag (t : Byte) (ew : Ew) : Bool :=
  definedTag t && t != 0x40#8 &&
    (match tagWidth? t with | some w => w == ew.bits | none => true)

/-- MMA and MMAS fields (R37). -/
def mmaOk (x : MmaArgs) : Bool := x.tags.id != 63#6 && 1 ≤ x.k16.toNat && x.k16.toNat ≤ 32

/-- A payload range of n registers from b (R38, R334). -/
def sendRange (b : Reg) (n limit : Nat) : Bool := n ≤ limit && b.toNat + n ≤ 32 && (n != 0 || b == 0#5)

/-- Every field value of the instruction lies inside its table. An event has no encoding and no such field. -/
def Instr.wf : Instr → Bool
  | .add .. | .addLiteral .. | .sub .. | .subLiteral .. | .and .. | .andLiteral .. | .or .. | .orLiteral ..
  | .xor .. | .xorLiteral .. | .shl .. | .shlLiteral .. | .shr .. | .shrLiteral .. | .sar .. | .sarLiteral ..
  | .mul .. | .mulLiteral .. | .mulhS .. | .mulhSLiteral .. | .mulhN .. | .mulhNLiteral .. | .divS ..
  | .divSLiteral .. | .divN .. | .divNLiteral .. | .remS .. | .remSLiteral .. | .remN .. | .remNLiteral ..
  | .minS .. | .minSLiteral .. | .minN .. | .minNLiteral .. | .maxS .. | .maxSLiteral .. | .maxN ..
  | .maxNLiteral .. | .clz .. | .ctz .. | .popc .. | .sel .. | .selLiteral .. | .mov .. => true
  | .cmp c _ _ y => (c != .z && c != .nz) || y == 0#5
  | .cmpLiteral c _ _ _ => c != .z && c != .nz
  | .addi .. | .addiLiteral .. | .andi .. | .andiLiteral .. | .ori .. | .oriLiteral .. | .xori ..
  | .xoriLiteral .. | .shli .. | .shliLiteral .. | .shri .. | .shriLiteral .. | .sari .. | .sariLiteral ..
  | .li .. | .liLiteral .. | .fadd .. => true
  | .faddLiteral f64 _ _ _ l => f64 || field l 32 32 == 0#32
  | .fsub .. => true
  | .fsubLiteral f64 _ _ _ l => f64 || field l 32 32 == 0#32
  | .fmul .. => true
  | .fmulLiteral f64 _ _ _ l => f64 || field l 32 32 == 0#32
  | .ffma .. => true
  | .ffmaLiteral f64 _ _ _ l => f64 || field l 32 32 == 0#32
  | .fmin .. => true
  | .fminLiteral f64 _ _ l => f64 || field l 32 32 == 0#32
  | .fmax .. => true
  | .fmaxLiteral f64 _ _ l => f64 || field l 32 32 == 0#32
  | .fcmp .. => true
  | .fcmpLiteral f64 _ _ _ l => f64 || field l 32 32 == 0#32
  | .fcvt .. | .fabs .. | .fneg .. | .csetb .. | .csetp .. | .cinc .. | .cgetb .. | .cgetl .. | .cgetp ..
  | .cclr .. | .ctest .. | .beq .. | .bne .. | .bltS .. | .bgeS .. | .bltN .. | .bgeN .. | .bz .. | .bnz ..
  | .b .. | .call .. | .ret | .jr .. | .callr .. => true
  | .loop _ _ a => a != 0#5
  | .ld8N .. | .ld8NLiteral .. | .ld8S .. | .ld8SLiteral .. | .ld16N .. | .ld16NLiteral .. | .ld16S ..
  | .ld16SLiteral .. | .ld32N .. | .ld32NLiteral .. | .ld32S .. | .ld32SLiteral .. | .ld64 .. | .ld64Literal ..
  | .ldc .. | .ldcLiteral .. | .st8 .. | .st8Literal .. | .st16 .. | .st16Literal .. | .st32 ..
  | .st32Literal .. | .st64 .. | .st64Literal .. | .stc .. | .stcLiteral .. => true
  | .ldv _ _ _ tag m => definedTag tag && (m == none || (tag != 0#8 && tag != 0x40#8))
  | .stv .. => true
  | .ldvs _ _ _ _ tag ew _ => gatherTag tag ew
  | .stvs .. => true
  | .ldvg _ _ _ _ tag ew _ => gatherTag tag ew
  | .stvg .. | .rel .. | .acq .. | .acqa | .phase .. | .pref .. | .trailq .. | .atomAdd .. | .atomAnd ..
  | .atomOr .. | .atomXor .. | .atomMinS .. | .atomMinN .. | .atomMaxS .. | .atomMaxN .. | .atomSwap ..
  | .cas .. => true
  | .cas2 _ d _ y => d != 0#5 && !bitAt d 0 && !bitAt y 0
  | .atomfAdd .. => true
  | .halloc _ rows cols tag _ _ _ => rows != 0#16 && cols != 0#16 && definedTag tag && tag != 0x40#8
  | .hfree .. | .hretain .. => true
  | .hquery _ _ k => k != 7#3
  | .hexport .. | .hunexport .. | .hzero .. | .hwait .. | .ldh32 .. | .ldh64 .. | .sth32 .. | .sth64 ..
  | .ldhv .. | .sthv .. | .hatom .. | .hcas .. | .hcasx .. | .cpy .. => true
  | .cpys _ _ _ _ _ rows rowb => rows != 0#16 && rowb != 0#16
  | .cpyv .. => true
  | .cpyg _ _ _ _ count eb => count != 0#16 && eb != 0#16
  | .cpym _ _ _ n => 1 ≤ n.toNat && n.toNat ≤ 16
  | .cshd .. | .cpub .. | .cred .. => true
  | .barx t _ => t.barV
  | .cwait .. | .cstat .. | .ccancel .. | .vadd .. | .vsub .. | .vmul .. | .vfma .. | .vfms .. | .vmin ..
  | .vmax .. | .vdiv .. | .vsqrt .. | .vrcp .. | .vrsq .. | .vexp2 .. | .vlog2 .. | .vabs .. | .vneg ..
  | .vand .. | .vor .. | .vxor .. | .vnot .. | .vshl .. | .vshr .. | .vsar .. | .vpopc .. | .vclz ..
  | .vcmpeq .. | .vcmpne .. | .vcmplt .. | .vcmple .. | .vcmpun .. | .vsel .. | .vmerge .. | .vpopm ..
  | .vfirst .. | .viota .. | .vmaskand .. | .vmaskor .. | .vmasknot .. | .vshuf .. | .vrot .. | .vbcast ..
  | .vext .. | .vins .. | .vredadd .. | .vredmin .. | .vredmax .. | .vscan .. | .vmov .. | .vslide .. => true
  | .vcvt tag _ _ _ _ _ => numberTag tag
  | .vpack tag _ _ _ _ _ _ => numberTag tag
  | .vunpk tag _ _ _ d _ => numberTag tag && !bitAt d 0
  | .vsat tag _ _ _ => numberTag tag
  | .vtag tag _ _ => definedTag tag
  | .vtagq .. | .vdot .. => true
  | .mma x => mmaOk x
  | .mmas x y => mmaOk x && (y.bs != .b32 || !bitAt x.k16 0)
  | .mlda t _ _ => t.id != 63#6
  | .msta t _ _ => t.id != 63#6
  | .mzero t _ => t.id != 63#6
  | .mtrn t _ _ => t.id != 63#6
  | .mcvt t _ _ _ _ => t.id != 63#6
  | .mwait .. | .mcons .. | .mspill .. | .mfill .. | .licreq | .licrel | .licq .. => true
  | .accq _ k => k != 3#2
  | .fmtset .. | .fmtget .. => true
  | .send _ _ y _ n => sendRange y n.toNat 4
  | .sendh _ _ y _ n _ => sendRange y n.toNat 4
  | .spawn _ y _ n => sendRange y n.toNat 32
  | .fork _ y _ n => n.toNat ≤ 6 && y.toNat + n.toNat ≤ 32
  | .join .. => true
  | .launch _ y _ => y.toNat ≤ 26
  | .halt | .yield | .sethdl .. | .gethdl .. | .myid .. => true
  | .gridq _ k => k != 7#3
  | .ganghint .. | .barinit .. | .bararr .. | .barwait .. | .semup .. | .semdn .. | .semtry .. | .qstat ..
  | .evcfg .. | .evpulse .. | .evread .. | .srd .. | .swr .. | .tstamp .. | .cstamp .. | .trap .. | .rft
  | .brk .. | .sigchk | .nop | .moduleReset | .clusterSelfTestDone .. | .hostPortReady .. | .hbmStackReady ..
  | .kwelinkPortReady .. | .registerWrite .. | .loadRequest .. | .loadReply .. | .atsTranslationCompletion ..
  | .prgResponse .. | .atsInvalidateRequest .. | .invalidateVaRange .. | .invalidatePartition ..
  | .invalidationComplete .. | .resumePage .. | .writeTableEntry .. | .rimpartWrite .. | .pseudoChannelZero ..
  | .rimCommandIssue .. | .idlePrecharge .. | .refresh .. | .scrub .. | .trailSpill .. | .trailRefill ..
  | .trailStallEnd .. | .sliceNotice .. | .noticeAcceptDelayed .. | .releaseReplies .. | .sliceCommit ..
  | .sliceWithdraw .. | .segmentPublished .. | .segmentFold .. | .frontierReduction .. | .shadowFinalise ..
  | .horizonBoundary .. | .pressureBoundary .. | .fpWaitComplete .. | .atomicEngineRequest .. | .atomicReply ..
  | .prefRequest .. | .flipNotice .. | .zeroFillComplete .. | .scoreboardStallEnd .. | .hcasxTarget ..
  | .hcasxReply .. | .copyAccept .. | .copyChunk .. | .chunkHold .. | .cpubFlipStart .. | .bankDrowsy ..
  | .debugVectorRead .. | .debugVectorWrite .. | .queuePush .. | .queuePop .. | .accownWrite ..
  | .matrixAccept .. | .reservationGrant .. | .matrixStep .. | .matrixRetire .. | .remoteOperandRequest ..
  | .licenceTransfer .. | .messageArrival .. | .messageReoffer .. | .messageAging .. | .coreDispatch ..
  | .stealBackoffEnd .. | .coreWake .. | .bucketRefill .. | .launchHelpStart .. | .launchHelpResume ..
  | .watchdog .. | .sliceEnd .. | .eventTermFire .. | .barrierArrival .. | .chairliftEvaluation ..
  | .gangSwapOut .. | .gangSwapIn .. | .lodgeDrain .. | .deferredTrap .. | .monitorTimeout .. | .kill ..
  | .restart .. | .duplexCompare .. | .detectedFault .. | .maskedFault .. | .drainReceipt ..
  | .viralClusterReset .. | .glideStart | .glideStage | .configurePartition .. | .addCluster ..
  | .removeCluster .. | .disablePartition .. | .resumeRegion .. | .endRegion .. | .addSwapFrames ..
  | .addShadowFrames .. | .bindVf .. | .unbindVf .. | .startRootRegion .. | .writeVfEnergy ..
  | .monitorStoreLoad .. | .meterSnapshot .. | .energyPeriodEnd .. | .lidEvent .. | .getVersion ..
  | .getCapabilities .. | .negotiateAlgorithms .. | .getDigests .. | .getCertificate .. | .challenge ..
  | .getMeasurements .. | .railSettingWrite .. | .clusterSwitchWrite .. | .droopAlarm .. | .stretchEnd ..
  | .halvedIssueEnd .. | .vectorUnitSleep .. | .vectorWakeRampEnd .. | .hqtailDoorbell .. | .hqEntryTake ..
  | .fenceComplete .. | .dqheadWrite .. | .hqbaseWrite .. | .dqbaseWrite .. | .hacq .. | .hacqComplete ..
  | .cxlMemRead .. | .cxlMemWrite .. | .routeVfKwelink .. | .unrouteVf .. | .kwelinkLaneLoss ..
  | .kwelinkRetrainDone .. | .kwelinkDown .. | .checkpoint | .restore | .physicalFunctionWrite ..
  | .placeRunQueueRecord .. | .regionShareWrite .. | .spdmSessionMessage .. | .hostPortLinkDown .. => true

end Sys2Proof
end

