-- ==== Sys2Proof/Decode.lean ====
section
/-! DEFINITION. Decoding and encoding (R23 to R39). Stage one splits words into the fields of a format, chosen by
major and LEN (R25, R27 to R29); stage two turns fields into an instruction or refuses them by name. Every refusal
here is the ILLEGAL_INSTRUCTION of R39; the checks that read the machine's state are made when it issues. -/

namespace Sys2Proof

/-- Why words are not an instruction (R39), and none left to read. -/
inductive DecodeError where
  | truncated      -- a word of the instruction is missing
  | badMajor       -- major 0x00, 0x3F or reserved (R28)
  | badLength      -- LEN not accepted (R27, R29)
  | badMinor       -- minor or COND reserved (R28)
  | reservedField  -- a reserved field is not zero (R26)
  | badValue       -- a field value outside its table
  deriving DecidableEq, Repr

/-- Fields of formats A and X (R25). -/
structure FieldsA where
  q : BitVec 3
  min : BitVec 6
  b : Reg
  a : Reg
  d : Reg
  deriving DecidableEq, Repr

/-- Fields of format I (R25). -/
structure FieldsI where
  imm : BitVec 11
  min : BitVec 3
  a : Reg
  d : Reg
  deriving DecidableEq, Repr

/-- Fields of format B (R25). -/
structure FieldsB where
  off : BitVec 9
  hint : BitVec 2
  cond : BitVec 3
  b : Reg
  a : Reg
  deriving DecidableEq, Repr

/-- Fields of format J (R25). -/
structure FieldsJ where
  off : BitVec 22
  hint : BitVec 2
  deriving DecidableEq, Repr

/-- Fields of format V (R25). -/
structure FieldsV where
  mr : BitVec 2
  mp : BitVec 1
  me : BitVec 1
  min : BitVec 5
  b : Reg
  a : Reg
  d : Reg
  deriving DecidableEq, Repr

/-- An instruction's words as the fields of its format. -/
inductive Fields where
  | a (maj : BitVec 6) (f : FieldsA)
  | aLit (maj : BitVec 6) (f : FieldsA) (lit : W64)
  | i (maj : BitVec 6) (f : FieldsI)
  | iLit (maj : BitVec 6) (f : FieldsI) (lit : W64)
  | b (maj : BitVec 6) (f : FieldsB)
  | j (maj : BitVec 6) (f : FieldsJ)
  | v (maj : BitVec 6) (f : FieldsV)
  | x (maj : BitVec 6) (f : FieldsA) (w1 w2 : W32)
  | xLit (maj : BitVec 6) (f : FieldsA) (w1 w2 : W32) (lit : W64)
  deriving DecidableEq, Repr

/-- The form of an instruction: format and whether a literal follows. -/
inductive Form where
  | a | aLit | i | iLit | b | j | v | x | xLit
  deriving DecidableEq, Repr

/-- The form that a major takes with a LEN (R25, R27, R28, R29). -/
def formOf (maj len : Nat) : Except DecodeError Form :=
  let pick (l0 l1 l2 l3 : Option Form) : Except DecodeError Form :=
    let o := match len with | 0 => l0 | 1 => l1 | 2 => l2 | _ => l3
    match o with | some f => .ok f | none => .error .badLength
  match maj with
  | 0x01 | 0x03 => pick (some .a) none (some .aLit) none
  | 0x02 | 0x10 | 0x11 => pick (some .i) none (some .iLit) none
  | 0x04 | 0x08 | 0x13 | 0x14 | 0x1D | 0x2D | 0x2E | 0x35 | 0x38 | 0x39 | 0x3A => pick (some .a) none none none
  | 0x05 | 0x09 => pick (some .b) none none none
  | 0x06 | 0x07 => pick (some .j) none none none
  | 0x12 | 0x1C => pick none (some .x) none none
  | 0x18 | 0x1A | 0x34 => pick (some .a) (some .x) none none
  | 0x20 | 0x21 | 0x22 | 0x23 => pick (some .v) none none none
  | 0x24 => pick (some .v) (some .x) none none
  | 0x2C => pick none (some .x) none (some .xLit)
  | _ => .error .badMajor

/-- Words of an instruction by LEN (R23). -/
def lenWords (len : Nat) : Nat :=
  match len with | 0 => 1 | 1 => 3 | 2 => 3 | _ => 5

def fieldsA (w : W32) : FieldsA := ⟨field w 29 3, field w 23 6, field w 18 5, field w 13 5, field w 8 5⟩
def fieldsI (w : W32) : FieldsI := ⟨field w 21 11, field w 18 3, field w 13 5, field w 8 5⟩
def fieldsB (w : W32) : FieldsB := ⟨field w 23 9, field w 21 2, field w 18 3, field w 13 5, field w 8 5⟩
def fieldsJ (w : W32) : FieldsJ := ⟨field w 10 22, field w 8 2⟩
def fieldsV (w : W32) : FieldsV :=
  ⟨field w 30 2, field w 29 1, field w 28 1, field w 23 5, field w 18 5, field w 13 5, field w 8 5⟩

/-- The 64-bit literal, low word first (R23). -/
def literal (lo hi : W32) : W64 := BitVec.ofNat 64 (lo.toNat + 2 ^ 32 * hi.toNat)

/-- Stage one: the words at an instruction's start as fields. -/
def splitWords (ws : List W32) : Except DecodeError Fields :=
  match ws with
  | [] => .error .truncated
  | w0 :: rest =>
    let maj : BitVec 6 := field w0 2 6
    match formOf maj.toNat (field w0 0 2 : BitVec 2).toNat with
    | .error e => .error e
    | .ok .a => .ok (.a maj (fieldsA w0))
    | .ok .i => .ok (.i maj (fieldsI w0))
    | .ok .b => .ok (.b maj (fieldsB w0))
    | .ok .j => .ok (.j maj (fieldsJ w0))
    | .ok .v => .ok (.v maj (fieldsV w0))
    | .ok .aLit => match rest with
      | lo :: hi :: _ => .ok (.aLit maj (fieldsA w0) (literal lo hi))
      | _ => .error .truncated
    | .ok .iLit => match rest with
      | lo :: hi :: _ => .ok (.iLit maj (fieldsI w0) (literal lo hi))
      | _ => .error .truncated
    | .ok .x => match rest with
      | w1 :: w2 :: _ => .ok (.x maj (fieldsA w0) w1 w2)
      | _ => .error .truncated
    | .ok .xLit => match rest with
      | w1 :: w2 :: lo :: hi :: _ => .ok (.xLit maj (fieldsA w0) w1 w2 (literal lo hi))
      | _ => .error .truncated

/-! Field values of the tables. -/

def Cond.of (n : Nat) : Cond :=
  match n with
  | 0 => .eq | 1 => .ne | 2 => .ltS | 3 => .geS | 4 => .ltN | 5 => .geN | 6 => .z | _ => .nz
def Cond.code : Cond → Nat
  | .eq => 0 | .ne => 1 | .ltS => 2 | .geS => 3 | .ltN => 4 | .geN => 5 | .z => 6 | .nz => 7
def Order.of (n : Nat) : Order := match n with | 0 => .plain | 1 => .acq | 2 => .rel | _ => .ar
def Order.code : Order → Nat | .plain => 0 | .acq => 1 | .rel => 2 | .ar => 3
def Rm.of (n : Nat) : Rm := match n with | 0 => .rne | 1 => .rz | 2 => .rdn | _ => .rup
def Rm.code : Rm → Nat | .rne => 0 | .rz => 1 | .rdn => 2 | .rup => 3
def FCond.of (n : Nat) : FCond := match n with | 0 => .eq | 1 => .lt | 2 => .le | _ => .un
def FCond.code : FCond → Nat | .eq => 0 | .lt => 1 | .le => 2 | .un => 3
def Vrm.of? (n : Nat) : Option Vrm :=
  match n with | 0 => some .rne | 1 => some .rz | 2 => some .rdn | 3 => some .rup | 4 => some .sr | _ => none
def Vrm.code : Vrm → Nat | .rne => 0 | .rz => 1 | .rdn => 2 | .rup => 3 | .sr => 4
def FcvtSel.of? (n : Nat) : Option FcvtSel :=
  match n with | 0 => some .xf | 1 => some .sf | 2 => some .nf | 3 => some .fs | 4 => some .fn | _ => none
def FcvtSel.code : FcvtSel → Nat | .xf => 0 | .sf => 1 | .nf => 2 | .fs => 3 | .fn => 4
def Ew.of? (n : Nat) : Option Ew :=
  match n with | 0 => some .e8 | 1 => some .e16 | 2 => some .e32 | 3 => some .e64 | _ => none
def Ew.code : Ew → Nat | .e8 => 0 | .e16 => 1 | .e32 => 2 | .e64 => 3
def Level.of? (n : Nat) : Option Level :=
  match n with | 0 => some .tile | 1 => some .twin | 2 => some .cluster | _ => none
def Level.code : Level → Nat | .tile => 0 | .twin => 1 | .cluster => 2
def AtomOp.of? (n : Nat) : Option AtomOp :=
  match n with
  | 0 => some .add | 1 => some .and | 2 => some .or | 3 => some .xor | 4 => some .minS
  | 5 => some .minN | 6 => some .maxS | 7 => some .maxN | 8 => some .swap | _ => none
def AtomOp.code : AtomOp → Nat
  | .add => 0 | .and => 1 | .or => 2 | .xor => 3 | .minS => 4 | .minN => 5 | .maxS => 6 | .maxN => 7 | .swap => 8
def RedOp.of? (n : Nat) : Option RedOp :=
  match n with | 0 => some .add | 1 => some .min | 2 => some .max | _ => none
def RedOp.code : RedOp → Nat | .add => 0 | .min => 1 | .max => 2
def BlockSize.of? (n : Nat) : Option BlockSize :=
  match n with | 0 => some .b8 | 1 => some .b16 | 2 => some .b32 | _ => none
def BlockSize.code : BlockSize → Nat | .b8 => 0 | .b16 => 1 | .b32 => 2
def Hint.of? (n : Nat) : Option Hint :=
  match n with | 0 => some .none | 1 => some .t | 2 => some .n | _ => Option.none
def Hint.code : Hint → Nat | .none => 0 | .t => 1 | .n => 2

/-! Stage two: fields to an instruction. -/

/-- The instruction when its reserved fields are zero (R26) and its values lie inside their tables. -/
def accept (reserved : Bool) (i : Instr) : Except DecodeError Instr :=
  if !reserved then .error .reservedField else if i.wf then .ok i else .error .badValue

def orErr {α : Type} (e : DecodeError) (o : Option α) (k : α → Except DecodeError Instr) :
    Except DecodeError Instr :=
  match o with | some x => k x | none => .error e

/-- The mask operand of ME, MP and MR (R25): with ME clear, MP and MR must be zero. -/
def maskOf (me mp : Bool) (mr : BitVec 2) (k : Option Mask → Except DecodeError Instr) :
    Except DecodeError Instr :=
  if me then k (some ⟨mp, mr⟩) else if mp || mr != 0#2 then .error .reservedField else k none

/-- As maskOf, for an entry that needs MP = 0 (R271, R272). -/
def maskOf0 (me mp : Bool) (mr : BitVec 2) (k : Option (BitVec 2) → Except DecodeError Instr) :
    Except DecodeError Instr :=
  if mp then .error .badValue
  else if me then k (some mr) else if mr != 0#2 then .error .reservedField else k none

def low2 (r : Reg) : BitVec 2 := field r 0 2
def low3 (r : Reg) : BitVec 3 := field r 0 3
def low4 (r : Reg) : BitVec 4 := field r 0 4

/-- Major 0x01 minors with three registers (R28). -/
def aluOp (min : Nat) : Option ((Reg → Reg → Reg → Instr) × (Reg → Reg → W64 → Instr)) :=
  match min with
  | 0 => some (.add, .addLiteral) | 1 => some (.sub, .subLiteral) | 2 => some (.and, .andLiteral)
  | 3 => some (.or, .orLiteral) | 4 => some (.xor, .xorLiteral) | 5 => some (.shl, .shlLiteral)
  | 6 => some (.shr, .shrLiteral) | 7 => some (.sar, .sarLiteral) | 8 => some (.mul, .mulLiteral)
  | 9 => some (.mulhS, .mulhSLiteral) | 10 => some (.mulhN, .mulhNLiteral)
  | 11 => some (.divS, .divSLiteral) | 12 => some (.divN, .divNLiteral) | 13 => some (.remS, .remSLiteral)
  | 14 => some (.remN, .remNLiteral) | 15 => some (.minS, .minSLiteral) | 16 => some (.minN, .minNLiteral)
  | 17 => some (.maxS, .maxSLiteral) | 18 => some (.maxN, .maxNLiteral) | 22 => some (.sel, .selLiteral)
  | _ => none

def decode01 (f : FieldsA) : Except DecodeError Instr :=
  match f.min.toNat with
  | 19 => accept (f.q == 0#3 && f.b == 0#5) (.clz f.d f.a)
  | 20 => accept (f.q == 0#3 && f.b == 0#5) (.ctz f.d f.a)
  | 21 => accept (f.q == 0#3 && f.b == 0#5) (.popc f.d f.a)
  | 23 => accept (f.q == 0#3 && f.b == 0#5) (.mov f.d f.a)
  | 24 => accept true (.cmp (.of f.q.toNat) f.d f.a f.b)
  | n => match aluOp n with
    | some (op, _) => accept (f.q == 0#3) (op f.d f.a f.b)
    | none => .error .badMinor

def decode01Lit (f : FieldsA) (lit : W64) : Except DecodeError Instr :=
  match f.min.toNat with
  | 24 => accept (f.b == 0#5) (.cmpLiteral (.of f.q.toNat) f.d f.a lit)
  | n => match aluOp n with
    | some (_, op) => accept (f.q == 0#3 && f.b == 0#5) (op f.d f.a lit)
    | none => if n ≤ 23 then .error .badLength else .error .badMinor

def immOp (min : Nat) : Option ((Reg → Reg → BitVec 11 → Instr) × (Reg → Reg → W64 → Instr)) :=
  match min with
  | 0 => some (.addi, .addiLiteral) | 1 => some (.andi, .andiLiteral) | 2 => some (.ori, .oriLiteral)
  | 3 => some (.xori, .xoriLiteral) | 4 => some (.shli, .shliLiteral) | 5 => some (.shri, .shriLiteral)
  | 6 => some (.sari, .sariLiteral) | _ => none

noncomputable def ldOp (min : Nat) : Option ((Reg → Reg → BitVec 11 → Instr) × (Reg → Reg → W64 → Instr)) :=
  match min with
  | 0 => some (.ld8N, .ld8NLiteral) | 1 => some (.ld8S, .ld8SLiteral) | 2 => some (.ld16N, .ld16NLiteral)
  | 3 => some (.ld16S, .ld16SLiteral) | 4 => some (.ld32N, .ld32NLiteral) | 5 => some (.ld32S, .ld32SLiteral)
  | 6 => some (.ld64, .ld64Literal) | 7 => some (.ldc, .ldcLiteral) | _ => none

noncomputable def stOp (min : Nat) : Option ((Reg → Reg → BitVec 11 → Instr) × (Reg → Reg → W64 → Instr)) :=
  match min with
  | 0 => some (.st8, .st8Literal) | 1 => some (.st16, .st16Literal) | 2 => some (.st32, .st32Literal)
  | 3 => some (.st64, .st64Literal) | 4 => some (.stc, .stcLiteral) | _ => none

/-- The format I minors of majors 0x02, 0x10 and 0x11 (R28). -/
noncomputable def opI (maj min : Nat) : Option ((Reg → Reg → BitVec 11 → Instr) × (Reg → Reg → W64 → Instr)) :=
  match maj with
  | 0x02 => immOp min | 0x10 => ldOp min | 0x11 => stOp min | _ => none

noncomputable def decodeI (maj : Nat) (f : FieldsI) : Except DecodeError Instr :=
  match opI maj f.min.toNat with
  | some (op, _) => accept true (op f.d f.a f.imm)
  | none => if maj = 2 then accept (f.a == 0#5) (.li f.d f.imm) else .error .badMinor

noncomputable def decodeILit (maj : Nat) (f : FieldsI) (lit : W64) : Except DecodeError Instr :=
  match opI maj f.min.toNat with
  | some (_, op) => accept (f.imm == 0#11) (op f.d f.a lit)
  | none => if maj = 2 then accept (f.imm == 0#11 && f.a == 0#5) (.liLiteral f.d lit) else .error .badMinor

def decode03 (f : FieldsA) : Except DecodeError Instr :=
  let p := bitAt f.q 0
  let r : BitVec 2 := field f.q 1 2
  let rm := Rm.of r.toNat
  match f.min.toNat with
  | 0 => accept true (.fadd p rm f.d f.a f.b)
  | 1 => accept true (.fsub p rm f.d f.a f.b)
  | 2 => accept true (.fmul p rm f.d f.a f.b)
  | 3 => accept true (.ffma p rm f.d f.a f.b)
  | 4 => accept (r == 0#2) (.fmin p f.d f.a f.b)
  | 5 => accept (r == 0#2) (.fmax p f.d f.a f.b)
  | 6 => accept true (.fcmp p (.of r.toNat) f.d f.a f.b)
  | 7 => orErr .badValue (FcvtSel.of? f.b.toNat) fun s => accept true (.fcvt p rm s f.d f.a)
  | 8 => accept (r == 0#2 && f.b == 0#5) (.fabs p f.d f.a)
  | 9 => accept (r == 0#2 && f.b == 0#5) (.fneg p f.d f.a)
  | _ => .error .badMinor

def decode03Lit (f : FieldsA) (lit : W64) : Except DecodeError Instr :=
  let p := bitAt f.q 0
  let r : BitVec 2 := field f.q 1 2
  let rm := Rm.of r.toNat
  let z := f.b == 0#5
  match f.min.toNat with
  | 0 => accept z (.faddLiteral p rm f.d f.a lit)
  | 1 => accept z (.fsubLiteral p rm f.d f.a lit)
  | 2 => accept z (.fmulLiteral p rm f.d f.a lit)
  | 3 => accept z (.ffmaLiteral p rm f.d f.a lit)
  | 4 => accept (z && r == 0#2) (.fminLiteral p f.d f.a lit)
  | 5 => accept (z && r == 0#2) (.fmaxLiteral p f.d f.a lit)
  | 6 => accept z (.fcmpLiteral p (.of r.toNat) f.d f.a lit)
  | n => if n ≤ 9 then .error .badLength else .error .badMinor

def decode04 (f : FieldsA) : Except DecodeError Instr :=
  let q := f.q == 0#3
  let qb := q && f.b == 0#5
  match f.min.toNat with
  | 0 => accept q (.csetb f.d f.a f.b)
  | 1 => accept q (.csetp f.d f.a f.b)
  | 2 => accept q (.cinc f.d f.a f.b)
  | 3 => accept qb (.cgetb f.d f.a)
  | 4 => accept qb (.cgetl f.d f.a)
  | 5 => accept qb (.cgetp f.d f.a)
  | 6 => accept qb (.cclr f.d f.a)
  | 7 => accept q (.ctest f.d f.a f.b)
  | _ => .error .badMinor

def decodeB (maj : Nat) (f : FieldsB) : Except DecodeError Instr :=
  orErr .badValue (Hint.of? f.hint.toNat) fun h =>
  if maj = 9 then
    if f.cond = 0#3 then accept (f.b == 0#5) (.loop h f.off f.a) else .error .badMinor
  else match f.cond.toNat with
    | 0 => accept true (.beq h f.off f.a f.b)
    | 1 => accept true (.bne h f.off f.a f.b)
    | 2 => accept true (.bltS h f.off f.a f.b)
    | 3 => accept true (.bgeS h f.off f.a f.b)
    | 4 => accept true (.bltN h f.off f.a f.b)
    | 5 => accept true (.bgeN h f.off f.a f.b)
    | 6 => accept (f.b == 0#5) (.bz h f.off f.a)
    | _ => accept (f.b == 0#5) (.bnz h f.off f.a)

def decodeJ (maj : Nat) (f : FieldsJ) : Except DecodeError Instr :=
  if 2 ≤ f.hint.toNat then .error .badValue
  else if maj = 6 then .ok (.b (f.hint == 1#2) f.off) else .ok (.call (f.hint == 1#2) f.off)

def decode08 (f : FieldsA) : Except DecodeError Instr :=
  let z := f.q == 0#3 && f.d == 0#5 && f.b == 0#5
  match f.min.toNat with
  | 0 => accept (z && f.a == 0#5) .ret
  | 1 => accept z (.jr f.a)
  | 2 => accept z (.callr f.a)
  | _ => .error .badMinor

noncomputable def decode12 (f : FieldsA) (w1 w2 : W32) : Except DecodeError Instr :=
  let tag : Byte := field w2 0 8
  let ew : BitVec 3 := field w2 8 3
  let vi : Reg := field w2 11 5
  let z := f.q == 0#3 && (field w2 20 12 : BitVec 12) == 0#12
  let z0 := z && f.b == 0#5 && ew == 0#3 && vi == 0#5
  maskOf (bitAt w2 16) (bitAt w2 17) (field w2 18 2) fun m =>
  match f.min.toNat with
  | 0 => accept z0 (.ldv f.d f.a w1 tag m)
  | 1 => accept (z0 && tag == 0#8) (.stv f.d f.a w1 m)
  | 2 => orErr .badValue (Ew.of? ew.toNat) fun e => accept (z && vi == 0#5) (.ldvs f.d f.a f.b w1 tag e m)
  | 3 => orErr .badValue (Ew.of? ew.toNat) fun e =>
      accept (z && vi == 0#5 && tag == 0#8) (.stvs f.d f.a f.b w1 e m)
  | 4 => orErr .badValue (Ew.of? ew.toNat) fun e => accept (z && f.b == 0#5) (.ldvg f.d f.a vi w1 tag e m)
  | 5 => orErr .badValue (Ew.of? ew.toNat) fun e =>
      accept (z && f.b == 0#5 && tag == 0#8) (.stvg f.d f.a vi w1 e m)
  | _ => .error .badMinor

noncomputable def decode13 (f : FieldsA) : Except DecodeError Instr :=
  let q := f.q == 0#3
  let zd := f.d == 0#5
  let za := f.a == 0#5
  let zb := f.b == 0#5
  match f.min.toNat with
  | 0 => accept (q && zd && zb) (.rel f.a)
  | 1 => accept (q && zd) (.acq f.a f.b)
  | 2 => accept (q && zd && za && zb) .acqa
  | 3 => accept (q && zd && zb) (.phase f.a)
  | 4 => accept (q && zd) (.pref f.a f.b)
  | 5 => accept (q && zb && f.a.toNat ≤ 7) (.trailq f.d (low3 f.a))
  | _ => .error .badMinor

noncomputable def decode14 (f : FieldsA) : Except DecodeError Instr :=
  let o := Order.of (field f.q 0 2 : BitVec 2).toNat
  let w := bitAt f.q 2
  match f.min.toNat with
  | 0 => accept true (.atomAdd o w f.d f.a f.b)
  | 1 => accept true (.atomAnd o w f.d f.a f.b)
  | 2 => accept true (.atomOr o w f.d f.a f.b)
  | 3 => accept true (.atomXor o w f.d f.a f.b)
  | 4 => accept true (.atomMinS o w f.d f.a f.b)
  | 5 => accept true (.atomMinN o w f.d f.a f.b)
  | 6 => accept true (.atomMaxS o w f.d f.a f.b)
  | 7 => accept true (.atomMaxN o w f.d f.a f.b)
  | 8 => accept true (.atomSwap o w f.d f.a f.b)
  | 9 => accept true (.cas o w f.d f.a f.b)
  | 10 => accept (!w) (.cas2 o f.d f.a f.b)
  | 11 => accept true (.atomfAdd o w f.d f.a f.b)
  | _ => .error .badMinor

noncomputable def decode18 (f : FieldsA) : Except DecodeError Instr :=
  let z := f.q == 0#3 && f.d == 0#5
  let zb := z && f.b == 0#5
  match f.min.toNat with
  | 0 => .error .badLength
  | 1 => accept zb (.hfree f.a)
  | 2 => accept (z && f.b.toNat ≤ 1) (.hretain f.a (f.b == 1#5))
  | 3 => accept (f.q == 0#3 && f.b.toNat ≤ 7) (.hquery f.d f.a (low3 f.b))
  | 4 => accept zb (.hexport f.a)
  | 5 => accept zb (.hunexport f.a)
  | 6 => accept zb (.hzero f.a)
  | 7 => accept zb (.hwait f.a)
  | _ => .error .badMinor

noncomputable def decode18X (f : FieldsA) (w1 w2 : W32) : Except DecodeError Instr :=
  match f.min.toNat with
  | 0 => orErr .badValue (Level.of? (field w2 8 2 : BitVec 2).toNat) fun l =>
      accept (f.q == 0#3 && f.a == 0#5 && f.b == 0#5 && (field w2 12 20 : BitVec 20) == 0#20)
        (.halloc f.d (field w1 0 16) (field w1 16 16) (field w2 0 8) l (bitAt w2 10) (bitAt w2 11))
  | n => if n ≤ 7 then .error .badLength else .error .badMinor

noncomputable def decode1A (f : FieldsA) : Except DecodeError Instr :=
  let q := f.q == 0#3
  match f.min.toNat with
  | 0 => accept q (.ldh32 f.d f.a f.b)
  | 1 => accept q (.ldh64 f.d f.a f.b)
  | 2 => accept q (.sth32 f.d f.a f.b)
  | 3 => accept q (.sth64 f.d f.a f.b)
  | 4 => accept q (.ldhv f.d f.a f.b)
  | 5 => accept q (.sthv f.d f.a f.b)
  | n => if n ≤ 8 then .error .badLength else .error .badMinor

noncomputable def decode1AX (f : FieldsA) (w1 w2 : W32) : Except DecodeError Instr :=
  let o := Order.of (field f.q 0 2 : BitVec 2).toNat
  let w := bitAt f.q 2
  let vtr : Reg := field w1 0 5
  let c : Reg := field w2 0 5
  let op : BitVec 4 := field w2 5 4
  let z := (field w1 5 27 : BitVec 27) == 0#27 && (field w2 9 23 : BitVec 23) == 0#23
  match f.min.toNat with
  | 6 => orErr .badValue (AtomOp.of? op.toNat) fun op =>
      accept (z && vtr == 0#5 && c == 0#5) (.hatom o w op f.d f.a f.b)
  | 7 => accept (z && vtr == 0#5 && op == 0#4) (.hcas o w f.d f.a f.b c)
  | 8 => accept (z && op == 0#4) (.hcasx o w f.d f.a f.b c vtr)
  | n => if n ≤ 5 then .error .badLength else .error .badMinor

/-- Q[1:0] and word 1 of major 0x1C (R35). -/
def copyTags (f : FieldsA) (w1 : W32) : CopyTags :=
  ⟨field f.q 0 2, field w1 0 6, bitAt w1 6, field w1 7 4, bitAt w1 11, field w1 12 4, bitAt w1 16⟩

noncomputable def decode1C (f : FieldsA) (w1 w2 : W32) : Except DecodeError Instr :=
  let t := copyTags f w1
  let out := bitAt f.q 2
  let z1 := (field w1 17 15 : BitVec 15) == 0#15
  let z2 := w2 == 0#32
  match f.min.toNat with
  | 0 => accept (z1 && z2) (.cpy t out f.d f.a f.b)
  | 1 => accept z1 (.cpys t out f.d f.a f.b (field w2 0 16) (field w2 16 16))
  | 2 => accept (z1 && (field w2 12 20 : BitVec 20) == 0#20)
      (.cpyv t out f.d f.a f.b (field w2 0 4) (field w2 4 4) (field w2 8 4))
  | 3 => accept (z1 && !out) (.cpyg t f.d f.a f.b (field w2 0 16) (field w2 16 16))
  | 4 => accept (z1 && !out && f.b == 0#5 && (field w2 5 27 : BitVec 27) == 0#27)
      (.cpym t f.d f.a (field w2 0 5))
  | 5 => accept (z1 && !out && z2) (.cshd t f.d f.a f.b)
  | 6 => accept (z1 && !out && z2 && f.d == 0#5 && f.b == 0#5) (.cpub t f.a)
  | 7 => orErr .badValue (RedOp.of? (field w2 0 2 : BitVec 2).toNat) fun op =>
      accept (z1 && !out && (field w2 2 30 : BitVec 30) == 0#30) (.cred t op f.d f.a f.b)
  | 8 => accept (z1 && !out && z2 && f.d == 0#5 && f.a == 0#5) (.barx t f.b)
  | _ => .error .badMinor

noncomputable def decode1D (f : FieldsA) : Except DecodeError Instr :=
  let q := f.q == 0#3 && f.b == 0#5
  match f.min.toNat with
  | 0 => accept (q && f.d == 0#5 && f.a.toNat ≤ 15) (.cwait (low4 f.a))
  | 1 => accept (q && f.a.toNat ≤ 3) (.cstat f.d (low2 f.a))
  | 2 => accept (q && f.d == 0#5 && f.a.toNat ≤ 15) (.ccancel (low4 f.a))
  | _ => .error .badMinor

/-- Format V minors with three vector operands and a mask (R265 to R273). -/
noncomputable def vec3Op (maj min : Nat) : Option (Option Mask → Reg → Reg → Reg → Instr) :=
  match maj, min with
  | 0x20, 0 => some .vadd | 0x20, 1 => some .vsub | 0x20, 2 => some .vmul | 0x20, 3 => some .vfma
  | 0x20, 4 => some .vfms | 0x20, 5 => some .vmin | 0x20, 6 => some .vmax | 0x20, 7 => some .vdiv
  | 0x21, 0 => some .vand | 0x21, 1 => some .vor | 0x21, 2 => some .vxor | 0x21, 4 => some .vshl
  | 0x21, 5 => some .vshr | 0x21, 6 => some .vsar
  | 0x22, 0 => some .vcmpeq | 0x22, 1 => some .vcmpne | 0x22, 2 => some .vcmplt | 0x22, 3 => some .vcmple
  | 0x22, 4 => some .vcmpun | 0x22, 6 => some .vmerge | 0x22, 10 => some .vmaskand | 0x22, 11 => some .vmaskor
  | 0x23, 0 => some .vshuf | 0x23, 1 => some .vrot | 0x23, 10 => some .vslide
  | 0x24, 6 => some .vdot
  | _, _ => none

/-- Format V minors with two operands and a mask, VB = 0. -/
noncomputable def vec2Op (maj min : Nat) : Option (Option Mask → Reg → Reg → Instr) :=
  match maj, min with
  | 0x20, 8 => some .vsqrt | 0x20, 9 => some .vrcp | 0x20, 10 => some .vrsq | 0x20, 11 => some .vexp2
  | 0x20, 12 => some .vlog2 | 0x20, 13 => some .vabs | 0x20, 14 => some .vneg
  | 0x21, 3 => some .vnot | 0x21, 7 => some .vpopc | 0x21, 8 => some .vclz
  | 0x22, 12 => some .vmasknot
  | 0x23, 2 => some .vbcast | 0x23, 8 => some .vscan | 0x23, 9 => some .vmov
  | _, _ => none

noncomputable def decodeV (maj : Nat) (f : FieldsV) : Except DecodeError Instr :=
  let min := f.min.toNat
  let me := f.me == 1#1
  let mp := f.mp == 1#1
  let zb := f.b == 0#5
  let nomask (i : Instr) : Except DecodeError Instr :=
    if me then .error .badValue else accept (!mp && f.mr == 0#2) i
  match vec3Op maj min with
  | some op => maskOf me mp f.mr fun m => accept true (op m f.d f.a f.b)
  | none => match vec2Op maj min with
    | some op => maskOf me mp f.mr fun m => accept zb (op m f.d f.a)
    | none => match maj, min with
      | 0x22, 5 => if me && !mp then accept true (.vsel f.mr f.d f.a f.b) else .error .badValue
      | 0x22, 7 => maskOf0 me mp f.mr fun m => accept zb (.vpopm m f.d f.a)
      | 0x22, 8 => maskOf0 me mp f.mr fun m => accept zb (.vfirst m f.d f.a)
      | 0x22, 9 => maskOf me mp f.mr fun m => accept (f.b.toNat ≤ 3) (.viota m f.d f.a (low2 f.b))
      | 0x23, 3 => nomask (.vext f.d f.a f.b)
      | 0x23, 4 => nomask (.vins f.d f.a f.b)
      | 0x23, 5 => maskOf0 me mp f.mr fun m => accept true (.vredadd m f.d f.a f.b)
      | 0x23, 6 => maskOf0 me mp f.mr fun m => accept true (.vredmin m f.d f.a f.b)
      | 0x23, 7 => maskOf0 me mp f.mr fun m => accept true (.vredmax m f.d f.a f.b)
      | 0x24, 5 => if zb then nomask (.vtagq f.d f.a) else .error .reservedField
      | 0x24, n => if n ≤ 4 then .error .badLength else .error .badMinor
      | _, _ => .error .badMinor

noncomputable def decode24X (f : FieldsA) (w1 w2 : W32) : Except DecodeError Instr :=
  let tag : Byte := field w1 0 8
  let sat := bitAt w1 11
  let z := f.q == 0#3 && (field w1 16 16 : BitVec 16) == 0#16 && w2 == 0#32
  let zb := z && f.b == 0#5
  orErr .badValue (Vrm.of? (field w1 8 3 : BitVec 3).toNat) fun rm =>
  maskOf (bitAt w1 12) (bitAt w1 13) (field w1 14 2) fun m =>
  match f.min.toNat with
  | 0 => accept zb (.vcvt tag rm sat m f.d f.a)
  | 1 => accept z (.vpack tag rm sat m f.d f.a f.b)
  | 2 => accept zb (.vunpk tag rm sat m f.d f.a)
  | 3 => accept (zb && rm == .rne && !sat) (.vsat tag m f.d f.a)
  | 4 => accept (zb && rm == .rne && !sat && m == none) (.vtag tag f.d f.a)
  | n => if n ≤ 6 then .error .badLength else .error .badMinor

/-- Words 1 and 2 of every matrix command (R37). -/
def mtags (w1 w2 : W32) : MTags :=
  ⟨field w1 6 6, field w1 12 6, field w1 18 6, field w2 0 4, bitAt w2 4, field w2 5 4, bitAt w2 9⟩

def remoteReg (q : Bool) (r : Reg) : Option Reg := if q then some r else none

/-- The fields MMA and MMAS share; none when a reserved one is set (R37, R299). -/
def mmaArgs (f : FieldsA) (w1 w2 : W32) : Option MmaArgs :=
  let ca : Reg := field w2 10 5
  let cb : Reg := field w2 15 5
  let ra := bitAt f.q 0
  let rb := bitAt f.q 1
  if !bitAt f.q 2 && f.d.toNat ≤ 3 && (ra || ca == 0#5) && (rb || cb == 0#5)
      && (field w1 24 8 : BitVec 8) == 0#8 && (field w2 21 11 : BitVec 11) == 0#11 then
    some ⟨mtags w1 w2, low2 f.d, f.a, f.b, remoteReg ra ca, remoteReg rb cb, field w1 0 6, bitAt w2 20⟩
  else none

noncomputable def decode2C (f : FieldsA) (w1 w2 : W32) : Except DecodeError Instr :=
  let t := mtags w1 w2
  let rs := f.q == 0#3 && (field w1 0 6 : BitVec 6) == 0#6 && (field w1 24 8 : BitVec 8) == 0#8
    && (field w2 10 11 : BitVec 11) == 0#11 && (field w2 25 7 : BitVec 7) == 0#7
  let z := rs && (field w2 21 4 : BitVec 4) == 0#4
  match f.min.toNat with
  | 0 => orErr .reservedField (mmaArgs f w1 w2) fun x => accept true (.mma x)
  | 1 => .error .badLength
  | 2 => accept (z && f.b == 0#5 && f.d.toNat ≤ 3) (.mlda t (low2 f.d) f.a)
  | 3 => accept (z && f.b == 0#5 && f.a.toNat ≤ 3) (.msta t f.d (low2 f.a))
  | 4 => accept (z && f.b == 0#5 && f.a == 0#5 && f.d.toNat ≤ 3) (.mzero t (low2 f.d))
  | 5 => accept (z && f.b == 0#5) (.mtrn t f.d f.a)
  | 6 => orErr .badValue (Vrm.of? (field w2 21 3 : BitVec 3).toNat) fun rm =>
      accept (rs && f.b == 0#5 && f.a.toNat ≤ 3) (.mcvt t rm (bitAt w2 24) f.d (low2 f.a))
  | _ => .error .badMinor

noncomputable def decode2CLit (f : FieldsA) (w1 w2 : W32) (lit : W64) : Except DecodeError Instr :=
  match f.min.toNat with
  | 1 => orErr .reservedField (mmaArgs f w1 w2) fun x =>
      orErr .badValue (BlockSize.of? (field lit 20 2 : BitVec 2).toNat) fun bs =>
      accept ((field lit 22 42 : BitVec 42) == 0#42)
        (.mmas x ⟨field lit 0 5, field lit 5 5, field lit 10 5, field lit 15 5, bs⟩)
  | n => if n ≤ 6 then .error .badLength else .error .badMinor

def id6 (a b : Reg) : BitVec 6 := BitVec.ofNat 6 (a.toNat + 32 * b.toNat)

noncomputable def decode2D (f : FieldsA) : Except DecodeError Instr :=
  let q := f.q == 0#3
  let zd := q && f.d == 0#5
  let zb := f.b == 0#5
  let za := f.a == 0#5
  match f.min.toNat with
  | 0 => accept (zd && f.b.toNat ≤ 1) (.mwait (id6 f.a f.b))
  | 1 => accept (zd && f.b.toNat ≤ 1) (.mcons (id6 f.a f.b))
  | 2 => accept (zd && f.a.toNat ≤ 3 && f.b.toNat ≤ 3) (.mspill (low2 f.a) (low2 f.b))
  | 3 => accept (zd && f.a.toNat ≤ 3 && f.b.toNat ≤ 3) (.mfill (low2 f.a) (low2 f.b))
  | 4 => accept (zd && za && zb) .licreq
  | 5 => accept (zd && za && zb) .licrel
  | 6 => accept (q && za && zb) (.licq f.d)
  | 7 => accept (q && zb && f.a.toNat ≤ 3) (.accq f.d (low2 f.a))
  | _ => .error .badMinor

noncomputable def decode2E (f : FieldsA) : Except DecodeError Instr :=
  let q := f.q == 0#3 && f.b == 0#5
  match f.min.toNat with
  | 0 => accept (q && f.d.toNat ≤ 7) (.fmtset (low3 f.d) f.a)
  | 1 => accept (q && f.a.toNat ≤ 7) (.fmtget f.d (low3 f.a))
  | _ => .error .badMinor

noncomputable def decode34 (f : FieldsA) : Except DecodeError Instr :=
  let z := f.q == 0#3 && f.d == 0#5
  match f.min.toNat with
  | 4 => accept z (.join f.a f.b)
  | 6 => accept (z && f.a == 0#5 && f.b == 0#5) .halt
  | 7 => accept (z && f.a == 0#5 && f.b == 0#5) .yield
  | n => if n ≤ 7 then .error .badLength else .error .badMinor

noncomputable def decode34X (f : FieldsA) (w1 w2 : W32) : Except DecodeError Instr :=
  let z := f.q == 0#3 && f.d == 0#5
  let zs := f.d == 0#5 && !bitAt f.q 2 && (field w1 11 21 : BitVec 21) == 0#21
  let o : BitVec 2 := field f.q 0 2
  match f.min.toNat with
  | 0 => if bitAt o 0 then .error .badValue else
      accept (zs && w2 == 0#32) (.send (bitAt o 1) f.a f.b (field w1 0 8) (field w1 8 3))
  | 1 => if bitAt o 0 then .error .badValue else
      accept (zs && (field w2 5 27 : BitVec 27) == 0#27)
        (.sendh (bitAt o 1) f.a f.b (field w1 0 8) (field w1 8 3) (field w2 0 5))
  | 2 => accept (z && w2 == 0#32 && (field w1 14 18 : BitVec 18) == 0#18)
      (.spawn f.a f.b (field w1 0 8) (field w1 8 6))
  | 3 => accept (z && (field w2 3 29 : BitVec 29) == 0#29) (.fork f.a f.b w1 (field w2 0 3))
  | 5 => accept (z && w2 == 0#32 && (field w1 8 24 : BitVec 24) == 0#24) (.launch f.a f.b (field w1 0 8))
  | n => if n ≤ 7 then .error .badLength else .error .badMinor

noncomputable def decode35 (f : FieldsA) : Except DecodeError Instr :=
  let q := f.q == 0#3
  let za := f.a == 0#5
  let zb := f.b == 0#5
  match f.min.toNat with
  | 0 => accept q (.sethdl f.d f.a f.b)
  | 1 => accept (q && za) (.gethdl f.d f.b)
  | 2 => accept (q && za && zb) (.myid f.d)
  | 3 => accept (q && zb && f.a.toNat ≤ 7) (.gridq f.d (low3 f.a))
  | 4 => accept (q && zb && f.d == 0#5) (.ganghint f.a)
  | _ => .error .badMinor

/-- The barrier number, Q[0] followed by D (R26, R30). -/
def barNo (f : FieldsA) : BitVec 6 := BitVec.ofNat 6 (f.d.toNat + 32 * bit01 (bitAt f.q 0))

noncomputable def decode38 (f : FieldsA) : Except DecodeError Instr :=
  let q := f.q == 0#3
  let qb := f.q.toNat ≤ 1
  let zb := f.b == 0#5
  let s := q && zb && f.a.toNat ≤ 15
  match f.min.toNat with
  | 0 => accept (qb && zb) (.barinit (barNo f) f.a)
  | 1 => accept (qb && zb) (.bararr (barNo f) f.a)
  | 2 => accept (qb && zb && f.a == 0#5) (.barwait (barNo f))
  | 3 => accept (s && f.d == 0#5) (.semup (low4 f.a))
  | 4 => accept (s && f.d == 0#5) (.semdn (low4 f.a))
  | 5 => accept s (.semtry f.d (low4 f.a))
  | 6 => accept (q && zb && f.a.toNat ≤ 7) (.qstat f.d (low3 f.a))
  | _ => .error .badMinor

noncomputable def decode39 (f : FieldsA) : Except DecodeError Instr :=
  let q := f.q == 0#3 && f.b == 0#5
  match f.min.toNat with
  | 0 => accept (q && f.d.toNat ≤ 7) (.evcfg (low3 f.d) f.a)
  | 1 => accept (q && f.d == 0#5 && f.a.toNat ≤ 15) (.evpulse (low4 f.a))
  | 2 => accept (q && f.a.toNat ≤ 15) (.evread f.d (low4 f.a))
  | _ => .error .badMinor

def num10 (lo hi : Reg) : BitVec 10 := BitVec.ofNat 10 (lo.toNat + 32 * hi.toNat)

noncomputable def decode3A (f : FieldsA) : Except DecodeError Instr :=
  let q := f.q == 0#3
  let zd := f.d == 0#5
  let zab := f.a == 0#5 && f.b == 0#5
  match f.min.toNat with
  | 0 => accept q (.srd f.d (num10 f.a f.b))
  | 1 => accept q (.swr (num10 f.d f.b) f.a)
  | 2 => accept (q && zab) (.tstamp f.d)
  | 3 => accept (q && zab) (.cstamp f.d)
  | 4 => accept (q && zd) (.trap (num10 f.a f.b))
  | 5 => accept (q && zd && zab) .rft
  | 6 => accept (q && zd) (.brk (num10 f.a f.b))
  | 7 => accept (q && zd && zab) .sigchk
  | 8 => accept (q && zd && zab) .nop
  | _ => .error .badMinor

/-- Stage two (R39): the instruction that fields name, or why there is none. -/
noncomputable def ofFields : Fields → Except DecodeError Instr
  | .a maj f => match maj.toNat with
    | 0x01 => decode01 f | 0x03 => decode03 f | 0x04 => decode04 f | 0x08 => decode08 f
    | 0x13 => decode13 f | 0x14 => decode14 f | 0x18 => decode18 f | 0x1A => decode1A f
    | 0x1D => decode1D f | 0x2D => decode2D f | 0x2E => decode2E f | 0x34 => decode34 f
    | 0x35 => decode35 f | 0x38 => decode38 f | 0x39 => decode39 f | 0x3A => decode3A f
    | _ => .error .badMajor
  | .aLit maj f l => match maj.toNat with
    | 0x01 => decode01Lit f l | 0x03 => decode03Lit f l | _ => .error .badMajor
  | .i maj f => decodeI maj.toNat f
  | .iLit maj f l => decodeILit maj.toNat f l
  | .b maj f => decodeB maj.toNat f
  | .j maj f => decodeJ maj.toNat f
  | .v maj f => decodeV maj.toNat f
  | .x maj f w1 w2 => match maj.toNat with
    | 0x12 => decode12 f w1 w2 | 0x18 => decode18X f w1 w2 | 0x1A => decode1AX f w1 w2
    | 0x1C => decode1C f w1 w2 | 0x24 => decode24X f w1 w2 | 0x2C => decode2C f w1 w2
    | 0x34 => decode34X f w1 w2 | _ => .error .badMajor
  | .xLit maj f w1 w2 l => match maj.toNat with
    | 0x2C => decode2CLit f w1 w2 l | _ => .error .badMajor

/-- The instruction that words begin with. -/
noncomputable def decodeWords (ws : List W32) : Except DecodeError Instr :=
  match splitWords ws with | .ok f => ofFields f | .error e => .error e

/-- The little-endian words of a byte list, as far as whole words go. -/
def wordsOf : List Byte → List W32
  | b0 :: b1 :: b2 :: b3 :: r => BitVec.ofNat 32 (leNat [b0, b1, b2, b3]) :: wordsOf r
  | _ => []

/-- Decoding is total on any bytes: an instruction with the bytes after it, or the reason there is none. -/
noncomputable def decode (bs : List Byte) : Except DecodeError (Instr × List Byte) :=
  let ws := wordsOf bs
  match decodeWords ws with
  | .error e => .error e
  | .ok i => match ws with
    | w0 :: _ => .ok (i, bs.drop (4 * lenWords (field w0 0 2 : BitVec 2).toNat))
    | [] => .error .truncated

/-! Encoding: the same tables read the other way. -/

/-- The word whose fields, each given by its value and lowest bit, are these, and zero elsewhere. -/
def word32 (fs : List (Nat × Nat)) : W32 := BitVec.ofNat 32 (fs.foldl (fun w f => w + f.1 * 2 ^ f.2) 0)
def fpQ (p : Bool) (r : Nat) : BitVec 3 := .ofNat 3 (bit01 p + 2 * r)
def ordQ (o : Order) (w : Bool) : BitVec 3 := .ofNat 3 (o.code + 4 * bit01 w)
def copyQ (t : CopyTags) (out : Bool) : BitVec 3 := .ofNat 3 (t.q.toNat + 4 * bit01 out)
def copyWord (t : CopyTags) : W32 :=
  word32 [(t.bar.toNat, 0), (bit01 t.barV, 6), (t.sem.toNat, 7), (bit01 t.semV, 11), (t.ev.toNat, 12), (bit01 t.evV, 16)]
def maskMe (m : Option Mask) : BitVec 1 := match m with | some _ => 1#1 | none => 0#1
def maskMp (m : Option Mask) : BitVec 1 := match m with | some k => .ofNat 1 (bit01 k.agnostic) | none => 0#1
def maskMr (m : Option Mask) : BitVec 2 := match m with | some k => k.reg | none => 0#2
def maskMe0 (m : Option (BitVec 2)) : BitVec 1 := match m with | some _ => 1#1 | none => 0#1
def maskMr0 (m : Option (BitVec 2)) : BitVec 2 := match m with | some k => k | none => 0#2
/-- ME, MP and MR in consecutive bits (R32, R36). -/
def maskCode (m : Option Mask) : Nat :=
  match m with | some k => 1 + 2 * bit01 k.agnostic + 4 * k.reg.toNat | none => 0
def regCode (r : Option Reg) : Nat := match r with | some r => r.toNat | none => 0
def mWord1 (t : MTags) (k16 : Nat) : W32 :=
  word32 [(k16, 0), (t.id.toNat, 6), (t.p0.toNat, 12), (t.p1.toNat, 18)]
def mWord2 (t : MTags) (rest : Nat) : W32 :=
  word32 [(t.ev.toNat, 0), (bit01 t.evV, 4), (t.sem.toNat, 5), (bit01 t.semV, 9), (rest, 0)]
def mmaFields (x : MmaArgs) (min : BitVec 6) : FieldsA :=
  ⟨.ofNat 3 (bit01 x.ra.isSome + 2 * bit01 x.rb.isSome), min, x.b, x.a, .ofNat 5 x.acc.toNat⟩
def mmaWord1 (x : MmaArgs) : W32 := mWord1 x.tags x.k16.toNat
def mmaWord2 (x : MmaArgs) : W32 :=
  mWord2 x.tags (regCode x.ra * 2 ^ 10 + regCode x.rb * 2 ^ 15 + bit01 x.za * 2 ^ 20)
def mmasLit (y : MmasArgs) : W64 :=
  .ofNat 64 (y.sa.toNat + y.sb.toNat * 2 ^ 5 + y.ta.toNat * 2 ^ 10 + y.tb.toNat * 2 ^ 15 + y.bs.code * 2 ^ 20)

/-- The fields of an instruction; an event has none. -/
def toFields : Instr → Option Fields
  | .add d a b => some (.a 0x01#6 ⟨0#3, 0#6, b, a, d⟩)
  | .addLiteral d a l => some (.aLit 0x01#6 ⟨0#3, 0#6, 0#5, a, d⟩ l)
  | .sub d a b => some (.a 0x01#6 ⟨0#3, 1#6, b, a, d⟩)
  | .subLiteral d a l => some (.aLit 0x01#6 ⟨0#3, 1#6, 0#5, a, d⟩ l)
  | .and d a b => some (.a 0x01#6 ⟨0#3, 2#6, b, a, d⟩)
  | .andLiteral d a l => some (.aLit 0x01#6 ⟨0#3, 2#6, 0#5, a, d⟩ l)
  | .or d a b => some (.a 0x01#6 ⟨0#3, 3#6, b, a, d⟩)
  | .orLiteral d a l => some (.aLit 0x01#6 ⟨0#3, 3#6, 0#5, a, d⟩ l)
  | .xor d a b => some (.a 0x01#6 ⟨0#3, 4#6, b, a, d⟩)
  | .xorLiteral d a l => some (.aLit 0x01#6 ⟨0#3, 4#6, 0#5, a, d⟩ l)
  | .shl d a b => some (.a 0x01#6 ⟨0#3, 5#6, b, a, d⟩)
  | .shlLiteral d a l => some (.aLit 0x01#6 ⟨0#3, 5#6, 0#5, a, d⟩ l)
  | .shr d a b => some (.a 0x01#6 ⟨0#3, 6#6, b, a, d⟩)
  | .shrLiteral d a l => some (.aLit 0x01#6 ⟨0#3, 6#6, 0#5, a, d⟩ l)
  | .sar d a b => some (.a 0x01#6 ⟨0#3, 7#6, b, a, d⟩)
  | .sarLiteral d a l => some (.aLit 0x01#6 ⟨0#3, 7#6, 0#5, a, d⟩ l)
  | .mul d a b => some (.a 0x01#6 ⟨0#3, 8#6, b, a, d⟩)
  | .mulLiteral d a l => some (.aLit 0x01#6 ⟨0#3, 8#6, 0#5, a, d⟩ l)
  | .mulhS d a b => some (.a 0x01#6 ⟨0#3, 9#6, b, a, d⟩)
  | .mulhSLiteral d a l => some (.aLit 0x01#6 ⟨0#3, 9#6, 0#5, a, d⟩ l)
  | .mulhN d a b => some (.a 0x01#6 ⟨0#3, 10#6, b, a, d⟩)
  | .mulhNLiteral d a l => some (.aLit 0x01#6 ⟨0#3, 10#6, 0#5, a, d⟩ l)
  | .divS d a b => some (.a 0x01#6 ⟨0#3, 11#6, b, a, d⟩)
  | .divSLiteral d a l => some (.aLit 0x01#6 ⟨0#3, 11#6, 0#5, a, d⟩ l)
  | .divN d a b => some (.a 0x01#6 ⟨0#3, 12#6, b, a, d⟩)
  | .divNLiteral d a l => some (.aLit 0x01#6 ⟨0#3, 12#6, 0#5, a, d⟩ l)
  | .remS d a b => some (.a 0x01#6 ⟨0#3, 13#6, b, a, d⟩)
  | .remSLiteral d a l => some (.aLit 0x01#6 ⟨0#3, 13#6, 0#5, a, d⟩ l)
  | .remN d a b => some (.a 0x01#6 ⟨0#3, 14#6, b, a, d⟩)
  | .remNLiteral d a l => some (.aLit 0x01#6 ⟨0#3, 14#6, 0#5, a, d⟩ l)
  | .minS d a b => some (.a 0x01#6 ⟨0#3, 15#6, b, a, d⟩)
  | .minSLiteral d a l => some (.aLit 0x01#6 ⟨0#3, 15#6, 0#5, a, d⟩ l)
  | .minN d a b => some (.a 0x01#6 ⟨0#3, 16#6, b, a, d⟩)
  | .minNLiteral d a l => some (.aLit 0x01#6 ⟨0#3, 16#6, 0#5, a, d⟩ l)
  | .maxS d a b => some (.a 0x01#6 ⟨0#3, 17#6, b, a, d⟩)
  | .maxSLiteral d a l => some (.aLit 0x01#6 ⟨0#3, 17#6, 0#5, a, d⟩ l)
  | .maxN d a b => some (.a 0x01#6 ⟨0#3, 18#6, b, a, d⟩)
  | .maxNLiteral d a l => some (.aLit 0x01#6 ⟨0#3, 18#6, 0#5, a, d⟩ l)
  | .clz d a => some (.a 0x01#6 ⟨0#3, 19#6, 0#5, a, d⟩)
  | .ctz d a => some (.a 0x01#6 ⟨0#3, 20#6, 0#5, a, d⟩)
  | .popc d a => some (.a 0x01#6 ⟨0#3, 21#6, 0#5, a, d⟩)
  | .sel d a b => some (.a 0x01#6 ⟨0#3, 22#6, b, a, d⟩)
  | .selLiteral d a l => some (.aLit 0x01#6 ⟨0#3, 22#6, 0#5, a, d⟩ l)
  | .mov d a => some (.a 0x01#6 ⟨0#3, 23#6, 0#5, a, d⟩)
  | .cmp c d a b => some (.a 0x01#6 ⟨.ofNat 3 c.code, 24#6, b, a, d⟩)
  | .cmpLiteral c d a l => some (.aLit 0x01#6 ⟨.ofNat 3 c.code, 24#6, 0#5, a, d⟩ l)
  | .addi d a i => some (.i 0x02#6 ⟨i, 0#3, a, d⟩)
  | .addiLiteral d a l => some (.iLit 0x02#6 ⟨0#11, 0#3, a, d⟩ l)
  | .andi d a i => some (.i 0x02#6 ⟨i, 1#3, a, d⟩)
  | .andiLiteral d a l => some (.iLit 0x02#6 ⟨0#11, 1#3, a, d⟩ l)
  | .ori d a i => some (.i 0x02#6 ⟨i, 2#3, a, d⟩)
  | .oriLiteral d a l => some (.iLit 0x02#6 ⟨0#11, 2#3, a, d⟩ l)
  | .xori d a i => some (.i 0x02#6 ⟨i, 3#3, a, d⟩)
  | .xoriLiteral d a l => some (.iLit 0x02#6 ⟨0#11, 3#3, a, d⟩ l)
  | .shli d a i => some (.i 0x02#6 ⟨i, 4#3, a, d⟩)
  | .shliLiteral d a l => some (.iLit 0x02#6 ⟨0#11, 4#3, a, d⟩ l)
  | .shri d a i => some (.i 0x02#6 ⟨i, 5#3, a, d⟩)
  | .shriLiteral d a l => some (.iLit 0x02#6 ⟨0#11, 5#3, a, d⟩ l)
  | .sari d a i => some (.i 0x02#6 ⟨i, 6#3, a, d⟩)
  | .sariLiteral d a l => some (.iLit 0x02#6 ⟨0#11, 6#3, a, d⟩ l)
  | .li d i => some (.i 0x02#6 ⟨i, 7#3, 0#5, d⟩)
  | .liLiteral d l => some (.iLit 0x02#6 ⟨0#11, 7#3, 0#5, d⟩ l)
  | .fadd p r d a b => some (.a 0x03#6 ⟨(fpQ p r.code), 0#6, b, a, d⟩)
  | .faddLiteral p r d a l => some (.aLit 0x03#6 ⟨(fpQ p r.code), 0#6, 0#5, a, d⟩ l)
  | .fsub p r d a b => some (.a 0x03#6 ⟨(fpQ p r.code), 1#6, b, a, d⟩)
  | .fsubLiteral p r d a l => some (.aLit 0x03#6 ⟨(fpQ p r.code), 1#6, 0#5, a, d⟩ l)
  | .fmul p r d a b => some (.a 0x03#6 ⟨(fpQ p r.code), 2#6, b, a, d⟩)
  | .fmulLiteral p r d a l => some (.aLit 0x03#6 ⟨(fpQ p r.code), 2#6, 0#5, a, d⟩ l)
  | .ffma p r d a b => some (.a 0x03#6 ⟨(fpQ p r.code), 3#6, b, a, d⟩)
  | .ffmaLiteral p r d a l => some (.aLit 0x03#6 ⟨(fpQ p r.code), 3#6, 0#5, a, d⟩ l)
  | .fmin p d a b => some (.a 0x03#6 ⟨(fpQ p 0), 4#6, b, a, d⟩)
  | .fminLiteral p d a l => some (.aLit 0x03#6 ⟨(fpQ p 0), 4#6, 0#5, a, d⟩ l)
  | .fmax p d a b => some (.a 0x03#6 ⟨(fpQ p 0), 5#6, b, a, d⟩)
  | .fmaxLiteral p d a l => some (.aLit 0x03#6 ⟨(fpQ p 0), 5#6, 0#5, a, d⟩ l)
  | .fcmp p r d a b => some (.a 0x03#6 ⟨(fpQ p r.code), 6#6, b, a, d⟩)
  | .fcmpLiteral p r d a l => some (.aLit 0x03#6 ⟨(fpQ p r.code), 6#6, 0#5, a, d⟩ l)
  | .fcvt p r s d a => some (.a 0x03#6 ⟨(fpQ p r.code), 7#6, .ofNat 5 s.code, a, d⟩)
  | .fabs p d a => some (.a 0x03#6 ⟨(fpQ p 0), 8#6, 0#5, a, d⟩)
  | .fneg p d a => some (.a 0x03#6 ⟨(fpQ p 0), 9#6, 0#5, a, d⟩)
  | .csetb d a b => some (.a 0x04#6 ⟨0#3, 0#6, b, a, d⟩)
  | .csetp d a b => some (.a 0x04#6 ⟨0#3, 1#6, b, a, d⟩)
  | .cinc d a b => some (.a 0x04#6 ⟨0#3, 2#6, b, a, d⟩)
  | .cgetb d a => some (.a 0x04#6 ⟨0#3, 3#6, 0#5, a, d⟩)
  | .cgetl d a => some (.a 0x04#6 ⟨0#3, 4#6, 0#5, a, d⟩)
  | .cgetp d a => some (.a 0x04#6 ⟨0#3, 5#6, 0#5, a, d⟩)
  | .cclr d a => some (.a 0x04#6 ⟨0#3, 6#6, 0#5, a, d⟩)
  | .ctest d a b => some (.a 0x04#6 ⟨0#3, 7#6, b, a, d⟩)
  | .beq h o a b => some (.b 0x05#6 ⟨o, .ofNat 2 h.code, 0#3, b, a⟩)
  | .bne h o a b => some (.b 0x05#6 ⟨o, .ofNat 2 h.code, 1#3, b, a⟩)
  | .bltS h o a b => some (.b 0x05#6 ⟨o, .ofNat 2 h.code, 2#3, b, a⟩)
  | .bgeS h o a b => some (.b 0x05#6 ⟨o, .ofNat 2 h.code, 3#3, b, a⟩)
  | .bltN h o a b => some (.b 0x05#6 ⟨o, .ofNat 2 h.code, 4#3, b, a⟩)
  | .bgeN h o a b => some (.b 0x05#6 ⟨o, .ofNat 2 h.code, 5#3, b, a⟩)
  | .bz h o a => some (.b 0x05#6 ⟨o, .ofNat 2 h.code, 6#3, 0#5, a⟩)
  | .bnz h o a => some (.b 0x05#6 ⟨o, .ofNat 2 h.code, 7#3, 0#5, a⟩)
  | .b t o => some (.j 0x06#6 ⟨o, .ofNat 2 (bit01 t)⟩)
  | .call t o => some (.j 0x07#6 ⟨o, .ofNat 2 (bit01 t)⟩)
  | .ret => some (.a 0x08#6 ⟨0#3, 0#6, 0#5, 0#5, 0#5⟩)
  | .jr a => some (.a 0x08#6 ⟨0#3, 1#6, 0#5, a, 0#5⟩)
  | .callr a => some (.a 0x08#6 ⟨0#3, 2#6, 0#5, a, 0#5⟩)
  | .loop h o a => some (.b 0x09#6 ⟨o, .ofNat 2 h.code, 0#3, 0#5, a⟩)
  | .ld8N d a i => some (.i 0x10#6 ⟨i, 0#3, a, d⟩)
  | .ld8NLiteral d a l => some (.iLit 0x10#6 ⟨0#11, 0#3, a, d⟩ l)
  | .ld8S d a i => some (.i 0x10#6 ⟨i, 1#3, a, d⟩)
  | .ld8SLiteral d a l => some (.iLit 0x10#6 ⟨0#11, 1#3, a, d⟩ l)
  | .ld16N d a i => some (.i 0x10#6 ⟨i, 2#3, a, d⟩)
  | .ld16NLiteral d a l => some (.iLit 0x10#6 ⟨0#11, 2#3, a, d⟩ l)
  | .ld16S d a i => some (.i 0x10#6 ⟨i, 3#3, a, d⟩)
  | .ld16SLiteral d a l => some (.iLit 0x10#6 ⟨0#11, 3#3, a, d⟩ l)
  | .ld32N d a i => some (.i 0x10#6 ⟨i, 4#3, a, d⟩)
  | .ld32NLiteral d a l => some (.iLit 0x10#6 ⟨0#11, 4#3, a, d⟩ l)
  | .ld32S d a i => some (.i 0x10#6 ⟨i, 5#3, a, d⟩)
  | .ld32SLiteral d a l => some (.iLit 0x10#6 ⟨0#11, 5#3, a, d⟩ l)
  | .ld64 d a i => some (.i 0x10#6 ⟨i, 6#3, a, d⟩)
  | .ld64Literal d a l => some (.iLit 0x10#6 ⟨0#11, 6#3, a, d⟩ l)
  | .ldc d a i => some (.i 0x10#6 ⟨i, 7#3, a, d⟩)
  | .ldcLiteral d a l => some (.iLit 0x10#6 ⟨0#11, 7#3, a, d⟩ l)
  | .st8 d a i => some (.i 0x11#6 ⟨i, 0#3, a, d⟩)
  | .st8Literal d a l => some (.iLit 0x11#6 ⟨0#11, 0#3, a, d⟩ l)
  | .st16 d a i => some (.i 0x11#6 ⟨i, 1#3, a, d⟩)
  | .st16Literal d a l => some (.iLit 0x11#6 ⟨0#11, 1#3, a, d⟩ l)
  | .st32 d a i => some (.i 0x11#6 ⟨i, 2#3, a, d⟩)
  | .st32Literal d a l => some (.iLit 0x11#6 ⟨0#11, 2#3, a, d⟩ l)
  | .st64 d a i => some (.i 0x11#6 ⟨i, 3#3, a, d⟩)
  | .st64Literal d a l => some (.iLit 0x11#6 ⟨0#11, 3#3, a, d⟩ l)
  | .stc d a i => some (.i 0x11#6 ⟨i, 4#3, a, d⟩)
  | .stcLiteral d a l => some (.iLit 0x11#6 ⟨0#11, 4#3, a, d⟩ l)
  | .ldv d a o tag m => some (.x 0x12#6 ⟨0#3, 0#6, 0#5, a, d⟩ o (word32 [(tag.toNat, 0), (maskCode m, 16)]))
  | .stv d a o m => some (.x 0x12#6 ⟨0#3, 1#6, 0#5, a, d⟩ o (word32 [(maskCode m, 16)]))
  | .ldvs d a b o tag e m =>
    some (.x 0x12#6 ⟨0#3, 2#6, b, a, d⟩ o (word32 [(tag.toNat, 0), (e.code, 8), (maskCode m, 16)]))
  | .stvs d a b o e m => some (.x 0x12#6 ⟨0#3, 3#6, b, a, d⟩ o (word32 [(e.code, 8), (maskCode m, 16)]))
  | .ldvg d a v o tag e m =>
    some (.x 0x12#6 ⟨0#3, 4#6, 0#5, a, d⟩ o (word32 [(tag.toNat, 0), (e.code, 8), (v.toNat, 11), (maskCode m, 16)]))
  | .stvg d a v o e m =>
    some (.x 0x12#6 ⟨0#3, 5#6, 0#5, a, d⟩ o (word32 [(e.code, 8), (v.toNat, 11), (maskCode m, 16)]))
  | .rel a => some (.a 0x13#6 ⟨0#3, 0#6, 0#5, a, 0#5⟩)
  | .acq a b => some (.a 0x13#6 ⟨0#3, 1#6, b, a, 0#5⟩)
  | .acqa => some (.a 0x13#6 ⟨0#3, 2#6, 0#5, 0#5, 0#5⟩)
  | .phase a => some (.a 0x13#6 ⟨0#3, 3#6, 0#5, a, 0#5⟩)
  | .pref a b => some (.a 0x13#6 ⟨0#3, 4#6, b, a, 0#5⟩)
  | .trailq d s => some (.a 0x13#6 ⟨0#3, 5#6, 0#5, .ofNat 5 s.toNat, d⟩)
  | .atomAdd o w d a b => some (.a 0x14#6 ⟨(ordQ o w), 0#6, b, a, d⟩)
  | .atomAnd o w d a b => some (.a 0x14#6 ⟨(ordQ o w), 1#6, b, a, d⟩)
  | .atomOr o w d a b => some (.a 0x14#6 ⟨(ordQ o w), 2#6, b, a, d⟩)
  | .atomXor o w d a b => some (.a 0x14#6 ⟨(ordQ o w), 3#6, b, a, d⟩)
  | .atomMinS o w d a b => some (.a 0x14#6 ⟨(ordQ o w), 4#6, b, a, d⟩)
  | .atomMinN o w d a b => some (.a 0x14#6 ⟨(ordQ o w), 5#6, b, a, d⟩)
  | .atomMaxS o w d a b => some (.a 0x14#6 ⟨(ordQ o w), 6#6, b, a, d⟩)
  | .atomMaxN o w d a b => some (.a 0x14#6 ⟨(ordQ o w), 7#6, b, a, d⟩)
  | .atomSwap o w d a b => some (.a 0x14#6 ⟨(ordQ o w), 8#6, b, a, d⟩)
  | .cas o w d a b => some (.a 0x14#6 ⟨(ordQ o w), 9#6, b, a, d⟩)
  | .cas2 o d a b => some (.a 0x14#6 ⟨(ordQ o false), 10#6, b, a, d⟩)
  | .atomfAdd o w d a b => some (.a 0x14#6 ⟨(ordQ o w), 11#6, b, a, d⟩)
  | .halloc h rows cols tag lv rt sh =>
    some (.x 0x18#6 ⟨0#3, 0#6, 0#5, 0#5, h⟩ (word32 [(rows.toNat, 0), (cols.toNat, 16)]) (word32 [(tag.toNat, 0), (lv.code, 8), (bit01 rt, 10), (bit01 sh, 11)]))
  | .hfree h => some (.a 0x18#6 ⟨0#3, 1#6, 0#5, h, 0#5⟩)
  | .hretain h k => some (.a 0x18#6 ⟨0#3, 2#6, .ofNat 5 (bit01 k), h, 0#5⟩)
  | .hquery d h s => some (.a 0x18#6 ⟨0#3, 3#6, .ofNat 5 s.toNat, h, d⟩)
  | .hexport h => some (.a 0x18#6 ⟨0#3, 4#6, 0#5, h, 0#5⟩)
  | .hunexport h => some (.a 0x18#6 ⟨0#3, 5#6, 0#5, h, 0#5⟩)
  | .hzero h => some (.a 0x18#6 ⟨0#3, 6#6, 0#5, h, 0#5⟩)
  | .hwait h => some (.a 0x18#6 ⟨0#3, 7#6, 0#5, h, 0#5⟩)
  | .ldh32 d h b => some (.a 0x1A#6 ⟨0#3, 0#6, b, h, d⟩)
  | .ldh64 d h b => some (.a 0x1A#6 ⟨0#3, 1#6, b, h, d⟩)
  | .sth32 d h b => some (.a 0x1A#6 ⟨0#3, 2#6, b, h, d⟩)
  | .sth64 d h b => some (.a 0x1A#6 ⟨0#3, 3#6, b, h, d⟩)
  | .ldhv d h b => some (.a 0x1A#6 ⟨0#3, 4#6, b, h, d⟩)
  | .sthv d h b => some (.a 0x1A#6 ⟨0#3, 5#6, b, h, d⟩)
  | .hatom o w op d h b => some (.x 0x1A#6 ⟨(ordQ o w), 6#6, b, h, d⟩ 0#32 (word32 [(op.code, 5)]))
  | .hcas o w d h b c => some (.x 0x1A#6 ⟨(ordQ o w), 7#6, b, h, d⟩ 0#32 (word32 [(c.toNat, 0)]))
  | .hcasx o w d h b c v =>
    some (.x 0x1A#6 ⟨(ordQ o w), 8#6, b, h, d⟩ (word32 [(v.toNat, 0)]) (word32 [(c.toNat, 0)]))
  | .cpy t out h a b => some (.x 0x1C#6 ⟨(copyQ t out), 0#6, b, a, h⟩ (copyWord t) 0#32)
  | .cpys t out h a b r rb =>
    some (.x 0x1C#6 ⟨(copyQ t out), 1#6, b, a, h⟩ (copyWord t) (word32 [(r.toNat, 0), (rb.toNat, 16)]))
  | .cpyv t out h a b x y z =>
    some (.x 0x1C#6 ⟨(copyQ t out), 2#6, b, a, h⟩ (copyWord t) (word32 [(x.toNat, 0), (y.toNat, 4), (z.toNat, 8)]))
  | .cpyg t h a b n eb =>
    some (.x 0x1C#6 ⟨(copyQ t false), 3#6, b, a, h⟩ (copyWord t) (word32 [(n.toNat, 0), (eb.toNat, 16)]))
  | .cpym t h a n => some (.x 0x1C#6 ⟨(copyQ t false), 4#6, 0#5, a, h⟩ (copyWord t) (word32 [(n.toNat, 0)]))
  | .cshd t h a b => some (.x 0x1C#6 ⟨(copyQ t false), 5#6, b, a, h⟩ (copyWord t) 0#32)
  | .cpub t a => some (.x 0x1C#6 ⟨(copyQ t false), 6#6, 0#5, a, 0#5⟩ (copyWord t) 0#32)
  | .cred t op h a b => some (.x 0x1C#6 ⟨(copyQ t false), 7#6, b, a, h⟩ (copyWord t) (word32 [(op.code, 0)]))
  | .barx t b => some (.x 0x1C#6 ⟨(copyQ t false), 8#6, b, 0#5, 0#5⟩ (copyWord t) 0#32)
  | .cwait k => some (.a 0x1D#6 ⟨0#3, 0#6, 0#5, .ofNat 5 k.toNat, 0#5⟩)
  | .cstat d k => some (.a 0x1D#6 ⟨0#3, 1#6, 0#5, .ofNat 5 k.toNat, d⟩)
  | .ccancel k => some (.a 0x1D#6 ⟨0#3, 2#6, 0#5, .ofNat 5 k.toNat, 0#5⟩)
  | .vadd m d a b => some (.v 0x20#6 ⟨maskMr m, maskMp m, maskMe m, 0#5, b, a, d⟩)
  | .vsub m d a b => some (.v 0x20#6 ⟨maskMr m, maskMp m, maskMe m, 1#5, b, a, d⟩)
  | .vmul m d a b => some (.v 0x20#6 ⟨maskMr m, maskMp m, maskMe m, 2#5, b, a, d⟩)
  | .vfma m d a b => some (.v 0x20#6 ⟨maskMr m, maskMp m, maskMe m, 3#5, b, a, d⟩)
  | .vfms m d a b => some (.v 0x20#6 ⟨maskMr m, maskMp m, maskMe m, 4#5, b, a, d⟩)
  | .vmin m d a b => some (.v 0x20#6 ⟨maskMr m, maskMp m, maskMe m, 5#5, b, a, d⟩)
  | .vmax m d a b => some (.v 0x20#6 ⟨maskMr m, maskMp m, maskMe m, 6#5, b, a, d⟩)
  | .vdiv m d a b => some (.v 0x20#6 ⟨maskMr m, maskMp m, maskMe m, 7#5, b, a, d⟩)
  | .vsqrt m d a => some (.v 0x20#6 ⟨maskMr m, maskMp m, maskMe m, 8#5, 0#5, a, d⟩)
  | .vrcp m d a => some (.v 0x20#6 ⟨maskMr m, maskMp m, maskMe m, 9#5, 0#5, a, d⟩)
  | .vrsq m d a => some (.v 0x20#6 ⟨maskMr m, maskMp m, maskMe m, 10#5, 0#5, a, d⟩)
  | .vexp2 m d a => some (.v 0x20#6 ⟨maskMr m, maskMp m, maskMe m, 11#5, 0#5, a, d⟩)
  | .vlog2 m d a => some (.v 0x20#6 ⟨maskMr m, maskMp m, maskMe m, 12#5, 0#5, a, d⟩)
  | .vabs m d a => some (.v 0x20#6 ⟨maskMr m, maskMp m, maskMe m, 13#5, 0#5, a, d⟩)
  | .vneg m d a => some (.v 0x20#6 ⟨maskMr m, maskMp m, maskMe m, 14#5, 0#5, a, d⟩)
  | .vand m d a b => some (.v 0x21#6 ⟨maskMr m, maskMp m, maskMe m, 0#5, b, a, d⟩)
  | .vor m d a b => some (.v 0x21#6 ⟨maskMr m, maskMp m, maskMe m, 1#5, b, a, d⟩)
  | .vxor m d a b => some (.v 0x21#6 ⟨maskMr m, maskMp m, maskMe m, 2#5, b, a, d⟩)
  | .vnot m d a => some (.v 0x21#6 ⟨maskMr m, maskMp m, maskMe m, 3#5, 0#5, a, d⟩)
  | .vshl m d a b => some (.v 0x21#6 ⟨maskMr m, maskMp m, maskMe m, 4#5, b, a, d⟩)
  | .vshr m d a b => some (.v 0x21#6 ⟨maskMr m, maskMp m, maskMe m, 5#5, b, a, d⟩)
  | .vsar m d a b => some (.v 0x21#6 ⟨maskMr m, maskMp m, maskMe m, 6#5, b, a, d⟩)
  | .vpopc m d a => some (.v 0x21#6 ⟨maskMr m, maskMp m, maskMe m, 7#5, 0#5, a, d⟩)
  | .vclz m d a => some (.v 0x21#6 ⟨maskMr m, maskMp m, maskMe m, 8#5, 0#5, a, d⟩)
  | .vcmpeq m d a b => some (.v 0x22#6 ⟨maskMr m, maskMp m, maskMe m, 0#5, b, a, d⟩)
  | .vcmpne m d a b => some (.v 0x22#6 ⟨maskMr m, maskMp m, maskMe m, 1#5, b, a, d⟩)
  | .vcmplt m d a b => some (.v 0x22#6 ⟨maskMr m, maskMp m, maskMe m, 2#5, b, a, d⟩)
  | .vcmple m d a b => some (.v 0x22#6 ⟨maskMr m, maskMp m, maskMe m, 3#5, b, a, d⟩)
  | .vcmpun m d a b => some (.v 0x22#6 ⟨maskMr m, maskMp m, maskMe m, 4#5, b, a, d⟩)
  | .vsel mr d a b => some (.v 0x22#6 ⟨mr, 0#1, 1#1, 5#5, b, a, d⟩)
  | .vmerge m d a b => some (.v 0x22#6 ⟨maskMr m, maskMp m, maskMe m, 6#5, b, a, d⟩)
  | .vpopm m d a => some (.v 0x22#6 ⟨maskMr0 m, 0#1, maskMe0 m, 7#5, 0#5, a, d⟩)
  | .vfirst m d a => some (.v 0x22#6 ⟨maskMr0 m, 0#1, maskMe0 m, 8#5, 0#5, a, d⟩)
  | .viota m d a k => some (.v 0x22#6 ⟨maskMr m, maskMp m, maskMe m, 9#5, .ofNat 5 k.toNat, a, d⟩)
  | .vmaskand m d a b => some (.v 0x22#6 ⟨maskMr m, maskMp m, maskMe m, 10#5, b, a, d⟩)
  | .vmaskor m d a b => some (.v 0x22#6 ⟨maskMr m, maskMp m, maskMe m, 11#5, b, a, d⟩)
  | .vmasknot m d a => some (.v 0x22#6 ⟨maskMr m, maskMp m, maskMe m, 12#5, 0#5, a, d⟩)
  | .vshuf m d a b => some (.v 0x23#6 ⟨maskMr m, maskMp m, maskMe m, 0#5, b, a, d⟩)
  | .vrot m d a b => some (.v 0x23#6 ⟨maskMr m, maskMp m, maskMe m, 1#5, b, a, d⟩)
  | .vbcast m d a => some (.v 0x23#6 ⟨maskMr m, maskMp m, maskMe m, 2#5, 0#5, a, d⟩)
  | .vext d a b => some (.v 0x23#6 ⟨0#2, 0#1, 0#1, 3#5, b, a, d⟩)
  | .vins d a b => some (.v 0x23#6 ⟨0#2, 0#1, 0#1, 4#5, b, a, d⟩)
  | .vredadd m d a b => some (.v 0x23#6 ⟨maskMr0 m, 0#1, maskMe0 m, 5#5, b, a, d⟩)
  | .vredmin m d a b => some (.v 0x23#6 ⟨maskMr0 m, 0#1, maskMe0 m, 6#5, b, a, d⟩)
  | .vredmax m d a b => some (.v 0x23#6 ⟨maskMr0 m, 0#1, maskMe0 m, 7#5, b, a, d⟩)
  | .vscan m d a => some (.v 0x23#6 ⟨maskMr m, maskMp m, maskMe m, 8#5, 0#5, a, d⟩)
  | .vmov m d a => some (.v 0x23#6 ⟨maskMr m, maskMp m, maskMe m, 9#5, 0#5, a, d⟩)
  | .vslide m d a b => some (.v 0x23#6 ⟨maskMr m, maskMp m, maskMe m, 10#5, b, a, d⟩)
  | .vcvt tag r s m d a =>
    some (.x 0x24#6 ⟨0#3, 0#6, 0#5, a, d⟩ (word32 [(tag.toNat, 0), (r.code, 8), (bit01 s, 11), (maskCode m, 12)]) 0#32)
  | .vpack tag r s m d a b =>
    some (.x 0x24#6 ⟨0#3, 1#6, b, a, d⟩ (word32 [(tag.toNat, 0), (r.code, 8), (bit01 s, 11), (maskCode m, 12)]) 0#32)
  | .vunpk tag r s m d a =>
    some (.x 0x24#6 ⟨0#3, 2#6, 0#5, a, d⟩ (word32 [(tag.toNat, 0), (r.code, 8), (bit01 s, 11), (maskCode m, 12)]) 0#32)
  | .vsat tag m d a => some (.x 0x24#6 ⟨0#3, 3#6, 0#5, a, d⟩ (word32 [(tag.toNat, 0), (maskCode m, 12)]) 0#32)
  | .vtag tag d a => some (.x 0x24#6 ⟨0#3, 4#6, 0#5, a, d⟩ (word32 [(tag.toNat, 0)]) 0#32)
  | .vtagq d a => some (.v 0x24#6 ⟨0#2, 0#1, 0#1, 5#5, 0#5, a, d⟩)
  | .vdot m d a b => some (.v 0x24#6 ⟨maskMr m, maskMp m, maskMe m, 6#5, b, a, d⟩)
  | .mma x => some (.x 0x2C#6 (mmaFields x 0#6) (mmaWord1 x) (mmaWord2 x))
  | .mmas x y => some (.xLit 0x2C#6 (mmaFields x 1#6) (mmaWord1 x) (mmaWord2 x) (mmasLit y))
  | .mlda t c h => some (.x 0x2C#6 ⟨0#3, 2#6, 0#5, h, .ofNat 5 c.toNat⟩ (mWord1 t 0) (mWord2 t 0))
  | .msta t h c => some (.x 0x2C#6 ⟨0#3, 3#6, 0#5, .ofNat 5 c.toNat, h⟩ (mWord1 t 0) (mWord2 t 0))
  | .mzero t c => some (.x 0x2C#6 ⟨0#3, 4#6, 0#5, 0#5, .ofNat 5 c.toNat⟩ (mWord1 t 0) (mWord2 t 0))
  | .mtrn t d h => some (.x 0x2C#6 ⟨0#3, 5#6, 0#5, h, d⟩ (mWord1 t 0) (mWord2 t 0))
  | .mcvt t r s h c =>
    some (.x 0x2C#6 ⟨0#3, 6#6, 0#5, .ofNat 5 c.toNat, h⟩ (mWord1 t 0) (mWord2 t (r.code * 2 ^ 21 + bit01 s * 2 ^ 24)))
  | .mwait k => some (.a 0x2D#6 ⟨0#3, 0#6, .ofNat 5 (k.toNat / 32), field k 0 5, 0#5⟩)
  | .mcons k => some (.a 0x2D#6 ⟨0#3, 1#6, .ofNat 5 (k.toNat / 32), field k 0 5, 0#5⟩)
  | .mspill c s => some (.a 0x2D#6 ⟨0#3, 2#6, .ofNat 5 s.toNat, .ofNat 5 c.toNat, 0#5⟩)
  | .mfill c s => some (.a 0x2D#6 ⟨0#3, 3#6, .ofNat 5 s.toNat, .ofNat 5 c.toNat, 0#5⟩)
  | .licreq => some (.a 0x2D#6 ⟨0#3, 4#6, 0#5, 0#5, 0#5⟩)
  | .licrel => some (.a 0x2D#6 ⟨0#3, 5#6, 0#5, 0#5, 0#5⟩)
  | .licq d => some (.a 0x2D#6 ⟨0#3, 6#6, 0#5, 0#5, d⟩)
  | .accq d s => some (.a 0x2D#6 ⟨0#3, 7#6, 0#5, .ofNat 5 s.toNat, d⟩)
  | .fmtset f a => some (.a 0x2E#6 ⟨0#3, 0#6, 0#5, a, .ofNat 5 f.toNat⟩)
  | .fmtget d f => some (.a 0x2E#6 ⟨0#3, 1#6, 0#5, .ofNat 5 f.toNat, d⟩)
  | .send r a b hdl n =>
    some (.x 0x34#6 ⟨(.ofNat 3 (2 * bit01 r)), 0#6, b, a, 0#5⟩ (word32 [(hdl.toNat, 0), (n.toNat, 8)]) 0#32)
  | .sendh r a b hdl n h =>
    some (.x 0x34#6 ⟨(.ofNat 3 (2 * bit01 r)), 1#6, b, a, 0#5⟩ (word32 [(hdl.toNat, 0), (n.toNat, 8)]) (word32 [(h.toNat, 0)]))
  | .spawn a b hdl n => some (.x 0x34#6 ⟨0#3, 2#6, b, a, 0#5⟩ (word32 [(hdl.toNat, 0), (n.toNat, 8)]) 0#32)
  | .fork a b o n => some (.x 0x34#6 ⟨0#3, 3#6, b, a, 0#5⟩ o (word32 [(n.toNat, 0)]))
  | .join a b => some (.a 0x34#6 ⟨0#3, 4#6, b, a, 0#5⟩)
  | .launch a b hdl => some (.x 0x34#6 ⟨0#3, 5#6, b, a, 0#5⟩ (word32 [(hdl.toNat, 0)]) 0#32)
  | .halt => some (.a 0x34#6 ⟨0#3, 6#6, 0#5, 0#5, 0#5⟩)
  | .yield => some (.a 0x34#6 ⟨0#3, 7#6, 0#5, 0#5, 0#5⟩)
  | .sethdl d a b => some (.a 0x35#6 ⟨0#3, 0#6, b, a, d⟩)
  | .gethdl d b => some (.a 0x35#6 ⟨0#3, 1#6, b, 0#5, d⟩)
  | .myid d => some (.a 0x35#6 ⟨0#3, 2#6, 0#5, 0#5, d⟩)
  | .gridq d s => some (.a 0x35#6 ⟨0#3, 3#6, 0#5, .ofNat 5 s.toNat, d⟩)
  | .ganghint a => some (.a 0x35#6 ⟨0#3, 4#6, 0#5, a, 0#5⟩)
  | .barinit n a => some (.a 0x38#6 ⟨.ofNat 3 (n.toNat / 32), 0#6, 0#5, a, field n 0 5⟩)
  | .bararr n a => some (.a 0x38#6 ⟨.ofNat 3 (n.toNat / 32), 1#6, 0#5, a, field n 0 5⟩)
  | .barwait n => some (.a 0x38#6 ⟨.ofNat 3 (n.toNat / 32), 2#6, 0#5, 0#5, field n 0 5⟩)
  | .semup s => some (.a 0x38#6 ⟨0#3, 3#6, 0#5, .ofNat 5 s.toNat, 0#5⟩)
  | .semdn s => some (.a 0x38#6 ⟨0#3, 4#6, 0#5, .ofNat 5 s.toNat, 0#5⟩)
  | .semtry d s => some (.a 0x38#6 ⟨0#3, 5#6, 0#5, .ofNat 5 s.toNat, d⟩)
  | .qstat d k => some (.a 0x38#6 ⟨0#3, 6#6, 0#5, .ofNat 5 k.toNat, d⟩)
  | .evcfg t a => some (.a 0x39#6 ⟨0#3, 0#6, 0#5, a, .ofNat 5 t.toNat⟩)
  | .evpulse k => some (.a 0x39#6 ⟨0#3, 1#6, 0#5, .ofNat 5 k.toNat, 0#5⟩)
  | .evread d k => some (.a 0x39#6 ⟨0#3, 2#6, 0#5, .ofNat 5 k.toNat, d⟩)
  | .srd d n => some (.a 0x3A#6 ⟨0#3, 0#6, field n 5 5, field n 0 5, d⟩)
  | .swr n a => some (.a 0x3A#6 ⟨0#3, 1#6, field n 5 5, a, field n 0 5⟩)
  | .tstamp d => some (.a 0x3A#6 ⟨0#3, 2#6, 0#5, 0#5, d⟩)
  | .cstamp d => some (.a 0x3A#6 ⟨0#3, 3#6, 0#5, 0#5, d⟩)
  | .trap k => some (.a 0x3A#6 ⟨0#3, 4#6, field k 5 5, field k 0 5, 0#5⟩)
  | .rft => some (.a 0x3A#6 ⟨0#3, 5#6, 0#5, 0#5, 0#5⟩)
  | .brk k => some (.a 0x3A#6 ⟨0#3, 6#6, field k 5 5, field k 0 5, 0#5⟩)
  | .sigchk => some (.a 0x3A#6 ⟨0#3, 7#6, 0#5, 0#5, 0#5⟩)
  | .nop => some (.a 0x3A#6 ⟨0#3, 8#6, 0#5, 0#5, 0#5⟩)
  | .moduleReset | .clusterSelfTestDone .. | .hostPortReady .. | .hbmStackReady .. | .kwelinkPortReady ..
  | .registerWrite .. | .loadRequest .. | .loadReply .. | .atsTranslationCompletion .. | .prgResponse ..
  | .atsInvalidateRequest .. | .invalidateVaRange .. | .invalidatePartition .. | .invalidationComplete ..
  | .resumePage .. | .writeTableEntry .. | .rimpartWrite .. | .pseudoChannelZero .. | .rimCommandIssue ..
  | .idlePrecharge .. | .refresh .. | .scrub .. | .trailSpill .. | .trailRefill .. | .trailStallEnd ..
  | .sliceNotice .. | .noticeAcceptDelayed .. | .releaseReplies .. | .sliceCommit .. | .sliceWithdraw ..
  | .segmentPublished .. | .segmentFold .. | .frontierReduction .. | .shadowFinalise .. | .horizonBoundary ..
  | .pressureBoundary .. | .fpWaitComplete .. | .atomicEngineRequest .. | .atomicReply .. | .prefRequest ..
  | .flipNotice .. | .zeroFillComplete .. | .scoreboardStallEnd .. | .hcasxTarget .. | .hcasxReply ..
  | .copyAccept .. | .copyChunk .. | .chunkHold .. | .cpubFlipStart .. | .bankDrowsy .. | .debugVectorRead ..
  | .debugVectorWrite .. | .queuePush .. | .queuePop .. | .accownWrite .. | .matrixAccept ..
  | .reservationGrant .. | .matrixStep .. | .matrixRetire .. | .remoteOperandRequest .. | .licenceTransfer ..
  | .messageArrival .. | .messageReoffer .. | .messageAging .. | .coreDispatch .. | .stealBackoffEnd ..
  | .coreWake .. | .bucketRefill .. | .launchHelpStart .. | .launchHelpResume .. | .watchdog .. | .sliceEnd ..
  | .eventTermFire .. | .barrierArrival .. | .chairliftEvaluation .. | .gangSwapOut .. | .gangSwapIn ..
  | .lodgeDrain .. | .deferredTrap .. | .monitorTimeout .. | .kill .. | .restart .. | .duplexCompare ..
  | .detectedFault .. | .maskedFault .. | .drainReceipt .. | .viralClusterReset .. | .glideStart | .glideStage
  | .configurePartition .. | .addCluster .. | .removeCluster .. | .disablePartition .. | .resumeRegion ..
  | .endRegion .. | .addSwapFrames .. | .addShadowFrames .. | .bindVf .. | .unbindVf .. | .startRootRegion ..
  | .writeVfEnergy .. | .monitorStoreLoad .. | .meterSnapshot .. | .energyPeriodEnd .. | .lidEvent ..
  | .getVersion .. | .getCapabilities .. | .negotiateAlgorithms .. | .getDigests .. | .getCertificate ..
  | .challenge .. | .getMeasurements .. | .railSettingWrite .. | .clusterSwitchWrite .. | .droopAlarm ..
  | .stretchEnd .. | .halvedIssueEnd .. | .vectorUnitSleep .. | .vectorWakeRampEnd .. | .hqtailDoorbell ..
  | .hqEntryTake .. | .fenceComplete .. | .dqheadWrite .. | .hqbaseWrite .. | .dqbaseWrite .. | .hacq ..
  | .hacqComplete .. | .cxlMemRead .. | .cxlMemWrite .. | .routeVfKwelink .. | .unrouteVf ..
  | .kwelinkLaneLoss .. | .kwelinkRetrainDone .. | .kwelinkDown .. | .checkpoint | .restore
  | .physicalFunctionWrite .. | .placeRunQueueRecord .. | .regionShareWrite .. | .spdmSessionMessage ..
  | .hostPortLinkDown .. => none

def packA (maj : BitVec 6) (len : Nat) (f : FieldsA) : W32 :=
  .ofNat 32 (f.q.toNat * 2 ^ 29 + f.min.toNat * 2 ^ 23 + f.b.toNat * 2 ^ 18 + f.a.toNat * 2 ^ 13
    + f.d.toNat * 2 ^ 8 + maj.toNat * 4 + len)
def packI (maj : BitVec 6) (len : Nat) (f : FieldsI) : W32 :=
  .ofNat 32 (f.imm.toNat * 2 ^ 21 + f.min.toNat * 2 ^ 18 + f.a.toNat * 2 ^ 13 + f.d.toNat * 2 ^ 8
    + maj.toNat * 4 + len)
def packB (maj : BitVec 6) (f : FieldsB) : W32 :=
  .ofNat 32 (f.off.toNat * 2 ^ 23 + f.hint.toNat * 2 ^ 21 + f.cond.toNat * 2 ^ 18 + f.b.toNat * 2 ^ 13
    + f.a.toNat * 2 ^ 8 + maj.toNat * 4)
def packJ (maj : BitVec 6) (f : FieldsJ) : W32 :=
  .ofNat 32 (f.off.toNat * 2 ^ 10 + f.hint.toNat * 2 ^ 8 + maj.toNat * 4)
def packV (maj : BitVec 6) (f : FieldsV) : W32 :=
  .ofNat 32 (f.mr.toNat * 2 ^ 30 + f.mp.toNat * 2 ^ 29 + f.me.toNat * 2 ^ 28 + f.min.toNat * 2 ^ 23
    + f.b.toNat * 2 ^ 18 + f.a.toNat * 2 ^ 13 + f.d.toNat * 2 ^ 8 + maj.toNat * 4)
def litLo (l : W64) : W32 := field l 0 32
def litHi (l : W64) : W32 := field l 32 32

/-- The words of an instruction's fields (R23, R25). -/
def packFields : Fields → List W32
  | .a m f => [packA m 0 f]
  | .aLit m f l => [packA m 2 f, litLo l, litHi l]
  | .i m f => [packI m 0 f]
  | .iLit m f l => [packI m 2 f, litLo l, litHi l]
  | .b m f => [packB m f]
  | .j m f => [packJ m f]
  | .v m f => [packV m f]
  | .x m f w1 w2 => [packA m 1 f, w1, w2]
  | .xLit m f w1 w2 l => [packA m 3 f, w1, w2, litLo l, litHi l]

/-- The words of an instruction, word 0 first; an event has none. -/
def encode (i : Instr) : List W32 :=
  match toFields i with | some f => packFields f | none => []

/-- The bytes of an instruction as memory holds them (R4, R23). -/
def encodeBytes (i : Instr) : List Byte := (encode i).flatMap fun w => leBytes 4 w.toNat

/-- The instruction decode reads from the bits of opcode_table.json, the first word lowest: the bits above nbits
are zero, to the longest instruction's 20 bytes. -/
noncomputable def decodeTableWord (nbits w : Nat) : Option Instr :=
  match decode (leBytes 20 (w % 2 ^ nbits)) with | .ok (i, _) => some i | .error _ => none

end Sys2Proof
end

