-- ==== Sys2Proof/Machine/Number.lean ====
section
/-! DEFINITION. Numbers: formats (R238 to R245), exact values, rounding (R247 to R251), stochastic draws (R252) and
the order of sums (R255 to R257). Every operation is exact first and rounded once. -/

namespace Sys2Proof.Machine

open Sys2Proof

/-- Parameters of a floating format (R238): width, exponent bits, sign bits, bias, specials, subnormals kept,
saturating conversions in. -/
structure Fmt where
  w : Nat
  e : Nat
  s : Nat
  bias : Int
  spec : Nat
  sub : Bool
  satin : Bool
  deriving DecidableEq, Repr

/-- Mantissa bits M (R238). -/
def Fmt.m (f : Fmt) : Nat := f.w - f.s - f.e

def fp64 : Fmt := ⟨64, 11, 1, 1023, 0, true, false⟩
def fp32 : Fmt := ⟨32, 8, 1, 127, 0, true, false⟩
def bf16 : Fmt := ⟨16, 8, 1, 127, 0, true, false⟩
def fp16 : Fmt := ⟨16, 5, 1, 15, 0, true, false⟩
def e4m3 : Fmt := ⟨8, 4, 1, 7, 1, true, false⟩
def e5m2 : Fmt := ⟨8, 5, 1, 15, 0, true, false⟩
def e2m1 : Fmt := ⟨4, 2, 1, 1, 2, true, false⟩

/-- What a tag makes of bits (R245). -/
inductive Kind where
  | raw
  | float (f : Fmt) (arith : Bool)
  | scale
  | int (w : Nat) (signed : Bool)
  | mask
  deriving DecidableEq, Repr

/-- The format a format register's value describes, when it is valid (R243, R244). -/
def customFmt (v : W64) : Option Fmt :=
  let n := v.toNat
  let w := n % 16
  let e := n / 2 ^ 4 % 16
  let s := n / 2 ^ 8 % 2
  let spec := n / 2 ^ 24 % 4
  let bias : BitVec 8 := field v 16 8
  if 2 ≤ w && w ≤ 8 && 1 ≤ e && s + e ≤ w && spec != 3 && (spec != 0 || s + e < w)
      && n / 2 ^ 9 % 2 ^ 7 == 0 && n / 2 ^ 28 == 0 then
    some ⟨w, e, s, bias.toInt, spec, bitAt v 26, bitAt v 27⟩
  else none

/-- The kind a tag names, fr giving the issuing core's format registers (R245, R246); none for an undefined code
and for a custom tag whose register is invalid. -/
def kindOf (fr : List W64) (tag : Byte) : Option Kind :=
  match tag.toNat with
  | 0x00 => some .raw
  | 0x01 => some (.float fp32 true) | 0x02 => some (.float fp64 true)
  | 0x03 => some (.float bf16 true) | 0x04 => some (.float fp16 true)
  | 0x05 => some (.float e4m3 false) | 0x06 => some (.float e5m2 false)
  | 0x07 => some (.float e2m1 false) | 0x08 => some .scale
  | 0x10 => some (.int 8 true) | 0x11 => some (.int 8 false)
  | 0x12 => some (.int 16 true) | 0x13 => some (.int 16 false)
  | 0x14 => some (.int 32 true) | 0x15 => some (.int 32 false)
  | 0x16 => some (.int 64 true) | 0x17 => some (.int 64 false)
  | 0x18 => some (.int 4 true) | 0x19 => some (.int 4 false)
  | 0x40 => some .mask
  | n => if 0x20 ≤ n && n ≤ 0x27 then (customFmt (fr.getD (n - 0x20) 0#64)).map (Kind.float · false) else none

/-- Container bits of an element: a custom element of 2 to 4 bits takes 4, one of 5 to 8 takes 8 (R145, R259); raw
and mask are one element of 1,024. -/
def Kind.width : Kind → Nat
  | .raw => 1024
  | .float f _ => if f.w ≤ 4 then 4 else if f.w ≤ 8 then 8 else f.w
  | .scale => 8
  | .int w _ => w
  | .mask => 1024

/-- An exact number: NaN, an infinity, or (−1)^neg × m × 2^e. With more set the magnitude lies strictly between
m × 2^e and (m + 1) × 2^e, for a quotient, a root or a function value cut off there. -/
inductive Val where
  | nan
  | inf (neg : Bool)
  | fin (neg : Bool) (m : Nat) (e : Int) (more : Bool)
  deriving DecidableEq, Repr

def Val.zero (neg : Bool) : Val := .fin neg 0 0 false
def Val.ofInt (i : Int) : Val := .fin (decide (i < 0)) i.natAbs 0 false
def Val.isNan : Val → Bool | .nan => true | _ => false
def Val.isZero : Val → Bool | .fin _ m _ more => m == 0 && !more | _ => false
def Val.neg? : Val → Bool | .nan => false | .inf n => n | .fin n _ _ _ => n
def Val.negate : Val → Val | .nan => .nan | .inf n => .inf (!n) | .fin n m e s => .fin (!n) m e s
def Val.abs : Val → Val | .nan => .nan | .inf _ => .inf false | .fin _ m e s => .fin false m e s

/-- The value of a code (R239). -/
def decodeFloat (f : Fmt) (code : Nat) : Val :=
  let m := code % 2 ^ f.m
  let e := code / 2 ^ f.m % 2 ^ f.e
  let neg := f.s == 1 && code / 2 ^ (f.w - 1) % 2 == 1
  let top := 2 ^ f.e - 1
  if f.spec == 0 && e == top then (if m == 0 then .inf neg else .nan)
  else if f.spec == 1 && e == top && m == 2 ^ f.m - 1 then .nan
  else if e == 0 then
    if f.sub then .fin neg m (1 - f.bias - f.m) false else .zero neg
  else .fin neg (2 ^ f.m + m) (e - f.bias - f.m) false

/-- The value of an E8M0 code (R241). -/
def decodeScale (code : Nat) : Val :=
  if code % 256 == 255 then .nan else .fin false 1 ((code % 256 : Nat) - 127) false

/-- The integer of a w-bit element (R242). -/
def decodeInt (w : Nat) (signed : Bool) (code : Nat) : Int :=
  let c := code % 2 ^ w
  if signed && c ≥ 2 ^ (w - 1) then (c : Int) - 2 ^ w else c

/-- The exact value of an element code of a kind; raw and mask elements have none. -/
def Kind.value (k : Kind) (code : Nat) : Val :=
  match k with
  | .float f _ => decodeFloat f code
  | .scale => decodeScale code
  | .int w s => .ofInt (decodeInt w s code)
  | .raw => .nan
  | .mask => .nan

/-- Magnitude code of the largest finite value (R240, R244). Where R244's code has e = 0 and subnormals are clear its
value is 0 (R239), and its code is that of zero. -/
def Fmt.maxMag (f : Fmt) : Nat :=
  let top := match f.spec with
    | 0 => (2 ^ f.e - 1) * 2 ^ f.m - 1
    | 1 => 2 ^ (f.e + f.m) - 2
    | _ => 2 ^ (f.e + f.m) - 1
  if !f.sub && top < 2 ^ f.m then 0 else top

/-- The canonical NaN's code (R240, R244). -/
def Fmt.nanCode (f : Fmt) : Option Nat :=
  match f.spec with
  | 0 => some ((2 ^ f.e - 1) * 2 ^ f.m + 2 ^ (f.m - 1))
  | 1 => some (2 ^ (f.e + f.m) - 1)
  | _ => none

/-- Magnitude code of infinity, in the IEEE-like formats. -/
def Fmt.infMag (f : Fmt) : Option Nat := if f.spec == 0 then some ((2 ^ f.e - 1) * 2 ^ f.m) else none

def Fmt.signed (f : Fmt) (neg : Bool) (mag : Nat) : Nat :=
  if neg && f.s == 1 then mag + 2 ^ (f.w - 1) else mag

/-! VFLAGS bits (R215). -/
abbrev Flags := BitVec 6
def flNV : Flags := 1#6
def flDZ : Flags := 2#6
def flOF : Flags := 4#6
def flUF : Flags := 8#6
def flNX : Flags := 16#6
def flSAT : Flags := 32#6

/-- Floor of the base-2 logarithm of a positive magnitude m × 2^e. -/
def log2Of (m : Nat) (e : Int) : Int := (Nat.log2 m : Int) + e

/-- m × 2^e in units of 2^q, cut toward zero: the whole part, the remainder and its denominator's exponent. -/
def cut (m : Nat) (e q : Int) : Nat × Nat × Nat :=
  if q ≤ e then (m * 2 ^ (e - q).toNat, 0, 0)
  else
    let k := (q - e).toNat
    (m / 2 ^ k, m % 2 ^ k, k)

/-- Whether a cut magnitude moves away from zero under a mode (R247, R251). odd tells whether the value toward zero
has an odd encoding; draw is the 32-bit number r of R251. -/
def roundsUp (mode : Vrm) (neg odd : Bool) (rest k : Nat) (more : Bool) (draw : Nat) : Bool :=
  let exact := rest == 0 && !more
  match mode with
  | .rne => if 2 * rest == 2 ^ k && !more then odd && k != 0 else decide (2 * rest ≥ 2 ^ k) && k != 0
  | .rz => false
  | .rdn => neg && !exact
  | .rup => !neg && !exact
  | .sr => decide (rest * 2 ^ 32 / 2 ^ k + draw ≥ 2 ^ 32)

/-- Overflow (R249): the code and the flags beside OF and NX. -/
def overflow (f : Fmt) (neg : Bool) (mode : Vrm) (sat : Bool) : Nat × Flags :=
  let toInf := match mode with
    | .rne => true | .sr => true | .rz => false | .rdn => neg | .rup => !neg
  if !toInf then (f.signed neg f.maxMag, if sat then flSAT else 0#6)
  else match f.infMag, f.nanCode, sat with
    | some i, _, false => (f.signed neg i, 0#6)
    | none, some n, false => (n, flNV)
    | _, _, _ => (f.signed neg f.maxMag, flSAT)

/-- RoundTo (R248): the code and the flags of rounding x into f. draw is r of R251, used under SR. -/
def roundTo (f : Fmt) (mode : Vrm) (sat : Bool) (draw : Nat) (x : Val) : Nat × Flags :=
  match x with
  | .nan => (f.nanCode.getD 0, flNV)
  | .inf neg =>
    if f.s == 0 && neg then (0, flNV)
    else match f.infMag, f.nanCode, sat with
      | some i, _, false => (f.signed neg i, 0#6)
      | none, some n, false => (n, flNV)
      | _, _, _ => (f.signed neg f.maxMag, flSAT)
  | .fin neg m e more =>
    if f.s == 0 && neg then (0, if m == 0 && !more then 0#6 else flNV)
    else if m == 0 then (f.signed neg 0, if more then flUF ||| flNX else 0#6)
    else
      let qmin := 1 - f.bias - f.m
      let lg := log2Of m e
      let q := max (lg - f.m) qmin
      let (t, rest, k) := cut m e q
      let magOf (t : Nat) : Nat := if t < 2 ^ f.m then t else (q - qmin).toNat * 2 ^ f.m + t
      let exact := rest == 0 && !more
      let up := roundsUp mode neg (magOf t % 2 == 1) rest k more draw
      let mag := magOf (if up then t + 1 else t)
      let fl := (if exact then 0#6 else flNX) ||| (if lg < 1 - f.bias && !exact then flUF else 0#6)
      if f.maxMag < mag then
        let (c, g) := overflow f neg mode sat
        (c, fl ||| flOF ||| flNX ||| g)
      else if !f.sub && mag < 2 ^ f.m then (f.signed neg 0, fl)
      else (f.signed neg mag, fl)

/-- A value rounded to an integer (R250, R228), and whether that changed it. -/
def roundInt (mode : Vrm) (draw : Nat) (neg : Bool) (m : Nat) (e : Int) (more : Bool) : Int × Bool :=
  let (t, rest, k) := cut m e 0
  let up := roundsUp mode neg (t % 2 == 1) rest k more draw
  let n : Int := (if up then t + 1 else t : Nat)
  (if neg then -n else n, !(rest == 0 && !more))

/-- Ends of an integer range (R242). -/
def intMin (w : Nat) (signed : Bool) : Int := if signed then -(2 ^ (w - 1)) else 0
def intMax (w : Nat) (signed : Bool) : Int := if signed then 2 ^ (w - 1) - 1 else 2 ^ w - 1
/-- The w-bit code of an integer, low bits kept. -/
def intCode (w : Nat) (i : Int) : Nat := (i % 2 ^ w).toNat

/-- A value into an integer format (R250): the code and the flags. -/
def toInt (w : Nat) (signed : Bool) (mode : Vrm) (draw : Nat) (x : Val) : Nat × Flags :=
  match x with
  | .nan => (0, flNV)
  | .inf neg => (intCode w (if neg then intMin w signed else intMax w signed), flSAT)
  | .fin neg m e more =>
    let (i, nx) := roundInt mode draw neg m e more
    let fl := if nx then flNX else 0#6
    if i < intMin w signed then (intCode w (intMin w signed), fl ||| flSAT)
    else if i > intMax w signed then (intCode w (intMax w signed), fl ||| flSAT)
    else (intCode w i, fl)

/-- An integer narrowed into an integer format (R250). -/
def narrowInt (w : Nat) (signed sat : Bool) (i : Int) : Nat × Flags :=
  if !sat then (intCode w i, 0#6)
  else if i < intMin w signed then (intCode w (intMin w signed), flSAT)
  else if i > intMax w signed then (intCode w (intMax w signed), flSAT)
  else (intCode w i, 0#6)

/-- One step of the generator (R252): the new state words and the output. -/
def nextSR (s0 s1 : W64) : W64 × W64 × W64 :=
  let a := s0 ^^^ (s0 <<< 23)
  let n1 := a ^^^ s1 ^^^ (a >>> 17) ^^^ (s1 >>> 26)
  (s1, n1, n1 + s1)

/-! Exact arithmetic on values. -/

/-- Comparison of magnitudes m₁ × 2^e₁ < m₂ × 2^e₂, exact values only. -/
def magLt (m1 : Nat) (e1 : Int) (m2 : Nat) (e2 : Int) : Bool :=
  let e := min e1 e2
  decide (m1 * 2 ^ (e1 - e).toNat < m2 * 2 ^ (e2 - e).toNat)

/-- a < b for values that are not NaN; −0 and +0 are equal. -/
def Val.lt (a b : Val) : Bool :=
  match a, b with
  | .nan, _ => false
  | _, .nan => false
  | .inf n, .inf k => n && !k
  | .inf n, .fin .. => n
  | .fin .., .inf k => !k
  | .fin n1 m1 e1 _, .fin n2 m2 e2 _ =>
    if m1 == 0 && m2 == 0 then false
    else match n1, n2 with
      | true, false => true
      | false, true => false
      | false, false => magLt m1 e1 m2 e2
      | true, true => magLt m2 e2 m1 e1

/-- a = b for values that are not NaN. -/
def Val.eq (a b : Val) : Bool := !a.isNan && !b.isNan && !a.lt b && !b.lt a

/-- The smaller, or larger, of two values with −0 below +0; a NaN operand gives NaN (R226). -/
def Val.minOf (a b : Val) : Val :=
  if a.isNan || b.isNan then .nan else if b.lt a || (b.isZero && a.isZero && b.neg?) then b else a
def Val.maxOf (a b : Val) : Val :=
  if a.isNan || b.isNan then .nan else if a.lt b || (b.isZero && a.isZero && a.neg?) then b else a

/-- The signed integer ± m × 2^(e − q), q ≤ e. -/
def scaled (neg : Bool) (m : Nat) (e q : Int) : Int :=
  let n : Int := ((m * 2 ^ (e - q).toNat : Nat) : Int)
  if neg then -n else n

/-- The exact sum. Opposite infinities give NaN. An exact zero sum is −0 when both are −0, or when the sum cancels
under RDN, and +0 otherwise (R225). -/
def Val.add (mode : Vrm) (a b : Val) : Val :=
  match a, b with
  | .nan, _ => .nan
  | _, .nan => .nan
  | .inf n, .inf k => if n == k then .inf n else .nan
  | .inf n, _ => .inf n
  | _, .inf k => .inf k
  | .fin n1 m1 e1 _, .fin n2 m2 e2 _ =>
    let q := min e1 e2
    let s := scaled n1 m1 e1 q + scaled n2 m2 e2 q
    if s == 0 then
      .zero (if n1 == n2 then n1 else decide (mode = .rdn))
    else .fin (decide (s < 0)) s.natAbs q false

/-- The exact product; 0 × ∞ is NaN. The sign of a zero product is the exclusive or of the factors' signs, an integer zero taken as positive
(log entry 84). -/
def Val.mul (a b : Val) : Val :=
  match a, b with
  | .nan, _ => .nan
  | _, .nan => .nan
  | .inf n, .inf k => .inf (n != k)
  | .inf n, .fin k m _ _ => if m == 0 then .nan else .inf (n != k)
  | .fin k m _ _, .inf n => if m == 0 then .nan else .inf (n != k)
  | .fin n1 m1 e1 _, .fin n2 m2 e2 _ => .fin (n1 != n2) (m1 * m2) (e1 + e2) false

/-- Bits kept below the leading one of a quotient, root or function value, above every format's M and R251's 32. -/
def guardBits : Nat := 160

/-- The quotient of finite non-zero magnitudes, cut with a sticky mark. -/
def divFin (neg : Bool) (m1 : Nat) (e1 : Int) (m2 : Nat) (e2 : Int) : Val :=
  let k := guardBits + Nat.log2 m2
  let n := m1 * 2 ^ k
  .fin neg (n / m2) (e1 - e2 - k) (n % m2 != 0)

/-- The greatest r with r² ≤ n, of at most k bits, found from the top bit down. -/
def isqrt (n : Nat) : Nat → Nat → Nat
  | 0, r => r
  | k + 1, r => isqrt n k (if (r + 2 ^ k) * (r + 2 ^ k) ≤ n then r + 2 ^ k else r)

/-- The root of a positive magnitude m × 2^e. -/
def sqrtFin (m : Nat) (e : Int) : Val :=
  let odd := (e % 2).toNat
  let n := m * 2 ^ odd * 2 ^ (2 * guardBits)
  let r := isqrt n (Nat.log2 n / 2 + 1) 0
  .fin false r ((e - odd) / 2 - guardBits) (r * r != n)

/-- The reciprocal root of a positive magnitude m × 2^e. -/
def rsqrtFin (m : Nat) (e : Int) : Val :=
  let odd := (e % 2).toNat
  let d := m * 2 ^ odd
  let k := guardBits + Nat.log2 d
  let n := 2 ^ (2 * k) / d
  let r := isqrt n (Nat.log2 n / 2 + 1) 0
  .fin false r (-((e - odd) / 2) - k) (r * r * d != 2 ^ (2 * k))

/-! Sums (R255 to R257). -/

/-- The sum of a group's terms in units of 2^q, each cut toward zero (R256). -/
def windowSum (q : Int) : List Val → Int
  | [] => 0
  | .fin neg m e _ :: r =>
    let t : Int := ((cut m e q).1 : Nat)
    (if neg then -t else t) + windowSum q r
  | _ :: r => windowSum q r

/-- Floor(Log2) of the greatest magnitude among the non-zero finite terms. -/
def groupMax : List Val → Option Int
  | [] => none
  | .fin _ m e _ :: r =>
    if m == 0 then groupMax r
    else match groupMax r with
      | some x => some (max x (log2Of m e))
      | none => some (log2Of m e)
  | _ :: r => groupMax r

def hasInf (neg : Bool) (ts : List Val) : Bool := ts.any fun t => t == .inf neg

/-- GroupSum (R256): the FP32 code of a group of terms. -/
def groupSum (ts : List Val) : Nat :=
  if ts.any Val.isNan then 0x7FC00000
  else if hasInf true ts && hasInf false ts then 0x7FC00000
  else if hasInf false ts then 0x7F800000
  else if hasInf true ts then 0xFF800000
  else match groupMax ts with
    | none => if ts.all Val.neg? then 0x80000000 else 0
    | some emax =>
      let q := emax - 34
      let s := windowSum q ts
      if s == 0 then 0 else (roundTo fp32 .rne false 0 (.fin (decide (s < 0)) s.natAbs q false)).1

/-- Groups of 16 consecutive terms, each summed after the result so far (R257); fuel bounds the groups. -/
def dotFrom : Nat → Nat → List Val → Nat
  | 0, acc, _ => acc
  | n + 1, acc, ts =>
    match ts with
    | [] => acc
    | _ => dotFrom n (groupSum (decodeFloat fp32 acc :: ts.take 16)) (ts.drop 16)

/-- A dot product (R257): the incoming accumulator code and the terms in order. An empty list leaves one group. -/
def dot (acc : Nat) (ts : List Val) : Nat := dotFrom (ts.length + 1) acc ts

/-- The exact sum of element products of a block, with the special cases of R257. -/
def blockSum : List Val → Val
  | [] => .zero false
  | p :: ps => ps.foldl (Val.add .rne) p

/-- A block term (R257). -/
def blockTerm (ps : List Val) (factors : List Val) : Val := factors.foldl Val.mul (blockSum ps)

end Sys2Proof.Machine
end

