-- ==== Sys2Proof/Machine/Digest.lean ====
section
/-! DEFINITION. Digests: the CRC-16/CCITT of signatures (R47), the CRC-64/XZ of duplex digests (R392) and the SHA-384
of meters and measurements (R408, R411, R412), as their published definitions give them (log entry 17). -/

namespace Sys2Proof.Machine

open Sys2Proof

/-- n shift steps of a CRC register of 16 bits, top bit first. -/
def crc16Bits : Nat → BitVec 16 → BitVec 16
  | 0, c => c
  | n + 1, c => crc16Bits n (if c.msb then (c <<< 1) ^^^ 0x1021#16 else c <<< 1)

/-- One byte into the CRC-16/CCITT (R47): polynomial 0x1021, no reflection. -/
def crc16Byte (c : BitVec 16) (b : Byte) : BitVec 16 := crc16Bits 8 (c ^^^ ((b.setWidth 16) <<< 8))

/-- Bytes into the running CRC-16. -/
def crc16 (c : BitVec 16) (bs : List Byte) : BitVec 16 := bs.foldl crc16Byte c

def crc64Bits : Nat → BitVec 64 → BitVec 64
  | 0, c => c
  | n + 1, c => crc64Bits n (if bitAt c 0 then (c >>> 1) ^^^ 0xC96C5795D7870F42#64 else c >>> 1)

/-- One byte into the CRC-64/XZ register, low bit first. -/
def crc64Byte (c : BitVec 64) (b : Byte) : BitVec 64 := crc64Bits 8 (c ^^^ b.setWidth 64)

/-- The CRC-64/XZ of bytes (R392). -/
def crc64 (bs : List Byte) : BitVec 64 := ~~~ (bs.foldl crc64Byte (~~~ 0#64))

/-! SHA-384. -/

def shaK : List W64 :=
  [0x428a2f98d728ae22#64, 0x7137449123ef65cd#64, 0xb5c0fbcfec4d3b2f#64, 0xe9b5dba58189dbbc#64,
   0x3956c25bf348b538#64, 0x59f111f1b605d019#64, 0x923f82a4af194f9b#64, 0xab1c5ed5da6d8118#64,
   0xd807aa98a3030242#64, 0x12835b0145706fbe#64, 0x243185be4ee4b28c#64, 0x550c7dc3d5ffb4e2#64,
   0x72be5d74f27b896f#64, 0x80deb1fe3b1696b1#64, 0x9bdc06a725c71235#64, 0xc19bf174cf692694#64,
   0xe49b69c19ef14ad2#64, 0xefbe4786384f25e3#64, 0x0fc19dc68b8cd5b5#64, 0x240ca1cc77ac9c65#64] ++
  [0x2de92c6f592b0275#64, 0x4a7484aa6ea6e483#64, 0x5cb0a9dcbd41fbd4#64, 0x76f988da831153b5#64,
   0x983e5152ee66dfab#64, 0xa831c66d2db43210#64, 0xb00327c898fb213f#64, 0xbf597fc7beef0ee4#64,
   0xc6e00bf33da88fc2#64, 0xd5a79147930aa725#64, 0x06ca6351e003826f#64, 0x142929670a0e6e70#64,
   0x27b70a8546d22ffc#64, 0x2e1b21385c26c926#64, 0x4d2c6dfc5ac42aed#64, 0x53380d139d95b3df#64,
   0x650a73548baf63de#64, 0x766a0abb3c77b2a8#64, 0x81c2c92e47edaee6#64, 0x92722c851482353b#64] ++
  [0xa2bfe8a14cf10364#64, 0xa81a664bbc423001#64, 0xc24b8b70d0f89791#64, 0xc76c51a30654be30#64,
   0xd192e819d6ef5218#64, 0xd69906245565a910#64, 0xf40e35855771202a#64, 0x106aa07032bbd1b8#64,
   0x19a4c116b8d2d0c8#64, 0x1e376c085141ab53#64, 0x2748774cdf8eeb99#64, 0x34b0bcb5e19b48a8#64,
   0x391c0cb3c5c95a63#64, 0x4ed8aa4ae3418acb#64, 0x5b9cca4f7763e373#64, 0x682e6ff3d6b2b8a3#64,
   0x748f82ee5defb2fc#64, 0x78a5636f43172f60#64, 0x84c87814a1f0ab72#64, 0x8cc702081a6439ec#64] ++
  [0x90befffa23631e28#64, 0xa4506cebde82bde9#64, 0xbef9a3f7b2c67915#64, 0xc67178f2e372532b#64,
   0xca273eceea26619c#64, 0xd186b8c721c0c207#64, 0xeada7dd6cde0eb1e#64, 0xf57d4f7fee6ed178#64,
   0x06f067aa72176fba#64, 0x0a637dc5a2c898a6#64, 0x113f9804bef90dae#64, 0x1b710b35131c471b#64,
   0x28db77f523047d84#64, 0x32caab7b40c72493#64, 0x3c9ebe0a15c9bebc#64, 0x431d67c49c100d4c#64,
   0x4cc5d4becb3e42b6#64, 0x597f299cfc657e2a#64, 0x5fcb6fab3ad6faec#64, 0x6c44198c4a475817#64]

def shaH0 : List W64 :=
  [0xcbbb9d5dc1059ed8#64, 0x629a292a367cd507#64, 0x9159015a3070dd17#64, 0x152fecd8f70e5939#64,
   0x67332667ffc00b31#64, 0x8eb44a8768581511#64, 0xdb0c2e0d64f98fa7#64, 0x47b5481dbefa4fa4#64]

def rotr (x : W64) (n : Nat) : W64 := (x >>> n) ||| (x <<< (64 - n))

/-- The message schedule, the newest word first. -/
def shaExtend : Nat → List W64 → List W64
  | 0, w => w
  | n + 1, w =>
    let x := w.getD 14 0#64
    let y := w.getD 1 0#64
    let s0 := rotr x 1 ^^^ rotr x 8 ^^^ (x >>> 7)
    let s1 := rotr y 19 ^^^ rotr y 61 ^^^ (y >>> 6)
    shaExtend n ((w.getD 15 0#64 + s0 + w.getD 6 0#64 + s1) :: w)

/-- One round on the eight working words. -/
def shaRound (v : List W64) (kw : W64) : List W64 :=
  match v with
  | [a, b, c, d, e, f, g, h] =>
    let s1 := rotr e 14 ^^^ rotr e 18 ^^^ rotr e 41
    let ch := (e &&& f) ^^^ (~~~ e &&& g)
    let t1 := h + s1 + ch + kw
    let s0 := rotr a 28 ^^^ rotr a 34 ^^^ rotr a 39
    let maj := (a &&& b) ^^^ (a &&& c) ^^^ (b &&& c)
    [t1 + (s0 + maj), a, b, c, d + t1, e, f, g]
  | _ => v

/-- One 16-word block. -/
def shaBlock (h : List W64) (block : List W64) : List W64 :=
  let w := (shaExtend 64 block.reverse).reverse
  let v := (List.zipWith (· + ·) shaK w).foldl shaRound h
  List.zipWith (· + ·) h v

/-- Big-endian 64-bit words of bytes. -/
def beWords : List Byte → List W64
  | a :: b :: c :: d :: e :: f :: g :: h :: r =>
    BitVec.ofNat 64 (leNat [h, g, f, e, d, c, b, a]) :: beWords r
  | _ => []

def shaBlocks : Nat → List W64 → List W64 → List W64
  | 0, h, _ => h
  | n + 1, h, ws => match ws with
    | [] => h
    | _ => shaBlocks n (shaBlock h (ws.take 16)) (ws.drop 16)

/-- The message with its one bit, zeros and 128-bit length. -/
def shaPad (bs : List Byte) : List Byte :=
  let n := bs.length
  bs ++ 0x80#8 :: List.replicate ((239 - n % 128) % 128) 0#8 ++ (leBytes 16 (8 * n)).reverse

/-- The SHA-384 of bytes, 48 bytes. -/
def sha384 (bs : List Byte) : List Byte :=
  let ws := beWords (shaPad bs)
  ((shaBlocks (ws.length / 16 + 1) shaH0 ws).take 6).flatMap fun w => (leBytes 8 w.toNat).reverse

end Sys2Proof.Machine
end

