-- ==== Sys2Proof/Config.lean ====
section
/-! DEFINITION. What one device fixes or the spec leaves open: constants without a body, so that no proof sees a value
(log entries 5, 11, 12, 18). -/

namespace Sys2Proof.Config

/-- The bin of the part: 0 A, 1 B, 2 C (R1, R18; log entry 18). -/
opaque part : Nat
/-- Bytes that the spec leaves undefined: the n-th free value (log entry 5). -/
opaque freeByte : Nat → Byte
/-- SHA-384 of the device firmware as a number (R411; log entry 11). -/
opaque firmwareHash : Nat
/-- What a CAPABILITIES response says past its header (R410; log entry 11). -/
opaque capabilities : List Byte
/-- The certificate chain of slot 0 (R410; log entry 11). -/
opaque certificate : List Byte
/-- A signature by the device identity key over a transcript (R410, R411; log entry 11). -/
opaque sign : List Byte → List Byte
/-- The answer to an SPDM session message (R410; log entry 11). -/
opaque session : List Byte → List Byte
/-- The PASID that a VF's requests carry, as the host has set it (R66, R426; log entry 18). -/
opaque pasid : (vf : Nat) → BitVec 20
/-- Whether the share e × c / n of a VF that held c of n switched-in core cycles of a cluster that used e is rounded up (R415; log
entry 12). -/
opaque energyUp : (e c n : Nat) → Bool
/-- For how many cycles the mesh links touching partition p's clusters were busy in the 256 ticks before a tick: the spec gives no routes
(R414; log entry 12). -/
opaque linkUse : (p tick : Nat) → Nat

end Sys2Proof.Config
end

