-- ==== Sys2Proof/Machine/Table.lean ====
section
/-! DEFINITION. Sparse tables: a list of (key, value) pairs in one canonical form, keys strictly rising and no value
equal to what an unlisted key reads as. Memory and every indexed structure of the machine are such tables. -/

namespace Sys2Proof.Machine

open Sys2Proof

abbrev Tbl (α : Type) := List (Nat × α)

/-- The value at key k; d where k is not listed. -/
def tget {α : Type} (d : α) : Tbl α → Nat → α
  | [], _ => d
  | (k', v) :: t, k => if k' = k then v else tget d t k

/-- Insertion in key order, in place of an entry of the same key. -/
def tins {α : Type} (k : Nat) (v : α) : Tbl α → Tbl α
  | [] => [(k, v)]
  | (k', v') :: t => if k < k' then (k, v) :: (k', v') :: t else if k = k' then (k, v) :: t else (k', v') :: tins k v t

/-- The table without key k. -/
def tdel {α : Type} (k : Nat) (t : Tbl α) : Tbl α := t.filter fun e => e.1 ≠ k

/-- The table with value v at key k, in canonical form. -/
def tput {α : Type} [DecidableEq α] (d : α) (k : Nat) (v : α) (t : Tbl α) : Tbl α :=
  if v = d then tdel k t else tins k v t

/-- Keys strictly rising, no listed default. -/
def Tbl.wf {α : Type} [DecidableEq α] (d : α) : Tbl α → Bool
  | [] => true
  | [e] => decide (e.2 ≠ d)
  | e :: e' :: t => decide (e.2 ≠ d) && decide (e.1 < e'.1) && Tbl.wf d (e' :: t)

/-- n bytes of a byte table from address a, as a little-endian number (R4). -/
def tread (t : Tbl Byte) (a : Nat) : Nat → Nat
  | 0 => 0
  | n + 1 => (tget 0#8 t a).toNat + 256 * tread t (a + 1) n

/-- The n low bytes of x stored from address a (R4). -/
def twrite (t : Tbl Byte) (a : Nat) : Nat → Nat → Tbl Byte
  | 0, _ => t
  | n + 1, x => twrite (tput 0#8 a (BitVec.ofNat 8 x) t) (a + 1) n (x / 256)

/-- Insertion of x into a list sorted by f, after its equals. -/
def insertOn {α : Type} (f : α → Nat) (x : α) : List α → List α
  | [] => [x]
  | y :: t => if f x < f y then x :: y :: t else y :: insertOn f x t

/-- A list sorted by f, equals in their old order. -/
def sortOn {α : Type} (f : α → Nat) (l : List α) : List α := l.foldl (fun t x => insertOn f x t) []

end Sys2Proof.Machine
end

