-- ==== Sys2Proof/Machine/State.lean ====
section
/-! DEFINITION. The state of the module: everything the spec gives it, as plain data. A structure's field defaults are
its reset values (INVENTORY.md lists each with its rule; log entry 3 names the ones the spec leaves open). -/

namespace Sys2Proof.Machine

open Sys2Proof

/-- A stamp (tick, origin) as the number tick × 2^17 + origin, so that stamps compare as numbers do and Pred(s) is
s − 1 (R89). -/
abbrev Stamp := Nat
def mkStamp (tick org : Nat) : Stamp := tick * 131072 + org
def stampTick (s : Stamp) : Nat := s / 131072
def stampOrg (s : Stamp) : Nat := s % 131072

/-- The key of a context: region and virtual tile (R361). The key of one of its cores: twice that, plus the role. -/
def ctxKey (region vt : Nat) : Nat := region * 16777216 + vt
def ctxRegion (x : Nat) : Nat := x / 16777216
def ctxVt (x : Nat) : Nat := x % 16777216
def coreKey (x : Nat) (compute : Bool) : Nat := 2 * x + bit01 compute

/-- A c register (R53). -/
structure CReg where
  bits : W128 := 0#128
  tag : Bool := false
  deriving DecidableEq, Repr

/-- A v register (R201). -/
structure VReg where
  bits : BitVec 1024 := 0#1024
  tag : Byte := 0#8
  deriving DecidableEq, Repr

/-- A trail entry (R86), and any write of one 16-byte granule. -/
structure TrailEntry where
  g : Nat
  data : W128
  mask : W16
  tag : Bool
  deriving DecidableEq, Repr

/-- A sealed segment as its core still holds it (R87, R101). -/
structure SealedSeg where
  pub : Nat
  stamp : Stamp
  entries : List TrailEntry
  deriving DecidableEq, Repr

/-- What kind of message (R337, R351, R387, R430). -/
inductive MsgKind where
  | send | sendh (h : Nat) | spawn (first : Nat) | arrive (bar : Nat) | host (index : Nat)
  deriving DecidableEq, Repr

/-- A message (R336, R369): region and virtual tile it goes to, or the host where toHost (R335), handler, sending core's key and
virtual tile, payload, published tail, arrival tick; told is set once HANDLER_MISSING has been raised for a parked one (R316). -/
structure Msg where
  region : Nat
  target : Nat
  hdl : Byte
  kind : MsgKind
  source : Nat
  sender : Nat
  payload : List CReg
  tail : Stamp := 0
  arrival : Nat := 0
  vf : Nat := 0
  told : Bool := false
  toHost : Bool := false
  deriving DecidableEq, Repr

/-- A message in a place of its NI (R315, R317): its class and the tick it entered that class. -/
structure Place where
  msg : Msg
  cls : Nat
  since : Nat
  compute : Bool
  deriving DecidableEq, Repr

/-- A continuation record (R318). -/
structure ContRec where
  hdr : Nat
  pcw : Nat
  join : Option CReg
  regs : List CReg
  tailTick : Nat
  compute : Bool
  deriving DecidableEq, Repr

/-- What started an activation (R314). -/
inductive Trigger where
  | message (m : Msg)
  | record (r : ContRec)
  deriving DecidableEq, Repr

/-- One activation (R312): header offset, code start, header fields, trigger, whether its first release completed. -/
structure Activation where
  hdr : Nat
  code : Nat
  codeLen : Nat
  mask : W32
  vregs : Nat
  handles : Nat
  sigOff : Nat
  sigCount : Nat
  trigger : Trigger
  released : Bool := false
  deriving DecidableEq, Repr

/-- The state of the signature checker (R47): offset of the block, running CRC, and, after a TRAP or BRK
that ended it, the offset of the instruction behind. -/
structure Sig where
  block : Nat := 0
  crc : W16 := 0xFFFF#16
  left : Option Nat := none
  deriving DecidableEq, Repr

/-- A restart checkpoint (R92, R47); arrived is the step and the value of a JOIN whose arrival has been made (R340, R388). -/
structure Checkpoint where
  pc : Nat
  regs : Tbl CReg
  sig : Sig
  arrived : Option (Nat × Nat) := none
  deriving DecidableEq, Repr

/-- An activation set aside by a LAUNCH that waits: its checkpoint, and the capacity and address of the run queue it waits
for (R326). -/
structure Aside where
  act : Activation
  ckpt : Checkpoint
  cap : Nat
  ring : Nat
  deriving DecidableEq, Repr

/-- The access codes and kinds of a page fault (R70, R71). -/
inductive Access where
  | load | store | tstore | atomic | fetch
  deriving DecidableEq, Repr

inductive FaultKind where
  | notvalid | nowrite | noexec | notag | key | malformed | range | hostpri | hostdeny
  deriving DecidableEq, Repr

/-- Where the result of a request goes (R121): a scalar load of n bytes, LDC keeping its tag under K, a vector load of
the bits in sel over old, an atomic (minor, width, operands), an HCASX. -/
inductive ReqKind where
  | scalar (d : Reg) (n : Nat) (signed : Bool)
  | cap (d : Reg) (keep : Bool)
  | vector (d : Reg) (tag : Byte) (sel old : Nat)
  | atomic (d : Reg) (minor n opnd cmp : Nat) (carried : Stamp)
  | hcasx (d : Reg) (n off new cmp vt h : Nat)
  deriving DecidableEq, Repr

/-- How a request ended. -/
inductive ReqEnd where
  | value (x : Nat) (tag : Bool) (stamp : Stamp)
  | abort (cause va info : Nat)
  | refused (cause info va : Nat)
  | absent
  deriving DecidableEq, Repr

/-- A request in one of a core's 8 slots (R121): view stamp at issue, bytes still wanted as (place in the result, VA),
result so far, whether its tag may come from memory, the places in the trail area it forwards from (R88). -/
structure Req where
  kind : ReqKind
  v : Stamp
  va : Nat
  want : List (Nat × Nat)
  got : Nat := 0
  tag : Bool := false
  memTag : Bool := false
  refills : List Nat := []
  pc : Nat := 0
  word : W32 := 0#32
  done : Option ReqEnd := none
  deriving DecidableEq, Repr

/-- One chunk of a copy (R179): device bytes as (VA, handle byte offset) runs (va, off, len) in move order, or the
elements of a CRED. -/
structure Run where
  va : Nat
  off : Nat
  len : Nat
  deriving DecidableEq, Repr

/-- The minors of major 0x1C that queue (R174). -/
inductive CopyKind where
  | cpy (out : Bool) | cpys (out : Bool) | cpyv (out : Bool) | cpyg | cpym | cshd | cpub | cred | remote
  deriving DecidableEq, Repr

/-- A destination of a CPYM (R192): virtual tile, handle, entry of the scoreboard, refused. -/
structure Dest where
  vt : Nat
  h : Nat
  entry : Option (Nat × Nat) := none
  refused : Bool := false
  deriving DecidableEq, Repr

/-- A copy command (R172 to R195). src holds the bytes of its handle as they stood when its entry was made, for a command that
reads it (R158); el counts the elements of a CRED's chunk that have acted (R193). -/
structure CopyCmd where
  kind : CopyKind
  q : Nat
  compute : Bool
  h : Nat
  src : Tbl Byte := []
  readStamp : Stamp := 0
  chunks : List (List Run) := []
  bar : Option Nat := none
  sem : Option Nat := none
  ev : Option Nat := none
  entry : Option (Nat × Nat) := none
  lo : Nat := 0
  hi : Nat := 0
  list : Nat := 0
  eb : Nat := 0
  count : Nat := 0
  op : RedOp := .add
  capLo : Nat := 0
  capHi : Nat := 0
  dests : List Dest := []
  srcVt : Nat := 0
  srcH : Nat := 0
  seg : Nat := 0
  order : Nat := 0
  started : Bool := false
  inFlight : Bool := false
  el : Nat := 0
  waitPage : Option Nat := none
  pub : Option Nat := none
  cancelled : Bool := false
  deriving DecidableEq, Repr

/-- A copy queue (R172, R180, R198). -/
structure CopyQ where
  cmds : List CopyCmd := []
  faulted : Bool := false
  done : W16 := 0#16
  refused : W16 := 0#16
  credits : Nat := 0
  deriving DecidableEq, Repr

/-- An operand handle of a matrix command (R282): the virtual tile of a remote one, and for a local one its tag, the value of
the format register the tag names and its bytes, all as they stood at acceptance (R246, R158). -/
structure MOperand where
  h : Nat
  vt : Option Nat := none
  tag : Byte := 0#8
  fmt : W64 := 0#64
  bytes : Tbl Byte := []
  deriving DecidableEq, Repr

/-- What a matrix command does (R302, R304). -/
inductive MatKind where
  | mma (a b : MOperand) (k : Nat) (za : Bool)
  | mmas (a b sa sb : MOperand) (k : Nat) (za : Bool) (ta tb : W32) (bs : Nat)
  | mlda (h : Nat) | msta (h : Nat) | mzero | mtrn (d h : Nat) | mcvt (h : Nat) (rm : Vrm) (sat : Bool) (fmt : W64)
  deriving DecidableEq, Repr

/-- A matrix command (R289, R290): done counts its steps; stopped asks for the check of R296 before the next; granted,
requested and served are its reservation and its remote read of the step to come; src holds the bytes of the one handle an MLDA, MTRN or MCVT
reads, as they stood at acceptance (R158). -/
structure MatCmd where
  id : Nat
  p0 : Nat
  p1 : Nat
  acc : Option Nat
  kind : MatKind
  sem : Option Nat
  ev : Option Nat
  entries : List (Nat × Nat) := []
  seg : Nat := 0
  done : Nat := 0
  started : Bool := false
  stopped : Bool := false
  consumed : Bool := false
  granted : Bool := false
  requested : Bool := false
  served : Bool := false
  src : Tbl Byte := []
  deriving DecidableEq, Repr

/-- A scratchpad access that may stall on the scoreboard (R158, R169, R170). -/
inductive ScrOp where
  | load (d : Reg) | store (x : Nat) | loadV (d : Reg) (tag : Byte) | storeV (x : Nat)
  | atom (d : Reg) (minor x cmp : Nat) (acq : Bool)
  deriving DecidableEq, Repr

structure Scr where
  h : Nat
  off : Nat
  n : Nat
  op : ScrOp
  deriving DecidableEq, Repr

/-- What follows the wait for FP: the instruction retires, or an activation starts at the header at off, and at pcOff of its code where
that is given (R103, R312). -/
inductive AfterFp where
  | retire | start (off : Nat) (pcOff : Option Nat)
  deriving DecidableEq, Repr

/-- Why a core issues nothing (R92, R107, R121, R158, R172, R208, R289, R322, R324, R326, R421, R455). -/
inductive Stall where
  | none
  | release (pub : Nat)
  | refused
  | fp (target : Stamp) (after : AfterFp)
  | reply (id : Nat)
  | copy (c : CopyCmd)
  | matrix (c : MatCmd)
  | scratch (a : Scr)
  | trail (es : List TrailEntry)
  | push (q : Nat) (x : W64)
  | pop (q : Nat) (d : Reg)
  | launch (since cap ring : Nat)
  | ramp
  | duplex
  deriving DecidableEq, Repr

/-- What the instruction under way has done: its words as fetched, its release and the stamp it took, whether it is
one act that a kill waits for, whether no boundary falls behind its release (R104), whether it waits where a boundary may be
taken (R106), the predecessors it waits for (R289), the handle whose checks it has passed (R170), how far it is, the value an inner
wait brought (log entry 13). -/
structure Progress where
  words : List W32 := []
  rel : Option Stamp := none
  auto : Bool := false
  act : Bool := false
  joined : Bool := false
  waits : Bool := false
  preds : Option (Nat × Nat) := none
  handle : Option Nat := none
  step : Nat := 0
  value : Nat := 0
  compared : Bool := false
  deriving DecidableEq, Repr

/-- A deferred trap that is pending (R383). -/
structure Pending where
  cause : Nat
  va : Nat
  info : Nat
  deriving DecidableEq, Repr

/-- A killed segment on its way to its restart (R388, R314). -/
inductive Killed where
  | no
  | ready
  | held
  | dead
  deriving DecidableEq, Repr

/-- The page that a killed segment waits for before it restarts: the address and the access that missed it (R71, R388). -/
structure PageWait where
  va : Nat
  acc : Access
  deriving DecidableEq, Repr

/-- The acquire a swap-in repeats (R105). -/
inductive AcqKind where
  | start (target : Stamp) | list (ts : List (Nat × Bool)) | all
  deriving DecidableEq, Repr

/-- State held per context and core (R199, R91). helping is the dispatch order of R322; assists is set while the activation is one that
helping took (R326). -/
structure Core where
  c : Tbl CReg := []
  f : Tbl W64 := []
  pc : Nat := 0
  act : Option Activation := none
  view : Stamp := 0
  tail : Stamp := 0
  horizonBit : Bool := false
  pressureBit : Bool := false
  autorelBit : Bool := false
  trail : List TrailEntry := []
  sealedSegs : List SealedSeg := []
  ckpt : Option Checkpoint := none
  held : List Msg := []
  leaving : List Msg := []
  reqs : Tbl (Option Req) := []
  seedLo : W64 := 0#64
  seedHi : W64 := 0#64
  acq : AcqKind := .start 0
  sig : Sig := {}
  pend : List Pending := []
  stall : Stall := .none
  prog : Progress := {}
  killed : Killed := .no
  waitPage : Option PageWait := none
  killLater : Option Killed := none
  seg : Nat := 0
  aside : Option Aside := none
  helping : Bool := false
  assists : Bool := false
  pastStep3 : Bool := false
  due : Option Stamp := none
  atoms : List Nat := []
  digests : List W64 := []
  deriving DecidableEq, Repr

/-- A named barrier (R182, R350). fires and arrFires number its firings and its firings by arrivals; stageTail and computeTail are the
highest tail of those by arrivals since the wait of that core began, so that a waiter acquires to all of them (R351). -/
structure Bar where
  count : Nat := 0
  target : Nat := 0
  armed : Bool := false
  arrived : Nat := 0
  expect : Nat := 0
  aarm : Bool := false
  atail : Stamp := 0
  stageTail : Stamp := 0
  computeTail : Stamp := 0
  fires : Nat := 0
  arrFires : Nat := 0
  deriving DecidableEq, Repr

/-- A handle (R144): 0 FREE, 1 ALLOCATED, 2 EXPORTED. -/
structure Handle where
  st : Nat := 0
  rows : Nat := 0
  cols : Nat := 0
  tag : Byte := 0#8
  level : Level := .tile
  retain : Bool := false
  shatom : Bool := false
  ebits : Nat := 0
  granules : List Nat := []
  bytes : Tbl Byte := []
  bad : List Nat := []
  deriving DecidableEq, Repr

/-- The licence record of a swap (R295). -/
structure LicRec where
  owner : Bool := false
  holder : Bool := false
  pinned : Bool := false
  deriving DecidableEq, Repr

/-- A context (R362): 0 NEVER, 1 RESIDENT, 2 AWAY, 3 TRANSIT. qNew holds the pushes of this core cycle (R208); savedBytes is what its
swap-out saved, 0 for one that none has (R375); conflict, that its swap-in has reported one (R212). -/
structure Ctx where
  st : Nat := 0
  site : Nat := 0
  slot : Nat := 0
  gang : Nat := 0
  lodge : List Msg := []
  oldest : Nat := 0
  v : Tbl VReg := []
  rm : Vrm := .rne
  flags : BitVec 6 := 0#6
  q : Tbl (List W64) := []
  qNew : Tbl (List W64) := []
  bars : Tbl Bar := []
  handles : Tbl Handle := []
  quota : Nat := 48
  used : Nat := 0
  cmds : List MatCmd := []
  copyq : Tbl CopyQ := []
  matCredits : Nat := 0
  top : Nat := 0
  bot : Nat := 0
  deque : List ContRec := []
  dequeGranules : List Nat := []
  places : List Place := []
  save : Tbl (List (BitVec 32)) := []
  saved : List Nat := []
  saveBad : List Nat := []
  lic : LicRec := {}
  sems : List (Nat × Nat) := []
  events : List (Nat × Nat) := []
  terms : List (Nat × W64) := []
  entries : List (Nat × Nat × Nat × Nat × Bool × Nat) := []
  since : Nat := 0
  away : Nat := 0
  live : Bool := false
  trailFrames : List Nat := []
  shadow : Option Nat := none
  coming : Bool := false
  savedBytes : Nat := 0
  conflict : Bool := false
  deriving DecidableEq, Repr

/-- A scoreboard entry (R157): covers bytes lo to hi − 1 of a handle; kind 1 is a zero fill, 0 any other command. -/
structure Entry where
  ctx : Nat
  h : Nat
  lo : Nat
  hi : Nat
  writes : Bool
  kind : Nat
  deriving DecidableEq, Repr

/-- Per core of a tile: monitor c file, mode, monitor PC, trap registers, what the instruction a deferred trap came before
had done, debug status, steal generator, last stamp's tick, tries of the round, idle state (R199, R214, R324, R382, R384). -/
structure MCore where
  c : Tbl CReg := []
  mode : Bool := false
  pc : Nat := 0
  entered : Nat := 0
  faultva : BitVec 56 := 0#56
  faultinfo : W64 := 0#64
  trappc : W64 := 0#64
  trapword : W32 := 0#32
  cause : Nat := 0
  defer : Bool := false
  aborted : Bool := false
  act : Nat := 0
  trapCtx : Option Nat := none
  kept : Progress := {}
  gated : Bool := false
  steal : Option W32 := none
  stampTick : Option Nat := none
  backoff : Option Nat := none
  asleep : Bool := false
  deriving DecidableEq, Repr

/-- State of a vector bank of one slot: powered with its last use, drowsy (R203, R205). -/
structure VBank where
  powered : Bool := false
  last : Nat := 0
  drowsy : Bool := false
  deriving DecidableEq, Repr

/-- A tile (R14); idle while none of its slots is ready (R329); evWas holds the event counts at the start of the core cycle (R355). -/
structure Tile where
  slots : Tbl (Option Nat) := []
  run : Nat := 0
  idle : Bool := false
  sliceStart : Nat := 0
  yielded : Bool := false
  slice : Tbl Nat := []
  stage : MCore := {}
  compute : MCore := {}
  acc : Tbl (List (BitVec 32)) := []
  accown : W64 := 0#64
  sem : Tbl Nat := []
  ev : Tbl Nat := []
  evNext : Tbl Nat := []
  evWas : Tbl Nat := []
  semmap : W64 := 0#64
  evmap : W64 := 0#64
  twincap : Nat := 48
  board : Tbl (Option Entry) := []
  terms : Tbl W64 := []
  store : Tbl Byte := []
  loaded : Bool := false
  storeHash : Nat := 0
  mismatches : List Nat := []
  vecAsleep : Bool := true
  vecLast : Nat := 0
  vecGrant : Bool := false
  rampEnd : Option Nat := none
  vbanks : Tbl VBank := []
  nicache : List Nat := []
  copyTurn : Nat := 0
  copyGrant : Bool := false
  matHeld : Option Nat := none
  matGlide : Bool := false
  granulesBad : List Nat := []
  deriving DecidableEq, Repr

/-- The licence of a pair (R292): 0 FREE, 1 HELD, 2 PARKED, 3 LENT; a requester is tier × 4 + slot; moving is the
requester the licence is on its way to. -/
structure Licence where
  st : Nat := 0
  owner : Nat := 0
  holder : Option Nat := none
  pin : Bool := false
  waiting : List Nat := []
  moving : Option Nat := none
  deriving DecidableEq, Repr

/-- A pair; winNew holds the window writes of this core cycle (R211). -/
structure Pair where
  lic : Licence := {}
  win : Tbl W64 := []
  winNew : Tbl W64 := []
  deriving DecidableEq, Repr

/-- A request for current (R419). -/
structure ResReq where
  site : Nat
  unit : Nat
  units : Nat
  prio : Nat
  arrival : Nat
  deriving DecidableEq, Repr

/-- An atomic waiting at an engine (R108): requesting core, request, line, arrival tick, source cluster (121 for none), and
whether another to its line arrived in its tick; a CXL.mem write brings its data and has the VF for its request (R427), an element of a
CRED names its context and copy queue (R193). -/
structure EngReq where
  who : Nat
  id : Nat
  line : Nat
  arrival : Nat
  src : Nat
  org : Nat
  tied : Bool := false
  cxl : Option (BitVec 512) := none
  copy : Option (Nat × Nat) := none
  deriving DecidableEq, Repr

/-- A cluster (R16). engTick is the tick the engine last acted in and engLines are the lines of its store, oldest use first
(R108, R16); stretch and halved count the edges still to come, plus one (R423); cycles are the core cycles for which
contexts of a region were switched in since the energy period began (R415). -/
structure Cluster where
  ready : Nat := 0
  pool : W128 := 0#128
  part : Option Nat := none
  viral : Bool := false
  engPtr : Nat := 0
  engLast : Nat := 0
  engTick : Option Nat := none
  engLines : List Nat := []
  engQ : List EngReq := []
  budget : Nat := 896
  vec : Bool := false
  inuse : Nat := 0
  waiting : List ResReq := []
  th : Nat := 40
  alarm : Bool := false
  alarms : Nat := 0
  alarmTick : Nat := 0
  stretch : Nat := 0
  withhold : Bool := false
  halved : Nat := 0
  rail : Option Nat := none
  edges : Nat := 0
  cycles : Tbl Nat := []
  deriving DecidableEq, Repr

/-- A write of a line (R96): stamp, mask of bytes written, data, tags of the granules it touches. -/
structure LineWrite where
  stamp : Stamp
  mask : W64
  data : BitVec 512
  tags : BitVec 4
  region : Nat
  deriving DecidableEq, Repr

/-- The version chain of a line (R96): base value and the writes kept, by ascending stamp. -/
structure Chain where
  base : BitVec 512
  tags : BitVec 4
  writes : List LineWrite
  deriving DecidableEq, Repr

/-- An entry of a slice translation buffer (R68): VA range, half, frame, rim address of the leaf; for the host half the VF whose
Requester ID and PASID asked, and the permissions (R66). -/
structure StbEntry where
  va : Nat
  size : Nat
  dev : Bool
  frame : Nat
  pteAt : Nat := 0
  pte : Nat := 0
  vf : Option Nat := none
  r : Bool := false
  w : Bool := false
  deriving DecidableEq, Repr

/-- A staging record (R111 to R115): old and staged frames, rim address of the leaf, the publication that flips it with its
region, flip stamp once folded, byte ranges of the page that copies covered. -/
structure Staging where
  old : Nat
  new : Nat
  pteAt : Nat
  taken : Option Nat := none
  region : Nat := 0
  flip : Option Stamp := none
  cover : List (Nat × Nat) := []
  deriving DecidableEq, Repr

/-- A slice (R61). hostAtoms gives for a byte of host memory the stamp of the last atomic that wrote it (R109). -/
structure Slice where
  stb : List StbEntry := []
  chains : Tbl (Option Chain) := []
  hostAtoms : Tbl Stamp := []
  staging : Tbl (Option Staging) := []
  held : Nat := 0
  frames : List Nat := []
  full : Bool := false
  deriving DecidableEq, Repr

/-- How far a notice has come at one slice (R92, R93). -/
inductive ShareSt where
  | sent | delayed | accepted | rejected | committed | folded
  deriving DecidableEq, Repr

/-- The part of a publication for one slice: writes for a segment, pages for a flip, those not folded yet; begun once its fold has begun
(R96, R100). -/
structure Share where
  st : ShareSt
  writes : List TrailEntry
  pages : List Nat
  begun : Bool := false
  deriving DecidableEq, Repr

/-- What follows a publication at its core: the instruction goes on, nothing, or a copy queue's flip ends (R92, R195, R385). -/
inductive AfterRel where
  | again | plain | flip (ctx q : Nat)
  deriving DecidableEq, Repr

/-- A segment or flip being published (R92, R112). -/
structure Pub where
  part : Nat
  region : Nat
  core : Nat
  stamp : Stamp
  shares : Tbl (Option Share)
  ckpt : Option Checkpoint
  after : AfterRel
  lastPage : Nat := 0
  edge : Nat := 0
  committed : Bool := false
  published : Bool := false
  withdrawn : Bool := false
  deriving DecidableEq, Repr

/-- A chunk of a copy to device memory held for the issuing core's next release, and then by the publication pub until
it folds (R176, R177): in the slice's own store, or at a place of an overflow frame. -/
structure Held where
  core : Nat
  slice : Nat
  order : Nat
  writes : List TrailEntry
  size : Nat
  region : Nat
  frame : Option (Nat × Nat) := none
  q : Nat
  pub : Option Nat := none
  deriving DecidableEq, Repr

/-- A chunk on its way to its home slice (R177). -/
structure Flying where
  ctx : Nat
  q : Nat
  h : Held
  bytes : Nat
  deriving DecidableEq, Repr

/-- A control block, as captured at launch (R323). -/
structure Block where
  va : Nat := 0
  ovr : Nat := 0
  prio : Nat := 0
  flags : Nat := 0
  weight : Nat := 0
  quota : Nat := 0
  opsRate : Nat := 0
  occRate : Nat := 0
  refill : Nat := 0
  trailsz : Nat := 0
  gangpol : Nat := 0
  horizon : Nat := 0
  age : Nat := 0
  watchdog : Nat := 0
  faulth : Nat := 0
  code : CReg := {}
  htab : Nat := 0
  runq : Nat := 0
  rqcap : Nat := 0
  width : Nat := 0
  height : Nat := 0
  gangs : List (Nat × Nat) := []
  deriving DecidableEq, Repr

/-- A region (R323, R325, R328, R363, R365): st 0 running, 2 faulted, 3 ended; suspension is read off the
buckets; area holds the frames of its translation table and lodge queues. -/
structure Region where
  launched : Bool := false
  part : Nat := 0
  parent : Option Nat := none
  blk : Block := {}
  st : Nat := 0
  faultCause : Nat := 0
  launch : Nat := 0
  opsTok : Int := 0
  occTok : Int := 0
  opsRem : Nat := 0
  notified : Bool := false
  shown : Nat := 0
  watch : Nat := 0
  share : Option (List Nat) := none
  pool : Nat := 0
  hints : List Nat := []
  remap : Bool := false
  firstDue : Bool := true
  fences : List (Nat × Nat) := []
  area : List Nat := []
  deriving DecidableEq, Repr

/-- A page-fault record (R71). -/
structure PfRec where
  va : Nat
  core : Nat
  access : Access
  deriving DecidableEq, Repr

/-- The private and shared counters of R414. -/
structure Counters where
  rejects : Nat := 0
  misses : Nat := 0
  swaps : Nat := 0
  tileFaults : Nat := 0
  masked : Nat := 0
  detected : Nat := 0
  linkBusy : Nat := 0
  stackBusy : Nat := 0
  droops : Nat := 0
  deriving DecidableEq, Repr

/-- A region run queue (R321): the place of its head among the RQCAP places at RUNQ, and how many records it holds. -/
structure Ring where
  head : Nat := 0
  count : Nat := 0
  deriving DecidableEq, Repr

/-- A partition (R398). ctrAt keeps, for the delayed reads of R414, its counters and the ports' bytes at multiples of 256
ticks; portBase are the ports' bytes at its configuration; enFrom is the tick at which the running energy period began (R415). -/
structure Partition where
  enabled : Bool := false
  clusters : List Nat := []
  key : Byte := 0#8
  base : Nat := 0
  pccount : Nat := 0
  rimEn : Bool := false
  pclist : List Nat := []
  ptroot : W64 := 0#64
  swap : List Nat := []
  shadow : List Nat := []
  fp : Stamp := 0
  floor : Stamp := 0
  pressure : Option Stamp := none
  pfq : List PfRec := []
  rings : Tbl Ring := []
  ops : Nat := 0
  opsFrac : Nat := 0
  rimocc : Nat := 0
  hostb : Nat := 0
  seq : Nat := 0
  chain : Nat := 0
  records : List (List Byte) := []
  ctr : Counters := {}
  ctrAt : List (Nat × Counters × List Nat) := []
  portBase : List Nat := []
  idleEnergy : Nat := 0
  enperiod : Nat := 0
  enFrom : Nat := 0
  failed : Bool := false
  deriving DecidableEq, Repr

/-- A virtual function with its window (R401, R428 to R433). taken counts the entries passed; waiting holds the numbers of
those whose trigger is not retired; a fence is its sequence number, its index and its number; a bell is a doorbell's tail,
counted as taken counts, and the stamp of the highest CXL.mem write before it; early holds the tails of doorbells on a disabled ring with
their stamps. mask, pba and msix are the MSI-X table and its pending bits, where a vector comes out of reset masked (R428; log entry 91).
linkIn holds the entries that came over a KweLink route, and fromLink whether the message on the fabric is of one (R433). -/
structure Vf where
  port : Nat := 0
  part : Nat := 0
  root : Nat := 0
  en : Bool := false
  hqbase : W64 := 0#64
  hqtail : Nat := 0
  hqhead : Nat := 0
  dqbase : W64 := 0#64
  dqhead : Nat := 0
  dqtail : Nat := 0
  fencedone : W32 := 0#32
  hacq : List Nat := []
  hview : Nat := 0
  mask : BitVec 4 := 15#4
  pba : BitVec 4 := 0#4
  msix : Tbl (W64 × W32) := []
  hdmva : Nat := 0
  hdmsize : Nat := 0
  cxlStamp : Stamp := 0
  bells : List (Nat × Stamp) := []
  early : List (Nat × Stamp) := []
  fences : List (Nat × Nat × Nat) := []
  taken : Nat := 0
  waiting : List Nat := []
  lastFence : Nat := 0
  energy : Nat := 0
  route : Option (Nat × Nat) := none
  linkIn : List (List Byte) := []
  fromLink : Bool := false
  deriving DecidableEq, Repr

structure Port where
  ready : Nat := 0
  bytes : Nat := 0
  deriving DecidableEq, Repr

/-- A KweLink port (R433, R434). -/
structure Kwe where
  ready : Nat := 0
  lanes : Nat := 16
  retrain : Option Nat := none
  down : Bool := false
  held : List (Nat × List Byte) := []
  deriving DecidableEq, Repr

/-- A 64-byte access waiting at a pseudo-channel (R81, R82). -/
structure RimReq where
  row : Nat
  write : Bool
  region : Option Nat
  deriving DecidableEq, Repr

/-- An open row and the region whose request opened it (R82). -/
structure OpenRow where
  row : Nat
  region : Option Nat
  last : Nat
  deriving DecidableEq, Repr

/-- A pseudo-channel (R74, R77, R81): owner is the partition whose data it may still hold. -/
structure Chan where
  owner : Option Nat := none
  rows : Tbl (Option OpenRow) := []
  lastWrite : Option Bool := none
  queue : List RimReq := []
  deriving DecidableEq, Repr

/-- A rail (R418). -/
structure Rail where
  mv : Option Nat := none
  m : Nat := 16
  next : Option Nat := none
  deriving DecidableEq, Repr

/-- Who asks for a host translation and is told how it ended: the request in a slot of a core, the instruction of a core, the head of a
copy queue; the device, for a read that its NI makes, waits for nothing (R66, R67). -/
inductive Asker where
  | request (k id : Nat) | core (k : Nat) | copy (x q : Nat) | device
  deriving DecidableEq, Repr

/-- An ATS request or page request under way, of a 4 KiB page (R66, R67): who waits for it, whether it is a page request, whether it waits
to become one, who has still to be told that the host refused it, and whether an invalidation has made its answer stale (R68). -/
structure HostReq where
  part : Nat
  slice : Nat
  page : Nat
  access : Access
  vf : Option Nat
  waiting : List Asker
  pri : Bool := false
  queued : Bool := false
  denied : List Asker := []
  stale : Bool := false
  deriving DecidableEq, Repr

/-- An invalidation under way (R68): of the VAs lo to hi − 1, of the host half alone where host; once every covered entry
is dropped, the requests (core, slot) and chunks that may still use one. -/
structure Inval where
  part : Nat
  lo : Nat
  hi : Nat
  host : Bool
  dropped : Bool := false
  reqs : List (Nat × Nat) := []
  chunks : List Nat := []
  deriving DecidableEq, Repr

/-- What a drain receipt was asked for (R395): ctx names the position a context has left, and is of clusters and pseudo-channels that a partition gave up (R77, R80). -/
inductive DrainFor where
  | endRegion (r : Nat) | partition (p : Nat) | cluster (cl : Nat) | cluMove (p cl : Nat) (add : Bool)
  | disable (p : Nat) | checkpoint | ctx (x site slot : Nat) | release (p : Nat) (cls chans : List Nat)
  deriving DecidableEq, Repr

/-- What a checkpoint streams to the host (R436): rim memory with its tags, with the swap areas and run queues in it the contexts, regions
and records, and what the slices hold: the held chunks of copies, and of each slice its staging records, its overflow frames and the size
of the chunks in its store. -/
structure Image where
  rim : List Host.Cell
  tags : Tbl Bool
  ctxs : Tbl Ctx
  cores : Tbl Core
  regions : Tbl Region
  rings : List (Nat × Tbl Ring)
  held : List Held := []
  slices : List (Nat × Tbl (Option Staging) × List Nat × Nat) := []
  deriving DecidableEq, Repr

/-- What leaves the module or is reported to the partition manager. -/
inductive Out where
  | atsRequest (port vf : Nat) (pasid : BitVec 20) (page : Nat) | priRequest (port vf : Nat) (pasid : BitVec 20) (page : Nat) | msix (vf vec : Nat) (addr : W64) (data : W32)
  | pfRefused (what : Nat) | pfReport (what unit : Nat) | invalDone (id : Nat) | drained (id : Nat)
  | cxl (vf off : Nat) (data : Option (BitVec 512)) | spdm (fn : Nat) (bytes : List Byte)
  | kwelink (port vf : Nat) (entry : List Byte) | debug (v : BitVec 1024) (tag : Byte)
  | subsystem (port id : Nat) | failed (vf : Option Nat)
  deriving DecidableEq, Repr

/-- Whose turn it is: a core of a tile, one event, or the next reference tick (log entry 1). -/
inductive Turn where
  | core (c : CoreId)
  | event (e : Instr)
  | tick
  deriving DecidableEq, Repr

/-- Who stops a run. -/
inductive Fault where
  /-- An instruction executed on a core that is neither in monitor mode nor in an activation: raised by the shared
  issue operation; no step reaches it. Safe. -/
  | noInstructionStream
  deriving DecidableEq, Repr

/-- Who refuses. -/
inductive Refusal where
  /-- An instruction without a meaning yet, by its mnemonic; raised by no arm of this model. Safe. -/
  | notModelled (mnemonic : String)
  deriving DecidableEq, Repr

/-- The module. rim, rimTags and poison are by pseudo-channel × 2^28 + offset, in bytes, granules and lines (R74, R76);
edging is set between a tick's events and its core clock edges (log entry 1). -/
structure State where
  tick : Nat
  failed : Bool
  ports : Tbl Port
  hbm : Tbl Nat
  kwe : Tbl Kwe
  lidOpened : Bool
  lidOpen : Bool
  lidSensor : Bool
  rim : List Host.Cell
  rimTags : Tbl Bool
  poison : Tbl Bool
  host : List Host.Cell
  chans : Tbl Chan
  clusters : Tbl Cluster
  slices : Tbl Slice
  tiles : Tbl Tile
  pairs : Tbl Pair
  ctxs : Tbl Ctx
  cores : Tbl Core
  regions : Tbl Region
  parts : Tbl Partition
  vfs : Tbl Vf
  rails : Tbl Rail
  pubs : Tbl (Option Pub)
  held : List Held
  flying : Tbl (Option Flying)
  flight : Tbl (Option Msg)
  hostReqs : Tbl (Option HostReq)
  invals : Tbl (Option Inval)
  drains : Tbl (Option DrainFor)
  glide : Option (Nat × Nat)
  killTicks : List (Nat × Nat)
  image : Option Image
  out : List Out
  agenda : List Turn
  edging : Bool
  focus : CoreId
  seq : Nat
  freeCtr : Nat
  deriving DecidableEq, Repr

/-- The module after module reset (R435, R6): nothing ready, every table at its reset values, nothing on the agenda. -/
def State.reset : State where
  tick := 0
  failed := false
  ports := []
  hbm := []
  kwe := []
  lidOpened := false
  lidOpen := false
  lidSensor := false
  rim := []
  rimTags := []
  poison := []
  host := []
  chans := []
  clusters := []
  slices := []
  tiles := []
  pairs := []
  ctxs := []
  cores := []
  regions := []
  parts := []
  vfs := []
  rails := []
  pubs := []
  held := []
  flying := []
  flight := []
  hostReqs := []
  invals := []
  drains := []
  glide := none
  killTicks := []
  image := none
  out := []
  agenda := []
  edging := false
  focus := { site := 0, compute := true }
  seq := 0
  freeCtr := 0

end Sys2Proof.Machine
end

