-- ==== Sys2Proof/Machine/Access.lean ====
section
/-! DEFINITION. Reading and writing the parts of the state by their numbers, the geometry of the wafer pair (R11 to
R13), home slices (R60), the focus core, and fields inherited from ancestor regions (R323). -/

namespace Sys2Proof.Machine

open Sys2Proof

def State.tile (s : State) (i : Nat) : Tile := tget {} s.tiles i
def State.modTile (s : State) (i : Nat) (f : Tile → Tile) : State := { s with tiles := tput {} i (f (s.tile i)) s.tiles }
def State.pair (s : State) (i : Nat) : Pair := tget {} s.pairs i
def State.modPair (s : State) (i : Nat) (f : Pair → Pair) : State := { s with pairs := tput {} i (f (s.pair i)) s.pairs }
def State.cluster (s : State) (i : Nat) : Cluster := tget {} s.clusters i
def State.modCluster (s : State) (i : Nat) (f : Cluster → Cluster) : State :=
  { s with clusters := tput {} i (f (s.cluster i)) s.clusters }
def State.slice (s : State) (i : Nat) : Slice := tget {} s.slices i
def State.modSlice (s : State) (i : Nat) (f : Slice → Slice) : State := { s with slices := tput {} i (f (s.slice i)) s.slices }
def State.ctx (s : State) (x : Nat) : Ctx := tget {} s.ctxs x
def State.modCtx (s : State) (x : Nat) (f : Ctx → Ctx) : State := { s with ctxs := tput {} x (f (s.ctx x)) s.ctxs }
def State.core (s : State) (k : Nat) : Core := tget {} s.cores k
def State.modCore (s : State) (k : Nat) (f : Core → Core) : State := { s with cores := tput {} k (f (s.core k)) s.cores }
def State.region (s : State) (r : Nat) : Region := tget {} s.regions r
def State.modRegion (s : State) (r : Nat) (f : Region → Region) : State :=
  { s with regions := tput {} r (f (s.region r)) s.regions }
def State.part (s : State) (p : Nat) : Partition := tget {} s.parts p
def State.modPart (s : State) (p : Nat) (f : Partition → Partition) : State := { s with parts := tput {} p (f (s.part p)) s.parts }
def State.vf (s : State) (v : Nat) : Vf := tget {} s.vfs v
def State.modVf (s : State) (v : Nat) (f : Vf → Vf) : State := { s with vfs := tput {} v (f (s.vf v)) s.vfs }
def State.chan (s : State) (c : Nat) : Chan := tget {} s.chans c
def State.modChan (s : State) (c : Nat) (f : Chan → Chan) : State := { s with chans := tput {} c (f (s.chan c)) s.chans }
def State.port (s : State) (i : Nat) : Port := tget {} s.ports i
def State.modPort (s : State) (i : Nat) (f : Port → Port) : State := { s with ports := tput {} i (f (s.port i)) s.ports }
def State.rail (s : State) (i : Nat) : Rail := tget {} s.rails i
def State.pub (s : State) (i : Nat) : Option Pub := tget none s.pubs i
def State.setPub (s : State) (i : Nat) (p : Option Pub) : State := { s with pubs := tput none i p s.pubs }
def State.modPub (s : State) (i : Nat) (f : Pub → Pub) : State := s.setPub i ((s.pub i).map f)
def State.kport (s : State) (i : Nat) : Kwe := tget {} s.kwe i
def State.modKport (s : State) (i : Nat) (f : Kwe → Kwe) : State := { s with kwe := tput {} i (f (s.kport i)) s.kwe }

/-- Appends an event to the agenda (log entry 1). -/
def State.post (s : State) (e : Instr) : State := { s with agenda := s.agenda ++ [.event e] }
/-- Posts an event for a later tick (log entry 1). -/
def State.later (s : State) (e : Instr) : State := { s with agenda := s.agenda ++ [.tick, .event e] }
def State.emit (s : State) (o : Out) : State := { s with out := s.out ++ [o] }
/-- A number that names nothing yet. -/
def State.bump (s : State) : State := { s with seq := s.seq + 1 }
/-- The next free value (log entry 5). -/
def State.free (s : State) : Byte × State := (Config.freeByte s.freeCtr, { s with freeCtr := s.freeCtr + 1 })
/-- n fresh bytes that nothing constrains (log entry 5). -/
def State.freeBytes (s : State) : Nat → List Byte × State
  | 0 => ([], s)
  | n + 1 =>
    let a := s.free
    let r := a.2.freeBytes n
    (a.1 :: r.1, r.2)

/-! Geometry (R12, R13). -/

def siteTier (i : Nat) : Nat := i / 7744
def siteX (i : Nat) : Nat := i % 7744 % 88
def siteY (i : Nat) : Nat := i % 7744 / 88
def twin (i : Nat) : Nat := if i < 7744 then i + 7744 else i - 7744
def clusterOf (i : Nat) : Nat := siteY i / 8 * 11 + siteX i / 8
def clusterBit (i : Nat) : Nat := siteTier i * 64 + siteY i % 8 * 8 + siteX i % 8
def pairOf (i : Nat) : Nat := i % 7744
/-- The sites of a cluster in placement order: pairs by (y mod 8) × 8 + (x mod 8), lower tier first (R366). -/
def clusterSites (cl : Nat) : List Nat :=
  (List.range 128).map fun j => j % 2 * 7744 + (cl / 11 * 8 + j / 2 / 8) * 88 + (cl % 11 * 8 + j / 2 % 8)

/-- A site is in the pool (R19, R20). -/
def State.good (s : State) (i : Nat) : Bool := bitAt (s.cluster (clusterOf i)).pool (clusterBit i)

/-- The core cycle of a site is one of those of halved issue in which nothing starts (R423). -/
def State.oddCycle (s : State) (site : Nat) : Bool :=
  let h := (s.cluster (clusterOf site)).halved
  decide (0 < h) && decide (h < 65) && h % 2 == 1

/-- The partition that owns a site's cluster. -/
def State.partOf (s : State) (i : Nat) : Nat := (s.cluster (clusterOf i)).part.getD 0

/-- VA[55]: the device half (R52). -/
def devHalf (va : Nat) : Bool := va / 2 ^ 55 % 2 == 1

/-- The hash of VA[55:16] (R60). -/
def pageHash (va : Nat) : Nat :=
  let g := va / 65536 % 2 ^ 40
  g ^^^ (g / 2 ^ 13) ^^^ (g / 2 ^ 26)

def laneOf (va : Nat) : Nat := 1 + pageHash va % 7

/-- The home slice of an address in a partition, as cluster × 4 + slice (R60). -/
def Partition.home (p : Partition) (va : Nat) : Nat :=
  let o := pageHash va % (4 * p.clusters.length)
  p.clusters.getD (o / 4) 0 * 4 + o % 4

def State.homeOf (s : State) (p va : Nat) : Nat := (s.part p).home va

/-- The slices of a partition, by ordinal. -/
def Partition.sliceIds (p : Partition) : List Nat := p.clusters.flatMap fun c => [4 * c, 4 * c + 1, 4 * c + 2, 4 * c + 3]

/-! The focus core. -/

/-- The context in the tile's running slot. -/
def State.running (s : State) (site : Nat) : Option Nat := tget none (s.tile site).slots (s.tile site).run
def Tile.mcore (t : Tile) (compute : Bool) : MCore := if compute then t.compute else t.stage
def State.mcore (s : State) (c : CoreId) : MCore := (s.tile c.site).mcore c.compute
def State.modMcore (s : State) (c : CoreId) (f : MCore → MCore) : State :=
  s.modTile c.site fun t => if c.compute then { t with compute := f t.compute } else { t with stage := f t.stage }
/-- Monitor mode of the focus core (R216). -/
def State.monitor (s : State) : Bool := (s.mcore s.focus).mode
/-- The context the focus core acts for: in monitor mode the context of the trapping slot (R382). -/
def State.myCtx (s : State) : Option Nat :=
  if s.monitor then (s.mcore s.focus).trapCtx else s.running s.focus.site
def State.me (s : State) : Nat := s.myCtx.getD 0
def State.myKey (s : State) : Nat := coreKey s.me s.focus.compute
def State.myRegion (s : State) : Nat := ctxRegion s.me
def State.my (s : State) : Core := s.core s.myKey
def State.modMy (s : State) (f : Core → Core) : State := s.modCore s.myKey f
def State.mySlot (s : State) : Nat := (s.tile s.focus.site).run

/-- The partition of a context or core. -/
def State.ctxPart (s : State) (x : Nat) : Nat := (s.region (ctxRegion x)).part
def coreCtx (k : Nat) : Nat := k / 2
def coreCompute (k : Nat) : Bool := k % 2 == 1
def State.corePart (s : State) (k : Nat) : Nat := s.ctxPart (coreCtx k)
/-- The physical core a context's core has while it is resident. -/
def State.coreId (s : State) (k : Nat) : CoreId := { site := (s.ctx (coreCtx k)).site, compute := coreCompute k }
/-- The origin of a core's stamps (R89). -/
def State.originOf (s : State) (k : Nat) : Nat :=
  (s.ctx (coreCtx k)).site * 8 + k % 2 * 4 + (s.ctx (coreCtx k)).slot

/-! Regions (R323). -/

/-- The ancestors of a region, itself first; the tree is at most 8 deep. -/
def State.chainOf (s : State) (r : Nat) : (fuel : Nat) → List Nat
  | 0 => []
  | n + 1 => r :: (match (s.region r).parent with | some p => s.chainOf p n | none => [])
def State.ancestors (s : State) (r : Nat) : List Nat := s.chainOf r 8
def State.rootOf (s : State) (r : Nat) : Nat := (s.ancestors r).getLastD r
/-- The region that gives the field of OVR bit b to region r. -/
def State.giver (s : State) (b r : Nat) : Nat :=
  ((s.ancestors r).find? fun a => (s.region a).blk.ovr / 2 ^ b % 2 == 1).getD (s.rootOf r)
def State.inh (s : State) (b r : Nat) : Block := (s.region (s.giver b r)).blk
def State.prio (s : State) (r : Nat) : Nat := (s.inh 0 r).prio
def State.rflags (s : State) (r : Nat) : Nat := (s.inh 1 r).flags
def State.duplex (s : State) (r : Nat) : Bool := s.rflags r % 2 == 1
def State.autorel (s : State) (r : Nat) : Bool := s.rflags r / 2 % 2 == 1
def State.notify (s : State) (r : Nat) : Bool := s.rflags r / 4 % 2 == 1
def State.trailArea (s : State) (r : Nat) : Nat := 2 ^ (s.inh 6 r).trailsz
/-- A region is suspended while a bucket of its chain holds TOK ≤ 0 (R325). -/
def State.suspended (s : State) (r : Nat) : Bool :=
  (s.ancestors r).any fun a =>
    let g := s.region a
    (g.blk.ovr / 2 ^ 4 % 2 == 1 && decide (g.opsTok ≤ 0)) || (g.blk.ovr / 2 ^ 5 % 2 == 1 && decide (g.occTok ≤ 0))
/-- A region runs: launched, STATE 0, not suspended. -/
def State.regionRuns (s : State) (r : Nat) : Bool :=
  (s.region r).launched && (s.region r).st == 0 && !s.suspended r
def State.gridSize (s : State) (r : Nat) : Nat := (s.region r).blk.width * (s.region r).blk.height

/-- Debits n occupancy units of partition p's channel to region r and its ancestors (R83). -/
def State.debitOcc (s : State) (r : Nat) (n : Nat) : State :=
  (s.ancestors r).foldl (fun s a => s.modRegion a fun g =>
    if g.blk.ovr / 2 ^ 5 % 2 == 1 then { g with occTok := g.occTok - n } else g) s

/-- Two digests of a segment differ: its third run is under way (R393). -/
def Core.thirdRun (c : Core) : Bool := match c.digests with
  | [a, b] => a != b
  | _ => false

/-- How many runs a segment of a context's compute core has: both of a duplex region's contexts run it, and the primary alone a third time
(R391, R393). -/
def State.runsOf (s : State) (x seg : Nat) : Nat :=
  let c := s.core (coreKey x true)
  if s.duplex (ctxRegion x) && !(c.thirdRun && c.seg == seg) then 2 else 1

/-- Adds weighted MACs of a segment of a context to the partition's meter and debits whole units from the buckets, for each run of it
(R391, R393, R405). -/
def State.chargeOps (s : State) (x seg macs : Nat) : State :=
  let r := ctxRegion x
  let macs := s.runsOf x seg * macs
  let p := (s.region r).part
  let s := s.modPart p fun q =>
    { q with ops := min (2 ^ 64 - 1) (q.ops + (q.opsFrac + macs) / 256), opsFrac := (q.opsFrac + macs) % 256 }
  (s.ancestors r).foldl (fun s a => s.modRegion a fun g =>
    if g.blk.ovr / 2 ^ 4 % 2 == 1 then
      { g with opsTok := g.opsTok - ((s.region r).opsRem + macs) / 256 }
    else g) s |>.modRegion r fun g => { g with opsRem := (g.opsRem + macs) % 256 }

/-- HOSTB, which stands still in a partition that is disabled, and the port's count (R400, R406, R414). -/
def State.chargeHost (s : State) (p port n : Nat) : State :=
  (s.modPart p fun q => { q with hostb := if q.enabled then min (2 ^ 64 - 1) (q.hostb + n) else q.hostb }).modPort port fun t => { t with bytes := t.bytes + n }

/-- The port nearest a cluster (R66). -/
def nearestPort (cl : Nat) : Nat :=
  let cx := cl % 11
  let cy := cl / 11
  let best (i d j e : Nat) : Nat × Nat := if e < d then (j, e) else (i, d)
  let a := best 0 cy 1 (10 - cx)
  let b := best a.1 a.2 2 (10 - cy)
  (best b.1 b.2 3 cx).1

/-- The VF bound to a region's root (R401, R403). -/
def State.vfOf (s : State) (r : Nat) : Option Nat :=
  let root := s.rootOf r
  (s.vfs.find? fun e => e.2.en && e.2.part == (s.region root).part && e.2.root == (s.region root).blk.va).map (·.1)

end Sys2Proof.Machine
end

