-- ==== Sys2Proof/Machine/Memory.lean ====
section
/-! DEFINITION. Device and host memory: rim memory with tags and occupancy (03 R58, 04 R76 to R83), device tables and the
walk (R62 to R65), slice translation buffers (R68), host translations (R66, R67), and the version chains of lines (R96).
-/

namespace Sys2Proof.Machine

open Sys2Proof

/-! Rim memory. -/

/-- Pseudo-channel and byte offset of a rim address of a partition (R76). -/
def Partition.place (p : Partition) (pa : Nat) : Nat × Nat :=
  let o := pa - p.base * 2 ^ 28
  let n := o / 4096
  (p.pclist.getD (n % p.pccount) 0, n / p.pccount * 4096 + o % 4096)
/-- The cell of a rim address: pseudo-channel × 2^28 + offset. -/
def Partition.cell (p : Partition) (pa : Nat) : Nat := (p.place pa).1 * 2 ^ 28 + (p.place pa).2

/-- Rim addresses [lo, hi) lie in the allocation (R76). -/
def Partition.inside (p : Partition) (lo hi : Nat) : Bool :=
  p.rimEn && decide (p.base * 2 ^ 28 ≤ lo) && decide (hi ≤ (p.base + p.pccount) * 2 ^ 28)

/-- n bytes of a partition's rim memory from rim address a (R76). -/
def State.rimRead (s : State) (p : Partition) (a : Nat) : (n : Nat) → Nat
  | 0 => 0
  | n + 1 => (tget 0#8 s.rim (p.cell a)).toNat + 256 * s.rimRead p (a + 1) n
def rimPut (p : Partition) (t : List Host.Cell) (a : Nat) : (n x : Nat) → List Host.Cell
  | 0, _ => t
  | n + 1, x => rimPut p (tput 0#8 (p.cell a) (BitVec.ofNat 8 x) t) (a + 1) n (x / 256)
def State.rimWrite (s : State) (p : Partition) (a n x : Nat) : State := { s with rim := rimPut p s.rim a n x }

/-- Zeroes the cells [lo, hi) with their tags and codes (R77). -/
def State.zeroCells (s : State) (lo hi : Nat) : State :=
  { s with
    rim := s.rim.filter fun e => decide (e.1 < lo ∨ hi ≤ e.1)
    rimTags := s.rimTags.filter fun e => decide (e.1 < lo / 16 ∨ hi / 16 ≤ e.1)
    poison := s.poison.filter fun e => decide (e.1 < lo / 64 ∨ hi / 64 ≤ e.1) }
/-- Zeroes the frame at rim address fr of a partition. -/
def State.zeroFrame (s : State) (p : Partition) (fr : Nat) : State :=
  (List.range 16).foldl (fun s i => s.zeroCells (p.cell (fr + 4096 * i)) (p.cell (fr + 4096 * i) + 4096)) s

/-- The line of rim address pa is poisoned (R386). -/
def State.poisoned (s : State) (p : Partition) (pa : Nat) : Bool := tget false s.poison (p.cell pa / 64)

/-- The tags of the four granules of line l (R58). -/
def State.rimLineTags (s : State) (p : Partition) (l : Nat) : BitVec 4 :=
  let c := p.cell (64 * l) / 16
  BitVec.ofNat 4 ((List.range 4).foldl (fun n i => n + bit01 (tget false s.rimTags (c + i)) * 2 ^ i) 0)
def State.setRimLineTags (s : State) (p : Partition) (l : Nat) (t : BitVec 4) : State :=
  let c := p.cell (64 * l) / 16
  { s with rimTags := (List.range 4).foldl (fun m i => tput false (c + i) (bitAt t i) m) s.rimTags }

/-- Queues the 64-byte bursts of an access to [pa, pa + n) for a region, none for the physical function (R81, R82). -/
def State.rimTouch (s : State) (p : Nat) (reg : Option Nat) (write : Bool) (pa n : Nat) : State :=
  (List.range ((pa + n + 63) / 64 - pa / 64)).foldl (fun s i =>
    let at_ := (s.part p).place ((pa / 64 + i) * 64)
    let q := (s.chan at_.1).queue
    let s := s.modChan at_.1 fun c => { c with queue := q ++ [{ row := at_.2 / 1024, write := write, region := reg }] }
    if q.isEmpty then s.post (.rimCommandIssue at_.1) else s) s

/-- Every slice of the partition drops its cached line that holds a rim address (R72). -/
def State.dropLine (s : State) (p pa : Nat) : State :=
  (s.part p).sliceIds.foldl (fun s i => s.modSlice i fun l => { l with chains := tput none (pa / 64) none l.chains }) s

/-! Device tables (R62). -/

def pteV (e : Nat) : Bool := e % 2 == 1
def pteLeaf (e : Nat) : Bool := e / 2 % 2 == 1
def pteW (e : Nat) : Bool := e / 4 % 2 == 1
def pteXE (e : Nat) : Bool := e / 8 % 2 == 1
def pteTG (e : Nat) : Bool := e / 16 % 2 == 1
def pteSH (e : Nat) : Bool := e / 32 % 2 == 1
def pteA (e : Nat) : Bool := e / 64 % 2 == 1
def pteDY (e : Nat) : Bool := e / 128 % 2 == 1
def pteFrame (e : Nat) : Nat := e / 2 ^ 16 % 2 ^ 32 * 2 ^ 16
def pteSet (bit : Nat) (e : Nat) : Nat := if e / 2 ^ bit % 2 == 1 then e else e + 2 ^ bit
def pteClear (bit : Nat) (e : Nat) : Nat := if e / 2 ^ bit % 2 == 1 then e - 2 ^ bit else e

/-- A leaf found by a walk: entry, its rim address, and the size of what it maps. -/
structure Leaf where
  pte : Nat
  pteAt : Nat
  size : Nat
  deriving DecidableEq, Repr

/-- The table part of the walk from level lvl at table t (R63). -/
def walkFrom (s : State) (p : Partition) (va : Nat) : (fuel lvl t : Nat) → Except FaultKind Leaf
  | 0, _, _ => .error .malformed
  | n + 1, lvl, t =>
    if !p.inside t (t + 65536) then .error .range
    else
      let pteAt := t + 8 * (va / 2 ^ (42 - 13 * (lvl - 1)) % 8192)
      let e := s.rimRead p pteAt 8
      if !pteV e then .error .notvalid
      else if e / 2 ^ 8 % 256 != 0 || e / 2 ^ 48 % 256 != 0 then .error .malformed
      else if e / 2 ^ 56 != p.key.toNat then .error .key
      else if pteLeaf e then
        let lo := 55 - 13 * lvl
        if pteFrame e % 2 ^ lo != 0 then .error .malformed
        else .ok { pte := e, pteAt := pteAt, size := 2 ^ lo }
      else if lvl == 3 || e / 4 % 64 != 0 then .error .malformed
      else walkFrom s p va n (lvl + 1) (pteFrame e)

def walk (s : State) (p : Partition) (va : Nat) : Except FaultKind Leaf := walkFrom s p va 3 1 p.ptroot.toNat

/-- The rim lines a walk reads, for its charge: one entry per level reached. -/
def walkReads (s : State) (p : Partition) (va : Nat) : (fuel lvl t : Nat) → List Nat
  | 0, _, _ => []
  | n + 1, lvl, t =>
    if !p.inside t (t + 65536) then []
    else
      let pteAt := t + 8 * (va / 2 ^ (42 - 13 * (lvl - 1)) % 8192)
      let e := s.rimRead p pteAt 8
      if pteV e && !pteLeaf e && lvl != 3 then pteAt :: walkReads s p va n (lvl + 1) (pteFrame e) else [pteAt]

/-- The outcome of a translation: physical address, a page fault, or a wait for the host's completion. -/
inductive Tr where
  | ok (pa : Nat)
  | fault (k : FaultKind)
  | wait
  deriving DecidableEq, Repr

def StbEntry.covers (e : StbEntry) (va : Nat) : Bool := decide (e.va ≤ va) && decide (va < e.va + e.size)

/-- Changes a leaf by f, in rim memory as it stands there and in the buffer entries that hold it (R64, R65). -/
def State.setLeaf (s : State) (p sl pteAt : Nat) (f : Nat → Nat) (reg : Option Nat) : State :=
  ((s.rimWrite (s.part p) pteAt 8 (f (s.rimRead (s.part p) pteAt 8))).rimTouch p reg true pteAt 8).modSlice sl fun l =>
    { l with stb := l.stb.map fun e => if e.dev && e.pteAt == pteAt then { e with pte := f e.pte } else e }

/-- An entry without A and DY. -/
def pteBare (e : Nat) : Nat := pteClear 6 (pteClear 7 e)

/-- Sets A or DY of a leaf a buffer holds as pte; an entry written anew since then is left as it is (R65, R72; log entry 58). -/
def State.markLeaf (s : State) (p sl pteAt pte : Nat) (f : Nat → Nat) (reg : Nat) : State :=
  if pteBare (s.rimRead (s.part p) pteAt 8) = pteBare pte then s.setLeaf p sl pteAt f (some reg)
  else s.modSlice sl fun l => { l with stb := l.stb.map fun e => if e.dev && e.pteAt == pteAt then { e with pte := f e.pte } else e }

/-- Entries of a slice translation buffer (R68). -/
def stbRoom : Nat := 4096

/-- Pages a publication still has to fold. -/
def Pub.pagesLeft (p : Pub) : List Nat :=
  p.shares.flatMap fun e => match e.2 with
    | some h => if h.st == .folded || h.st == .rejected then [] else h.writes.map (·.g / 4096) ++ h.pages
    | none => []

/-- A notice translated with an entry has still to fold (R68). -/
def State.noticeUses (s : State) (p : Nat) (e : StbEntry) : Bool :=
  s.pubs.any fun q => q.2.any fun q => q.part == p && q.pagesLeft.any fun g => decide (e.va < (g + 1) * 65536) && decide (g * 65536 < e.va + e.size)

/-- Takes an entry into the buffer, which first drops, where it has no room, the oldest that no notice under way was translated with (R68;
log entry 6). -/
def State.addStb (s : State) (p sl : Nat) (e : StbEntry) : State :=
  let old := (s.slice sl).stb
  let kept := if old.length < stbRoom then old else match old.find? fun x => !s.noticeUses p x with
    | some x => old.erase x
    | none => old
  s.modSlice sl fun l => { l with stb := kept ++ [e] }

/-- The frame a view or fold stamp v reads at a page: the staged frame from the flip on (R64, R112). -/
def frameAt (st : Option Staging) (leafFrame : Nat) (v : Stamp) : Nat :=
  match st with
  | some g => match g.flip with
    | some f => if f ≤ v then g.new else g.old
    | none => g.old
  | none => leafFrame

/-- Access that needs W. -/
def Access.writes (a : Access) : Bool := match a with | .store => true | .tstore => true | .atomic => true | _ => false

/-- Device-half translation at home slice sl, for a requester of region reg at view or fold stamp v (R63 to R65); dirty sets
DY. -/
def translateDev (s : State) (p sl va : Nat) (acc : Access) (reg : Nat) (v : Stamp) (dirty : Bool) : Tr × State :=
  let q := s.part p
  let found : Except FaultKind Leaf × State :=
    match (s.slice sl).stb.find? fun e => e.dev && e.covers va with
    | some e => (.ok { pte := e.pte, pteAt := e.pteAt, size := e.size }, s)
    | none =>
      let s := (walkReads s q va 3 1 q.ptroot.toNat).foldl (fun s a => s.rimTouch p (some reg) false a 8) s
      (walk s q va, s)
  match found with
  | (.error k, s) => (.fault k, s)
  | (.ok f, s) =>
    let page := va / 65536
    let st := tget none (s.slice sl).staging page
    if pteSH f.pte && st.isNone then (.fault .malformed, s)
    else
      let leafPa := pteFrame f.pte + va % f.size
      let pa := if pteSH f.pte then frameAt st (pteFrame f.pte) v + va % 65536 else leafPa
      if !q.inside pa (pa + 1) then (.fault .range, s)
      else if acc.writes && !pteW f.pte then (.fault .nowrite, s)
      else if acc == .tstore && !pteTG f.pte then (.fault .notag, s)
      else if acc == .fetch && !pteXE f.pte then (.fault .noexec, s)
      else
        let cached := (s.slice sl).stb.any fun e => e.dev && e.covers va
        let mark (e : Nat) : Nat := (if dirty then pteSet 7 else id) ((if cached then id else pteSet 6) e)
        let s := if cached then s
          else s.addStb p sl { va := va - va % f.size, size := f.size, dev := true, frame := pteFrame f.pte, pteAt := f.pteAt, pte := f.pte }
        let s := if mark f.pte == f.pte then s else s.markLeaf p sl f.pteAt f.pte mark reg
        (.ok pa, s)

/-- The page by which requests to the host name an address: 4 KiB (R66; log entry 89). -/
def hostPage (va : Nat) : Nat := va / 4096

def HostReq.joined (h : HostReq) (who : Asker) : HostReq :=
  if who == .device || h.waiting.contains who then h else { h with waiting := h.waiting ++ [who] }

/-- Sends an ATS request for a host page under the Requester ID and PASID of a VF, or joins the one under way (R66). -/
def State.askAts (s : State) (p sl page : Nat) (acc : Access) (vf : Nat) (who : Asker) : State :=
  let under (h : HostReq) : Bool := h.slice == sl && h.page == page && h.vf == some vf && !h.pri && !h.stale && h.denied.isEmpty
  match s.hostReqs.find? fun e => e.2.any under with
  | some e => { s with hostReqs := tput none e.1 (e.2.map (·.joined who)) s.hostReqs }
  | none =>
    let h : HostReq := { part := p, slice := sl, page := page, access := acc, vf := some vf, waiting := [] }
    let s1 := { s with hostReqs := tput none s.seq (some (h.joined who)) s.hostReqs }
    (s1.emit (.atsRequest (nearestPort (sl / 4)) vf (Config.pasid vf) page)).bump

/-- Host-half translation for the VF of a region (R66, R67): a buffer entry, a refusal that who has been told of, a page request under
way, or a request to the host. -/
def translateHost (s : State) (p sl va : Nat) (acc : Access) (reg : Nat) (who : Asker) : Tr × State :=
  match s.vfOf reg with
  | none => (.fault .hostdeny, s)
  | some vf =>
    let permits (e : StbEntry) : Bool := !e.dev && e.vf == some vf && e.covers va && if acc == .load then e.r else e.w
    match (s.slice sl).stb.find? permits with
    | some e => (.ok (e.frame + (va - e.va)), s)
    | none =>
      let here (f : HostReq → Bool) : Bool :=
        s.hostReqs.any fun e => e.2.any fun h => h.slice == sl && h.page == hostPage va && h.vf == some vf && f h
      if here fun h => h.denied.contains who then (.fault .hostdeny, s)
      else if here (·.pri) then (.fault .hostpri, s)
      else (.wait, s.askAts p sl (hostPage va) acc vf who)

/-- Askers that f names ask for nothing any more (R67). -/
def State.forget (s : State) (f : Asker → Bool) : State :=
  let left (h : HostReq) : Option HostReq :=
    let d := h.denied.filter fun a => !f a
    if !h.denied.isEmpty && d.isEmpty then none else some { h with waiting := h.waiting.filter fun a => !f a, denied := d }
  { s with hostReqs := s.hostReqs.filterMap fun (e : Nat × Option HostReq) => (e.2.bind left).map fun h => (e.1, some h) }

/-- State s, which a read begun in s0 has come to that waits for the host: it has moved no byte yet (R406). -/
def State.unmoved (s s0 : State) (p : Nat) : State :=
  { s with ports := s0.ports }.modPart p fun q => { q with hostb := (s0.part p).hostb }

/-- Translation of a VA for a region at its home slice (R70); dirty sets DY. -/
def translateFor (s : State) (p va : Nat) (acc : Access) (reg : Nat) (v : Stamp) (who : Asker) (dirty : Bool) : Tr × State :=
  let sl := s.homeOf p va
  if devHalf va then translateDev s p sl va acc reg v dirty else translateHost s p sl va acc reg who

/-- Translation for a load or fetch, for a REL's stores or for an atomic, which set DY (R65). -/
def translate (s : State) (p va : Nat) (acc : Access) (reg : Nat) (v : Stamp) (who : Asker) : Tr × State :=
  translateFor s p va acc reg v who acc.writes

/-- Translation of a write that leaves DY alone: a copy chunk, a fold, CSHD's staging (R65). -/
def translateClean (s : State) (p va : Nat) (acc : Access) (reg : Nat) (v : Stamp) (who : Asker) : Tr × State :=
  translateFor s p va acc reg v who false

/-! Version chains (R96). -/

/-- Bytes of new where the mask has its bit, of old elsewhere. -/
def mixBytes (n : Nat) (mask old new : Nat) : Nat :=
  (List.range n).foldl (fun x i => x + (if mask / 2 ^ i % 2 == 1 then new else old) / 256 ^ i % 256 * 256 ^ i) 0

/-- A line with one write laid over it, tags with it (R58). -/
def LineWrite.over (w : LineWrite) (l : BitVec 512 × BitVec 4) : BitVec 512 × BitVec 4 :=
  (BitVec.ofNat 512 (mixBytes 64 w.mask.toNat l.1.toNat w.data.toNat),
   BitVec.ofNat 4 ((List.range 4).foldl (fun n i =>
     n + (if w.mask.toNat / 2 ^ (16 * i) % 65536 == 0 then bit01 (bitAt l.2 i) else bit01 (bitAt w.tags i)) * 2 ^ i) 0))

/-- The version of a chain at stamp v. -/
def Chain.at (c : Chain) (v : Stamp) : BitVec 512 × BitVec 4 :=
  (c.writes.filter fun w => decide (w.stamp ≤ v)).foldl (fun l w => w.over l) (c.base, c.tags)

/-- The newest version. -/
def Chain.newest (c : Chain) : BitVec 512 × BitVec 4 := c.writes.foldl (fun l w => w.over l) (c.base, c.tags)
def Chain.newestStamp (c : Chain) : Stamp := (c.writes.getLast?.map (·.stamp)).getD 0

def insertWrite (w : LineWrite) : List LineWrite → List LineWrite
  | [] => [w]
  | x :: t => if w.stamp < x.stamp then w :: x :: t else x :: insertWrite w t

/-- Collapses every write that a newer one at or below the floor supersedes (R99). -/
def Chain.freeTo (c : Chain) (floor : Stamp) : Chain :=
  let l := c.at floor
  { base := l.1, tags := l.2, writes := c.writes.filter fun w => decide (floor < w.stamp) }

/-- Lines of 64 bytes in a slice's 3 MiB line cache (R16, R78). -/
def lineRoom : Nat := 49152

/-- Takes a line into a slice. Where the cache has no room it first drops a line of which no superseded version is kept, the one of
the lowest address (R78, R100; log entry 6). -/
def Slice.addLine (x : Slice) (l : Nat) (c : Chain) : Slice :=
  let t := if x.chains.length < lineRoom then x.chains
    else match x.chains.find? fun e => e.2.all fun c => c.writes.isEmpty with
      | some e => tput none e.1 none x.chains
      | none => x.chains
  { x with chains := tput none l (some c) t }

/-- What rim memory holds of line l, as a chain without versions (R96). -/
def State.lineOf (s : State) (p l : Nat) : Chain :=
  { base := BitVec.ofNat 512 (s.rimRead (s.part p) (l * 64) 64), tags := s.rimLineTags (s.part p) l, writes := [] }

/-- The chain of line l at slice sl, filled from rim memory when the slice does not hold it (R78, R96). -/
def State.chain (s : State) (p sl l : Nat) (reg : Option Nat) : Chain × State :=
  match tget none (s.slice sl).chains l with
  | some c => (c, s)
  | none =>
    let c := s.lineOf p l
    let s := (s.rimTouch p reg false (l * 64) 64).modPart p fun q => { q with ctr := { q.ctr with misses := q.ctr.misses + 1 } }
    (c, s.modSlice sl fun x => x.addLine l c)

/-- Lines in an atomic engine's store (R16). -/
def engineRoom : Nat := 256

/-- The chain of a line as a cluster's engine reads it: a line of the engine's own store needs no read of rim memory; the line
is then the last used there (R16, R108; log entry 6). -/
def State.engineChain (s : State) (cl p sl l : Nat) (reg : Option Nat) : Chain × State :=
  let lines := (s.cluster cl).engLines
  let r := match tget none (s.slice sl).chains l with
    | some c => (c, s)
    | none => if lines.contains l then (s.lineOf p l, s.modSlice sl fun x => x.addLine l (s.lineOf p l)) else s.chain p sl l reg
  let kept := lines.filter (· != l)
  (r.1, r.2.modCluster cl fun c => { c with engLines := kept.drop (kept.length + 1 - engineRoom) ++ [l] })

/-- Enters a write into a line: a new version in the chain, written through to rim memory (R96, R78, R108). -/
def State.enterWrite (s : State) (p sl l : Nat) (w : LineWrite) : State :=
  let (c, s) := s.chain p sl l (some w.region)
  let c := { c with writes := insertWrite w c.writes }
  let n := c.newest
  let s := s.modSlice sl fun x => { x with chains := tput none l (some c) x.chains }
  let q := s.part p
  let s := ((s.rimWrite q (l * 64) 64 n.1.toNat).setRimLineTags q l n.2).rimTouch p (some w.region) true (l * 64) 64
  if w.mask = BitVec.allOnes 64 then { s with poison := tput false (q.cell (64 * l) / 64) false s.poison } else s

/-- Versions a slice keeps beside the newest of each line. -/
def Slice.kept (l : Slice) : Nat := l.chains.foldl (fun n e => n + (e.2.map fun c => c.writes.length).getD 0) 0
/-- The lowest stamp among the versions kept (R100). -/
def Slice.oldest (l : Slice) : Option Stamp :=
  l.chains.foldl (fun m e => match e.2.bind (·.writes.head?) with
    | some w => some (match m with | some x => min x w.stamp | none => w.stamp)
    | none => m) none

/-- A later write of a line laid over an earlier one of the same fold (R96, R58). -/
def LineWrite.merge (a b : LineWrite) : LineWrite :=
  let l := b.over (a.data, a.tags)
  { a with mask := a.mask ||| b.mask, data := l.1, tags := l.2 }

/-- One granule write as a write of its line. -/
def TrailEntry.lineWrite (e : TrailEntry) (pa : Nat) (st : Stamp) (reg : Nat) : LineWrite :=
  let i := pa / 16 % 4
  { stamp := st, mask := BitVec.ofNat 64 (e.mask.toNat * 2 ^ (16 * i)), data := BitVec.ofNat 512 (e.data.toNat * 2 ^ (128 * i)),
    tags := BitVec.ofNat 4 (bit01 e.tag * 2 ^ i), region := reg }

/-- The granule writes of one line as one write of it, the later ones over the earlier (R96). -/
def lineOfWrites (st : Stamp) (reg : Nat) (es : List TrailEntry) : LineWrite :=
  es.foldl (fun w e => w.merge (e.lineWrite (16 * e.g) st reg)) { stamp := st, mask := 0#64, data := 0#512, tags := 0#4, region := reg }

/-- The rim address lies in a region's swap area, private to the device: what is read there through a leaf is not
defined (R88, R297, R362; log entry 5). -/
def State.privateAt (s : State) (p pa : Nat) : Bool :=
  let fr := pa / 65536 * 65536
  s.ctxs.any (fun e => s.ctxPart e.1 == p && e.2.trailFrames.contains fr) || s.regions.any fun e => e.2.part == p && e.2.area.contains fr

/-- Reading n ≤ 64 bytes of one granule or line, translated: value and the granule's tag in the version at v; host memory as it
stands (R101). none for a poisoned line (R386). A private area gives free bytes without a tag. -/
def State.readPa (s : State) (p sl pa n : Nat) (dev : Bool) (reg : Nat) (v : Option Stamp) : Option (Nat × Bool) × State :=
  if dev then
    if s.poisoned (s.part p) pa then (none, s)
    else
      let priv := s.privateAt p pa
      let (c, s) := s.chain p sl (pa / 64) (some reg)
      if priv then
        let r := s.freeBytes n
        (some (leNat r.1, false), r.2)
      else
        let l := match v with | some v => c.at v | none => c.newest
        (some (l.1.toNat / 256 ^ (pa % 64) % 256 ^ n, bitAt l.2 (pa % 64 / 16)), s)
  else (some (tread s.host pa n, false), s.chargeHost p (nearestPort (sl / 4)) n)

/-- Host-half write of a line at host address pa; a byte that an atomic of a higher stamp wrote stays (R79, R109). -/
def State.hostWriteLine (s : State) (p sl pa : Nat) (w : LineWrite) : State :=
  (List.range 64).foldl (fun s i =>
    if bitAt w.mask i then
      let s := s.chargeHost p (nearestPort (sl / 4)) 1
      if w.stamp < tget 0 (s.slice sl).hostAtoms (pa + i) then s
      else { s with host := tput 0#8 (pa + i) (BitVec.ofNat 8 (w.data.toNat / 256 ^ i)) s.host }
    else s) s

/-- An atomic's write of host bytes, with its stamp (R109, R110). -/
def State.hostAtomWrite (s : State) (sl pa n x : Nat) (st : Stamp) : State :=
  { s with host := twrite s.host pa n x }.modSlice sl fun l =>
    { l with hostAtoms := (List.range n).foldl (fun t i => tput 0 (pa + i) st t) l.hostAtoms }

end Sys2Proof.Machine
end

