-- ==== Sys2Proof/Machine/Trail.lean ====
section
/-! DEFINITION. Trails, releases, publication, folding and the frontier (05 R86 to R107, R111 to R115). A publication is
one record whose shares tell how far each home slice has come (log entries 6, 7, 15). -/

namespace Sys2Proof.Machine

open Sys2Proof

/-! The trail (R86, R87). -/

/-- The granule writes of an n-byte value at va, n ≤ 16. -/
def granuleWrites (va n x : Nat) (tag : Bool) : List TrailEntry :=
  let o := va % 16
  let n1 := min n (16 - o)
  let one (g o n x : Nat) : TrailEntry :=
    { g := g, data := BitVec.ofNat 128 (x % 256 ^ n * 256 ^ o), mask := BitVec.ofNat 16 ((2 ^ n - 1) * 2 ^ o), tag := tag }
  if n1 = 0 then [] else if n ≤ n1 then [one (va / 16) o n x] else [one (va / 16) o n1 x, one (va / 16 + 1) 0 (n - n1) (x / 256 ^ n1)]

/-- The newer entry laid over the older one of the same granule (R87, R58). -/
def TrailEntry.merge (old new : TrailEntry) : TrailEntry :=
  { g := old.g, data := BitVec.ofNat 128 (mixBytes 16 new.mask.toNat old.data.toNat new.data.toNat),
    mask := old.mask ||| new.mask, tag := new.tag }

/-- Appends an entry or merges it into the entry of its granule (R87). -/
def trailAdd : List TrailEntry → TrailEntry → List TrailEntry
  | [], e => [e]
  | x :: t, e => if x.g = e.g then x.merge e :: t else x :: trailAdd t e

def trailAddAll (t : List TrailEntry) (es : List TrailEntry) : List TrailEntry := es.foldl trailAdd t

/-- Granules that a store would newly add (R107, R131). -/
def newGranules (t : List TrailEntry) (es : List TrailEntry) : Nat := (trailAddAll t es).length - t.length

/-- The entry of a granule. -/
def entryOf (t : List TrailEntry) (g : Nat) : Option TrailEntry := t.find? fun e => e.g == g

/-- The core's own trail as a list of segments, newest first: unsealed, then sealed with a stamp above V (R101). -/
def Core.ownSegs (c : Core) : List (List TrailEntry) :=
  c.trail :: ((c.sealedSegs.filter fun g => decide (c.view < g.stamp)).reverse.map (·.entries))

/-- The newest own trail entry that holds byte va (R101). -/
def Core.forward (c : Core) (va : Nat) : Option Byte :=
  c.ownSegs.findSome? fun t => (entryOf t (va / 16)).bind fun e =>
    if bitAt e.mask (va % 16) then some (BitVec.ofNat 8 (e.data.toNat / 256 ^ (va % 16))) else none

/-- The newest own trail entry of a granule (R124). -/
def Core.forwardEntry (c : Core) (g : Nat) : Option TrailEntry := c.ownSegs.findSome? fun t => entryOf t g

/-- Every entry that may forward, newest segment first. -/
def Core.entries (c : Core) : List TrailEntry := c.ownSegs.flatMap List.reverse

/-- Entries of a core's trail buffer (R88). -/
def bufferRoom : Nat := 1024

/-- The spilled entries that loads of these bytes forward from, by their place counted from the newest (R88, R101). -/
def Core.refills (c : Core) (vas : List Nat) : List Nat :=
  let es := c.entries
  if es.length ≤ bufferRoom then []
  else (vas.filterMap fun va => (es.findIdx? fun e => e.g == va / 16 && bitAt e.mask (va % 16)).bind fun i =>
    if bufferRoom ≤ i then some i else none).dedup

/-- Traffic of a context's swap area at a rim address; in a duplex region the shadow has its own with the same bursts (R82, R391). -/
def State.areaTouch (s : State) (x : Nat) (write : Bool) (pa n : Nat) : State :=
  let once (s : State) : State := s.rimTouch (s.ctxPart x) (some (ctxRegion x)) write pa n
  if s.duplex (ctxRegion x) then once (once s) else once s

/-- The rim address of byte o of the context's trail area, which is at the start of its frames; the compute core's entries begin in its
middle (R88, R363; log entry 32). -/
def State.trailAddr (s : State) (k o : Nat) : Nat :=
  let a := s.trailArea (ctxRegion (coreCtx k))
  let o := (o + k % 2 * (a / 2)) % a
  (s.ctx (coreCtx k)).trailFrames.getD (o / 65536) 0 + o % 65536

/-- Entries of a core's trail area, 32 bytes each, are read or written line by line, charged to its region (R81, R82, R88). -/
def State.trailTouch (s : State) (k : Nat) (write : Bool) (is : List Nat) : State :=
  if (s.ctx (coreCtx k)).trailFrames.isEmpty then s
  else ((is.map fun i => i / 2).dedup).foldl (fun s l => s.areaTouch (coreCtx k) write (s.trailAddr k (64 * l)) 64) s

/-- Entries sealed and not yet folded: FP has not passed their stamp (R88, R137). -/
def State.sealedCount (s : State) (k : Nat) : Nat :=
  (((s.core k).sealedSegs.filter fun g => decide ((s.part (s.corePart k)).fp < g.stamp)).map (·.entries.length)).sum

/-- Entries of the core's whole trail: unsealed, and sealed but not folded (R88). -/
def State.trailTotal (s : State) (k : Nat) : Nat := (s.core k).trail.length + s.sealedCount k

/-- Room left in the unsealed segment and in the whole trail (R88, R137). -/
def State.segRoom (s : State) (k : Nat) : Nat :=
  s.trailArea (ctxRegion (coreCtx k)) / 64 - (s.core k).trail.length
def State.trailRoom (s : State) (k : Nat) : Nat :=
  s.trailArea (ctxRegion (coreCtx k)) / 32 - (s.core k).trail.length - s.sealedCount k

/-! Views (R101 to R106). -/

/-- V := v; sealed segments at or below V no longer forward and leave the core. -/
def State.setView (s : State) (k : Nat) (v : Stamp) : State :=
  s.modCore k fun c => { c with view := v, sealedSegs := c.sealedSegs.filter fun g => decide (v < g.stamp) }

def State.fpOf (s : State) (k : Nat) : Stamp := (s.part (s.corePart k)).fp

/-- A horizon boundary is due: V is more than the phase horizon behind FP (R105). -/
def State.horizonDue (s : State) (k : Nat) : Bool :=
  let h := (s.inh 8 (ctxRegion (coreCtx k))).horizon
  decide (stampTick (s.core k).view + h < stampTick (s.fpOf k)) && (s.core k).act.isSome

/-- A pressure boundary is due (R100): V lies below the stamp, and the boundary would move V or has not been shown. -/
def State.pressureDue (s : State) (k : Nat) : Bool :=
  (s.core k).act.isSome && match (s.part (s.corePart k)).pressure with
  | some o => decide ((s.core k).view < o) && (decide ((s.core k).view < s.fpOf k) || !(s.core k).pressureBit)
  | none => false

def State.horizonBoundary (s : State) (k : Nat) : State :=
  if s.horizonDue k then (s.setView k (s.fpOf k)).modCore k fun c => { c with horizonBit := true } else s

def State.pressureBoundary (s : State) (k : Nat) : State :=
  if s.pressureDue k then (s.setView k (s.fpOf k)).modCore k fun c => { c with pressureBit := true } else s

/-! Release (R92). -/

/-- How a release begins: nothing to publish, publication started, a wait before it, or a translation fault. -/
inductive Rel where
  | empty
  | started (pub : Nat) (stamp : Stamp)
  | wait
  | fault (k : FaultKind) (va : Nat) (acc : Access)
  deriving DecidableEq, Repr

/-- A core may take a stamp in this tick (R90). -/
def State.mayStamp (s : State) (k : Nat) : Bool := (s.mcore (s.coreId k)).stampTick != some s.tick

/-- Takes the core's stamp (R89, R90). -/
def State.takeStamp (s : State) (k : Nat) : Stamp × State :=
  (mkStamp s.tick (s.originOf k), s.modMcore (s.coreId k) fun m => { m with stampTick := some s.tick })

/-- Commands a release of core k waits for: its copies to device memory and its CPUBs (R176, R195). -/
def CopyCmd.holdsRelease (c : CopyCmd) (compute : Bool) : Bool :=
  c.compute == compute && match c.kind with
  | .cpy out => out
  | .cpys out => out
  | .cpyv out => out
  | .cpub => true
  | _ => false

def Ctx.queues (x : Ctx) : List CopyQ := (List.range 4).map fun q => tget {} x.copyq q

/-- The waits before a release (R121, R176, R195). -/
def State.releaseReady (s : State) (k : Nat) : Bool :=
  (s.core k).reqs.all (fun e => e.2.isNone) &&
  (s.ctx (coreCtx k)).queues.all fun q => q.cmds.all fun c => !c.holdsRelease (coreCompute k)

/-- Every granule write of the core's segment: held chunks in order of acceptance, then its trail (R176). -/
def State.heldOf (s : State) (k : Nat) : List Held :=
  sortOn (·.order) (s.held.filter fun h => h.core == k && h.pub.isNone)

def pagesOf (ws : List TrailEntry) : List Nat := sortOn id (ws.map fun e => e.g / 4096).dedup

/-- An invalidation of a page is under way; a release that needs it waits, so that it ends (R68, R69). -/
def State.invalidating (s : State) (p va : Nat) : Bool :=
  s.invals.any fun e => e.2.any fun n => n.part == p && !n.dropped && decide (n.lo < va + 65536) && decide (va < n.hi) &&
    (!n.host || !devHalf va)

/-- Translates each page of a segment in ascending VA (R92, R73); a fault names the lowest granule written there, and TSTORE where
any granule of the page is tagged (R63; log entry 62). -/
def translatePages (s : State) (p reg : Nat) (st : Stamp) (who : Asker) (ws : List TrailEntry) : List Nat → Option Rel × State
  | [] => (none, s)
  | pg :: rest =>
    if s.invalidating p (pg * 65536) then (some .wait, s)
    else
    let here := ws.filter fun e => e.g / 4096 == pg
    let acc : Access := if here.any (·.tag) then .tstore else .store
    let va := ((here.map (·.g)).min?.getD 0) * 16
    match translate s p va acc reg st who with
    | (.ok _, s) => translatePages s p reg st who ws rest
    | (.fault k, s) => (some (.fault k va acc), s)
    | (.wait, s) => (some .wait, s)

/-- The shares of a segment by home slice. -/
def sharesOf (p : Partition) (ws : List TrailEntry) : Tbl (Option Share) :=
  ws.foldl (fun t e =>
    let sl := p.home (e.g * 16)
    let old : Share := (tget none t sl).getD { st := .sent, writes := [], pages := [] }
    tput none sl (some { old with writes := old.writes ++ [e] }) t) []

/-- Sends the notices of a publication (R92). -/
def State.sendNotices (s : State) (id : Nat) (flip : Bool) : State :=
  match s.pub id with
  | none => s
  | some p => p.shares.foldl (fun s e => s.post (if flip then .flipNotice id e.1 true else .sliceNotice id e.1 true)) s

/-- Seals the unsealed segment of core k and starts its publication (R92); the caller has seen releaseReady. -/
def State.beginRelease (s : State) (k : Nat) (ck : Option Checkpoint) (after : AfterRel) : Rel × State :=
  let hs := s.heldOf k
  let ws := (hs.flatMap (·.writes)) ++ (s.core k).trail
  if ws.isEmpty then (.empty, s)
  else if !s.mayStamp k then (.wait, s)
  else
    let p := s.corePart k
    let reg := ctxRegion (coreCtx k)
    match translatePages s p reg (mkStamp s.tick (s.originOf k)) (.core k) ws (pagesOf ws) with
    | (some r, s) => (r, s)
    | (none, s) =>
      let (st, s) := s.takeStamp k
      let id := s.seq
      let s := s.bump
      let s := s.setPub id (some { part := p, region := reg, core := k, stamp := st, shares := sharesOf (s.part p) ws,
                                   ckpt := ck, after := after })
      let s := { s with held := s.held.map fun (h : Held) => if h.core == k && h.pub.isNone then { h with pub := some id } else h }
      let s := s.modCore k fun c => { c with trail := [], stall := .release id,
                                             sealedSegs := c.sealedSegs ++ [{ pub := id, stamp := st, entries := c.trail }] }
      (.started id st, s.sendNotices id false)

/-! Slices (R93 to R97). -/

/-- The cap of a frontier at this tick (R97). -/
def State.cap (s : State) : Stamp := mkStamp (s.tick - 10803) 0x1FFFF * bit01 (decide (10803 ≤ s.tick))

/-- Publications with an accepted, unfolded notice at slice sl. -/
def State.pendingAt (s : State) (sl : Nat) : List (Nat × Stamp) :=
  s.pubs.filterMap fun e => e.2.bind fun p => (tget none p.shares sl).bind fun h =>
    if h.st == .accepted || h.st == .committed then some (e.1, p.stamp) else none

/-- The lowest stamp pending at a slice. -/
def State.lowestAt (s : State) (sl : Nat) : Option (Nat × Stamp) :=
  (s.pendingAt sl).foldl (fun m e => match m with | some x => if e.2 < x.2 then some e else some x | none => some e) none

/-- The slice's frontier F (R97). -/
def State.frontier (s : State) (sl : Nat) : Stamp :=
  match s.lowestAt sl with
  | some e => min s.cap (e.2 - 1)
  | none => s.cap

def Pub.allShares (p : Pub) (f : ShareSt → Bool) : Bool := p.shares.all fun e => e.2.all fun h => f h.st
def State.setShare (s : State) (id sl : Nat) (st : ShareSt) : State :=
  s.modPub id fun p => { p with shares := tput none sl ((tget none p.shares sl).map fun h => { h with st := st }) p.shares }

/-- A slice rejects a notice, which is counted (R93). -/
def State.rejectAt (s : State) (id sl : Nat) : State :=
  match s.pub id with
  | some p => (s.setShare id sl .rejected).modPart p.part fun q => { q with ctr := { q.ctr with rejects := q.ctr.rejects + 1 } }
  | none => s

/-- The replies of an attempt are complete: the core acts on them (R92). -/
def State.checkReplies (s : State) (id : Nat) : State :=
  match s.pub id with
  | some p => if p.allShares fun t => t != .sent && t != .delayed then s.post (.releaseReplies id) else s
  | none => s

/-- A notice arrives at a slice (R93). -/
def State.noticeAt (s : State) (id sl : Nat) (room : Bool) : State :=
  match s.pub id with
  | none => s
  | some p =>
    match tget none p.shares sl with
    | none => s
    | some h =>
      if h.st != .sent then s
      else if p.withdrawn then (s.setShare id sl .rejected).checkReplies id
      else if p.stamp ≤ s.frontier sl then
        (s.rejectAt id sl).checkReplies id
      else if room then (s.setShare id sl .accepted).checkReplies id
      else s.setShare id sl .delayed

/-- A slice sends a delayed ACCEPT; the frontier may not have passed the stamp meanwhile (R93, R97). -/
def State.acceptDelayed (s : State) (id sl : Nat) : State :=
  match (s.pub id).bind fun p => tget none p.shares sl with
  | some h => if h.st == .delayed then
      match s.pub id with
      | some p =>
        if p.withdrawn then (s.setShare id sl .rejected).checkReplies id
        else if p.stamp ≤ s.frontier sl then (s.rejectAt id sl).checkReplies id
        else (s.setShare id sl .accepted).checkReplies id
      | none => s
    else s
  | none => s

/-- A withdrawn publication whose notices are all gone is dropped. -/
def State.dropIfGone (s : State) (id : Nat) : State :=
  match s.pub id with
  | some p => if p.withdrawn && p.allShares (· == .rejected) then s.setPub id none else s
  | none => s

/-- A slice removes the notice of a withdrawn attempt (R94). -/
def State.withdrawAt (s : State) (id sl : Nat) : State :=
  match s.pub id with
  | none => s
  | some p => if p.committed then s else
    let s := s.setShare id sl .rejected
    match s.pub id with
    | some p => if p.allShares (· == .rejected) then (if p.withdrawn then s.dropIfGone id else s.post (.releaseReplies id)) else s
    | none => s

/-- The core has every reply: it commits, or withdraws and takes a new stamp in a later tick (R92). -/
def State.releaseReplies (s : State) (id : Nat) : State :=
  match s.pub id with
  | none => s
  | some p =>
    if p.committed then s
    else if p.withdrawn then
      p.shares.foldl (fun s e => if e.2.any fun h => h.st == .accepted then s.post (.sliceWithdraw id e.1) else s) (s.dropIfGone id)
    else if p.allShares (· == .accepted) then
      let s := s.modPub id fun p => { p with committed := true }
      p.shares.foldl (fun s e => s.post (.sliceCommit id e.1)) s
    else if p.allShares (· == .rejected) then
      if s.mayStamp p.core then
        let (st, s) := s.takeStamp p.core
        let s := s.modPub id fun p =>
          { p with stamp := st, shares := p.shares.map fun (e : Nat × Option Share) => (e.1, e.2.map fun h => { h with st := .sent }) }
        let s := s.modCore p.core fun c =>
          { c with sealedSegs := c.sealedSegs.map fun (g : SealedSeg) => if g.pub == id then { g with stamp := st } else g }
        s.sendNotices id (match p.after with | .flip _ _ => true | _ => false)
      else s.later (.releaseReplies id)
    else if p.allShares fun t => t == .accepted || t == .rejected then
      p.shares.foldl (fun s e => if e.2.any fun h => h.st == .accepted then s.post (.sliceWithdraw id e.1) else s) s
    else s

/-- A slice takes a commit; the last acknowledgment publishes (R92). -/
def State.commitAt (s : State) (id sl : Nat) : State :=
  match (s.pub id).bind fun p => (tget none p.shares sl).map fun h => (p, h) with
  | some (p, h) =>
    if p.committed && h.st == .accepted then
      let s := s.setShare id sl .committed
      match s.pub id with
      | some p => if p.allShares fun t => t == .committed || t == .folded then s.post (.segmentPublished id) else s
      | none => s
    else s
  | none => s

/-- A segment that every slice has folded and whose core knows it published leaves the table. -/
def State.dropIfFolded (s : State) (id : Nat) : State :=
  match s.pub id with
  | some p => if p.published && p.allShares (· == .folded) then s.setPub id none else s
  | none => s

/-- An overflow frame in which every chunk has folded or been dropped goes back to the pool (R177). -/
def State.trimOverflow (s : State) (p sl : Nat) : State :=
  let used (fr : Nat) : Bool := s.held.any fun h => h.slice == sl && h.frame.any fun f => f.1 == fr
  let fs := (s.slice sl).frames
  if fs.all used then s
  else (s.modSlice sl fun l => { l with frames := fs.filter used }).modPart p fun q => { q with swap := q.swap ++ fs.filter fun f => !used f }

/-- Drops held chunks (R177, R184). -/
def State.dropHeld (s : State) (p : Nat) (f : Held → Bool) : State :=
  let gone := s.held.filter f
  let s := { s with held := s.held.filter fun h => !f h }
  gone.foldl (fun s h =>
    (if h.frame.isSome then s else s.modSlice h.slice fun l => { l with held := l.held - h.size }).trimOverflow p h.slice) s

/-- The overflow chunks of a publication are read back for its fold, charged to the region that issued the copy (R177, R82). -/
def State.readHeld (s : State) (p id sl : Nat) : State :=
  (s.held.filter fun h => h.pub == some id && h.slice == sl).foldl (fun s h => match h.frame with
    | some f => s.rimTouch p (some h.region) false (f.1 + f.2) h.size
    | none => s) s

/-- Folds the writes es of a publication to line l of the VA space at slice sl: one write of the line, one version of it
(R96, R79). -/
def State.foldLine (s : State) (p sl reg : Nat) (st : Stamp) (l : Nat) (es : List TrailEntry) : State :=
  let w := lineOfWrites st reg es
  match translateClean s p (64 * l) (if es.any (·.tag) then .tstore else .store) reg st .device with
  | (.ok pa, s) => if devHalf (64 * l) then s.enterWrite p sl (pa / 64) w else s.hostWriteLine p sl pa w
  | (_, s) => s

/-- Superseded versions a slice has room for: 1 MiB of 64-byte versions (R100; log entry 7). -/
def versionRoom : Nat := 16384

/-- The version store of a slice is full (R100). -/
def Slice.noRoom (l : Slice) : Bool := decide (versionRoom ≤ l.kept)

/-- Folds the writes of a publication at slice sl, line by line, as far as the version store has room: the writes that are left, and the
state (R96, R100). -/
def State.foldWrites (s : State) (p sl reg : Nat) (st : Stamp) (ws : List TrailEntry) : List TrailEntry × State :=
  ((ws.map fun e => e.g / 4).dedup).foldl (fun (r : List TrailEntry × State) l =>
    if (r.2.slice sl).noRoom then r
    else (r.1.filter fun e => e.g / 4 != l, r.2.foldLine p sl reg st l (ws.filter fun e => e.g / 4 == l))) (ws, s)

/-- The edge of a buffer's last page: bytes that no CSHD covered, kept from the old frame at Pred(f) (R114). -/
def coveredAt (cs : List (Nat × Nat)) (o : Nat) : Bool := cs.any fun c => decide (c.1 ≤ o) && decide (o < c.2)

/-- Line i of the edge; a granule that a CSHD covered in part loses its tag (R58), one it did not touch keeps the old frame's (log entry 81). -/
def State.edgeLine (s : State) (p sl reg : Nat) (f : Stamp) (g : Staging) (i : Nat) : State :=
  let mask := (List.range 64).foldl (fun m b => if coveredAt g.cover (64 * i + b) then m else m + 2 ^ b) 0
  if mask = 0 then s
  else
    let (c, s) := s.chain p sl (g.old / 64 + i) (some reg)
    let l := c.at (f - 1)
    let whole := BitVec.ofNat 4 ((List.range 4).foldl (fun n j => if mask / 2 ^ (16 * j) % 65536 = 65535 then n + 2 ^ j else n) 0)
    s.enterWrite p sl (g.new / 64 + i)
      { stamp := f, mask := BitVec.ofNat 64 mask, data := l.1, tags := l.2 &&& whole, region := reg }

/-- Folds a flip at one page: from here on the staged frame serves views and folds at or above f (R112, R114). -/
def State.flipPage (s : State) (p sl reg : Nat) (f : Stamp) (last page : Nat) : State :=
  match tget none (s.slice sl).staging page with
  | none => s
  | some g =>
    let s := if page = last then (List.range 1024).foldl (fun s i => s.edgeLine p sl reg f g i) s else s
    s.modSlice sl fun l => { l with staging := tput none page (some { g with flip := some f }) l.staging }

/-- A publication the slice can fold now: the lowest pending, committed and at or below the cap (R96, R97). -/
def State.foldable (s : State) (sl : Nat) : Option Nat :=
  (s.lowestAt sl).bind fun e => (s.pub e.1).bind fun p => (tget none p.shares sl).bind fun h =>
    if h.st == .committed && decide (e.2 ≤ s.cap) then some e.1 else none

/-- Folds the flips of pages, as far as the version store has room: the pages that are left, and the state. -/
def State.flipPages (s : State) (p sl reg : Nat) (st : Stamp) (last : Nat) (pages : List Nat) : List Nat × State :=
  pages.foldl (fun (r : List Nat × State) g =>
    if (r.2.slice sl).noRoom then r else (r.1.filter (· != g), r.2.flipPage p sl reg st last g)) (pages, s)

/-- A slice whose version store is full stops folding, and its oldest version raises the partition's version pressure (R100). -/
def State.raisePressure (s : State) (p sl : Nat) : State :=
  if !(s.slice sl).noRoom then s
  else (s.modSlice sl fun l => { l with full := true }).modPart p fun q =>
    { q with pressure := match q.pressure, (s.slice sl).oldest with
                         | some a, some b => some (max a b)
                         | none, o => o
                         | a, none => a }

/-- SEGMENT_FOLD: folds what the version store has room for of the lowest publication, and raises version pressure where the store is full
(R96, R100). -/
def State.foldAt (s : State) (sl : Nat) : State :=
  match s.foldable sl with
  | none => s
  | some id =>
    match (s.pub id).bind fun p => (tget none p.shares sl).map fun h => (p, h) with
    | none => s
    | some (p, h) =>
      if (s.slice sl).noRoom then s.raisePressure p.part sl
      else
        let a := (if h.begun then s else s.readHeld p.part id sl).foldWrites p.part sl p.region p.stamp h.writes
        let b := if a.1.isEmpty then a.2.flipPages p.part sl p.region p.stamp p.lastPage h.pages else (h.pages, a.2)
        let s := b.2.modPub id fun p => { p with shares := tput none sl (some { h with writes := a.1, pages := b.1, begun := true }) p.shares }
        if !a.1.isEmpty || !b.1.isEmpty then s.raisePressure p.part sl
        else
          let s := ((s.setShare id sl .folded).dropHeld p.part fun h => h.pub == some id && h.slice == sl).dropIfFolded id
          let s := s.raisePressure p.part sl
          if (s.foldable sl).isSome && !(s.slice sl).noRoom then s.post (.segmentFold sl) else s

/-! Frontier and floor (R98, R99). -/

/-- The views that count in the floor: resident activations at most a horizon behind FP, the views their outstanding requests read
at, and the read stamps of the copies of contexts that are not swapped out (R99, R122, R175). -/
def State.floorViews (s : State) (p : Nat) (fp : Stamp) : List Stamp :=
  s.cores.filterMap (fun e =>
    let x := coreCtx e.1
    if s.ctxPart x == p && (s.ctx x).st == 1 && e.2.act.isSome && e.2.due.isNone &&
        decide (stampTick fp ≤ stampTick e.2.view + (s.inh 8 (ctxRegion x)).horizon) then some e.2.view else none) ++
  s.cores.flatMap (fun e =>
    if s.corePart e.1 == p then e.2.reqs.filterMap fun q => q.2.bind fun r => if r.done.isNone then some r.v else none else []) ++
  s.ctxs.flatMap (fun e =>
    if s.ctxPart e.1 == p && (e.2.st == 1 || (e.2.st == 3 && !e.2.coming)) then
      e.2.queues.flatMap fun q => (q.cmds.filter fun c => match c.kind with
        | .cpy out => !out
        | .cpys out => !out
        | .cpyv out => !out
        | .cpyg => true
        | _ => false).map (·.readStamp)
    else [])

/-- Version pressure as the full slices of a partition raise it now, none where none is full (R100). -/
def State.pressureNow (s : State) (p : Nat) : Option Stamp :=
  ((((s.part p).sliceIds.filter fun sl => (s.slice sl).full).filterMap fun sl => (s.slice sl).oldest).max?)

/-- FRONTIER_REDUCTION: FP, the floor, which is FP where no view counts (log entry 63), the versions at or below it freed, and folding
resumed where that made room (R98 to R100). -/
def State.reduce (s : State) (p : Nat) : State :=
  let q := s.part p
  let fs := q.sliceIds.map s.frontier
  let fp := max q.fp (fs.min?.getD q.fp)
  let floor := max q.floor (((s.floorViews p fp).min?).getD fp)
  let was := q.sliceIds.filter fun sl => (s.slice sl).full
  let s := s.modPart p fun q => { q with fp := fp, floor := floor }
  let s := q.sliceIds.foldl (fun s sl => s.modSlice sl fun l =>
    let l := { l with chains := l.chains.map fun (e : Nat × Option Chain) => (e.1, e.2.map fun (c : Chain) => c.freeTo floor) }
    { l with full := l.noRoom, hostAtoms := l.hostAtoms.filter fun (e : Nat × Stamp) => decide (fp < e.2) }) s
  let s := s.modPart p fun q => { q with pressure := s.pressureNow p }
  (was.filter fun sl => !(s.slice sl).full).foldl (fun s sl => s.post (.segmentFold sl)) s

/-- SHADOW_FINALISE: the floor has passed the flip; the staged frame enters the leaf (R115). -/
def State.shadowFinalise (s : State) (sl page : Nat) : State :=
  match tget none (s.slice sl).staging page with
  | some g =>
    let p := ((s.cluster (sl / 4)).part).getD 0
    if g.flip.any fun f => decide (f ≤ (s.part p).floor) then
      let s := s.setLeaf p sl g.pteAt (fun e => pteClear 5 (e % 2 ^ 16 + g.new / 2 ^ 16 * 2 ^ 16 + e / 2 ^ 48 * 2 ^ 48)) (some g.region)
      (s.modSlice sl fun l => { l with staging := tput none page none l.staging }).modPart p fun q =>
        { q with shadow := q.shadow ++ [g.old] }
    else s
  | none => s

end Sys2Proof.Machine
end

