-- ==== Sys2Proof/Machine/Ops.lean ====
section
/-! DEFINITION. The shared operations: c registers (R53, R56), messages leaving (R95, R455), fault reports (R387), kills
(R388), viral clusters (R394), taking a trap (R383) and returning from one (R385), releases as an instruction makes them
(R92), and the frame in which every instruction issues (R39, R47, R121). -/

namespace Sys2Proof.Machine

open Sys2Proof

/-! Capability fields (R53). -/

def CReg.addr (c : CReg) : Nat := c.bits.toNat % 2 ^ 56
def CReg.base (c : CReg) : Nat := c.bits.toNat / 2 ^ 56 % 2 ^ 56
def CReg.len (c : CReg) : Nat := c.bits.toNat / 2 ^ 112 % 2 ^ 7 * 2 ^ (c.bits.toNat / 2 ^ 119 % 2 ^ 5)
def CReg.top (c : CReg) : Nat := c.base + c.len
def CReg.permL (c : CReg) : Bool := bitAt c.bits 124
def CReg.permS (c : CReg) : Bool := bitAt c.bits 125
def CReg.permX (c : CReg) : Bool := bitAt c.bits 126
def CReg.permK (c : CReg) : Bool := bitAt c.bits 127
/-- The value an instruction that reads data reads (R56). -/
def CReg.data (c : CReg) : W64 := if c.tag then BitVec.ofNat 64 c.addr else c.bits.truncate 64
def dataReg (x : W64) : CReg := { bits := x.zeroExtend 128, tag := false }

/-- Register r of the focus core: the monitor's file in monitor mode, else its context's; c0 reads null data (R53, R382). -/
def State.rc (s : State) (r : Reg) : CReg :=
  if r = 0#5 then {} else if s.monitor then tget {} (s.mcore s.focus).c r.toNat else tget {} s.my.c r.toNat
def State.rd (s : State) (r : Reg) : W64 := (s.rc r).data
/-- Writes register r of the focus core; c0 ignores writes (R53). -/
def State.wc (s : State) (r : Reg) (v : CReg) : State :=
  if r = 0#5 then s
  else if s.monitor then s.modMcore s.focus fun m => { m with c := tput {} r.toNat v m.c }
  else s.modMy fun c => { c with c := tput {} r.toNat v c.c }
def State.wd (s : State) (r : Reg) (x : W64) : State := s.wc r (dataReg x)
/-- Writes register r of core k's context file. -/
def State.wcOf (s : State) (k : Nat) (r : Reg) (v : CReg) : State :=
  if r = 0#5 then s else s.modCore k fun c => { c with c := tput {} r.toNat v c.c }

/-- Cause codes (R386). -/
inductive Cause where
  | illegal | regRange | format | capTag | capBounds | capPerm | misaligned | pageFault | handleInvalid | handleExported
  | trailFull | accFirstUse | budget | handlerMissing | signature | uncorrectable | software | breakpoint | watchdog
  | privilege | duplex | copyFault | handleBounds
  deriving DecidableEq, Repr

def Cause.code : Cause → Nat
  | .illegal => 0x01 | .regRange => 0x02 | .format => 0x03 | .capTag => 0x04 | .capBounds => 0x05 | .capPerm => 0x06
  | .misaligned => 0x07 | .pageFault => 0x08 | .handleInvalid => 0x09 | .handleExported => 0x0A | .trailFull => 0x0B
  | .accFirstUse => 0x0C | .budget => 0x0D | .handlerMissing => 0x0E | .signature => 0x0F | .uncorrectable => 0x10
  | .software => 0x11 | .breakpoint => 0x12 | .watchdog => 0x13 | .privilege => 0x14 | .duplex => 0x15 | .copyFault => 0x16
  | .handleBounds => 0x17

def FaultKind.code : FaultKind → Nat
  | .notvalid => 0 | .nowrite => 1 | .noexec => 2 | .notag => 3 | .key => 4 | .malformed => 5 | .range => 6 | .hostpri => 7
  | .hostdeny => 8
def Access.code : Access → Nat
  | .load => 0 | .store => 1 | .tstore => 2 | .atomic => 3 | .fetch => 4
/-- FAULTINFO of a page fault (R70). -/
def pfInfo (k : FaultKind) (a : Access) : Nat := k.code + 16 * a.code
/-- A kind whose segment is requeued when its page comes (R71). -/
def FaultKind.waits : FaultKind → Bool
  | .notvalid => true
  | .hostpri => true
  | _ => false

/-! Messages. -/

/-- Sends a message onto the fabric: it arrives by an event of its own. -/
def State.launchMsg (s : State) (m : Msg) : State :=
  let s := { s with flight := tput none s.seq (some m) s.flight }
  match m.kind with
  | .arrive _ => (s.post (.barrierArrival s.seq)).bump
  | _ => (s.post (.messageArrival s.seq)).bump

/-- The source of a message no core sent: fault reports and host windows. -/
def noCore : Nat := 2 ^ 62

/-- The NI of a context's tile looks up the entry of context y: in its cache of 64, or in the table, from which the cache then holds it
(R364). -/
def State.cacheEntry (s : State) (x y : Nat) : State :=
  if (s.ctx x).st != 1 then s
  else s.modTile (s.ctx x).site fun t => if t.nicache.contains y then t else { t with nicache := (t.nicache ++ [y]).drop (t.nicache.length - 63) }

/-- Every NI of a partition drops the entries of contexts (R364). -/
def State.invalidateNi (s : State) (p : Nat) (xs : List Nat) : State :=
  { s with tiles := s.tiles.map fun (e : Nat × Tile) =>
      if s.partOf e.1 == p then (e.1, { e.2 with nicache := e.2.nicache.filter fun x => !xs.contains x }) else e }

/-- Posts type 0xFE with an index or an offset, as a message to the host of VF v (R429). -/
def State.postError (s : State) (v i : Nat) : State :=
  s.launchMsg { region := 0, target := 0xFFFFFF, hdl := 0xFE#8, kind := .host 0, source := noCore, sender := 0, payload := []
                tail := mkStamp i 0, vf := v, toHost := true }

/-- Offers the first leaving message of core k to its destination (R455); a viral cluster lets nothing out (R394). -/
def State.sendHead (s : State) (k : Nat) : State :=
  match (s.core k).leaving with
  | m :: _ => if (s.cluster (clusterOf (s.ctx (coreCtx k)).site)).viral then s else s.launchMsg m
  | [] => s

/-- The held messages leave in issue order with the published tail; the release completes when all are taken (R95, R455). -/
def State.sendHeld (s : State) (k : Nat) : State :=
  let c := s.core k
  if c.held.isEmpty then s
  else
    let s := s.modCore k fun c =>
      { c with leaving := c.leaving ++ c.held.map (fun (m : Msg) => { m with tail := c.tail }), held := [], stall := .refused }
    if c.leaving.isEmpty then s.sendHead k else s

/-- The trigger of an activation is retired at its first release (R314); a fence that waits on it sees it (R430). -/
def State.retireTrigger (s : State) (k : Nat) : State :=
  match (s.core k).act with
  | some a =>
    if a.released then s
    else
      let s := s.modCore k fun c => { c with act := some { a with released := true } }
      match a.trigger with
      | .message m => match m.kind with
        | .host i => s.modVf m.vf fun v => { v with waiting := v.waiting.filter fun j => j != i }
        | _ => s
      | .record _ => s
  | none => s

/-- What a release leaves behind once its segment is published, or at once for an empty one (R92, R95, R314, R328). -/
def State.finishRelease (s : State) (k : Nat) (ck : Option Checkpoint) : State :=
  let s := s.retireTrigger k
  let s := s.modCore k fun c => { c with ckpt := ck, seg := c.seg + 1, atoms := [], digests := [] }
  let s := s.modRegion (ctxRegion (coreCtx k)) fun g => { g with watch := s.tick }
  s.sendHeld k

/-! Fault reports (R387). -/

/-- The resolved FAULTH of region r, climbing past regions whose FAULTH names no tile: region, handler, tile. -/
def State.faultTo (s : State) (r : Nat) : (fuel : Nat) → Option (Nat × Byte × Nat)
  | 0 => none
  | n + 1 =>
    let g := s.giver 11 r
    let f := (s.region g).blk.faulth
    if f / 256 < s.gridSize g then some (g, BitVec.ofNat 8 f, f / 256)
    else match (s.region g).parent with
      | some p => s.faultTo p n
      | none => none

/-- Sends a fault message to a place, or to the host through the root's window (R387). -/
def State.sendReport (s : State) (root : Nat) (dest : Option (Nat × Byte × Nat)) (cause : Nat) (vt core : Nat) (faulted : Bool)
    (va info blk : Nat) : State :=
  let regs := [dataReg (BitVec.ofNat 64 (cause + vt * 2 ^ 8 + core * 2 ^ 32 + bit01 faulted * 2 ^ 33)), dataReg (BitVec.ofNat 64 va),
    dataReg (BitVec.ofNat 64 info), dataReg (BitVec.ofNat 64 blk)]
  match dest with
  | some (g, h, t) => s.launchMsg { region := g, target := t, hdl := h, kind := .send, source := noCore, sender := vt, payload := regs }
  | none => s.launchMsg { region := root, target := 0xFFFFFF, hdl := 0xFF#8, kind := .send, source := noCore + core, sender := vt,
                          payload := regs, toHost := true }

/-- A report to the region's own resolved handler: HANDLER_MISSING and page-fault records. -/
def State.reportOwn (s : State) (k cause va info : Nat) : State :=
  let r := ctxRegion (coreCtx k)
  s.sendReport (s.rootOf r) (s.faultTo r 9) cause (ctxVt (coreCtx k)) (k % 2) false va info (s.region r).blk.va

/-- FaultRegion(cause): STATE 2, and a report of every one, which skips handlers inside the faulted region (R387). -/
def State.faultRegion (s : State) (k : Nat) (cause va info : Nat) : State :=
  let r := ctxRegion (coreCtx k)
  if (s.region r).st == 3 then s
  else
    let s := if (s.region r).st == 0 then s.modRegion r fun g => { g with st := 2, faultCause := cause } else s
    let dest := match s.faultTo r 9 with
      | some (g, h, t) => if g = r then ((s.region r).parent.bind fun p => s.faultTo p 9) else some (g, h, t)
      | none => none
    s.sendReport (s.rootOf r) dest cause (ctxVt (coreCtx k)) (k % 2) true va info (s.region r).blk.va

/-- Regions that have become suspended report once, to the nearest ancestor's handler or the host (R327). -/
def State.noteBudgets (s : State) : State :=
  s.regions.foldl (fun s e =>
    let r := e.1
    let sus := s.suspended r
    if (s.region r).launched && sus && !(s.region r).notified then
      let s := s.modRegion r fun g => { g with notified := true }
      if s.notify r then
        s.sendReport (s.rootOf r) ((s.region r).parent.bind fun p => s.faultTo p 9) Cause.budget.code 0 0 false 0 0 (s.region r).blk.va
      else s
    else if !sus && (s.region r).notified then s.modRegion r fun g => { g with notified := false }
    else s) s

/-! Scoreboard entries (R157). -/

def State.freeEntry (s : State) (e : Nat × Nat) : State := s.modTile e.1 fun t => { t with board := tput none e.2 none t.board }
def State.freeEntries (s : State) (es : List (Nat × Nat)) : State := es.foldl State.freeEntry s

/-- Changes queue q of a context. -/
def State.modQueue (s : State) (x q : Nat) (f : CopyQ → CopyQ) : State :=
  s.modCtx x fun c => { c with copyq := tput {} q (f (tget {} c.copyq q)) c.copyq }

/-- Withdraws an uncommitted publication (R94). -/
def State.withdrawPub (s : State) (id : Nat) : State :=
  match s.pub id with
  | some p =>
    if p.committed then s
    else
      let s := s.modPub id fun p => { p with withdrawn := true, shares := p.shares.map fun (e : Nat × Option Share) =>
        (e.1, e.2.map fun h => if h.st == .sent || h.st == .delayed then { h with st := .rejected } else h) }
      let s := p.shares.foldl (fun s e =>
        let s := s.modSlice e.1 fun l => { l with staging := l.staging.map fun g =>
          (g.1, g.2.map fun t => if t.taken == some id then { t with taken := none } else t) }
        if e.2.any fun h => h.st == .accepted then s.post (.sliceWithdraw id e.1) else s) s
      s.dropIfGone id
  | none => s

/-- CCANCEL on the commands of a queue that f names (R184, R198): a started chunk completes, the rest is discarded; a flip that waits
for its publication is withdrawn, or goes on once committed (log entry 64). Where f names the command that faulted, the queue
leaves FAULTED and its fault is no longer due. -/
def State.cancelCopies (s : State) (x q : Nat) (f : CopyCmd → Bool) : State :=
  let cs := (tget {} (s.ctx x).copyq q).cmds
  let s := (cs.filter f).foldl (fun s c =>
    let s := s.freeEntries (c.entry.toList ++ c.dests.filterMap (·.entry))
    let s := match c.pub with | some id => s.withdrawPub id | none => s
    s.dropHeld (s.ctxPart x) fun h => h.core == coreKey x c.compute && h.order == c.order && h.pub.isNone) s
  let keep (c : CopyCmd) : Option CopyCmd :=
    if f c then (if c.inFlight || (c.pub.any fun id => (s.pub id).any (·.committed)) then some { c with cancelled := true } else none)
    else some c
  if cs.head?.any f then
    let s := (s.forget (· == .copy x q)).modQueue x q fun t => { t with cmds := t.cmds.filterMap keep, faulted := false }
    [false, true].foldl (fun s r => s.modCore (coreKey x r) fun c =>
      { c with pend := c.pend.filter fun p => !(p.cause == Cause.copyFault.code && p.info % 4 == q) }) s
  else s.modQueue x q fun t => { t with cmds := t.cmds.filterMap keep }

/-- Returns units of current to a cluster and lets the next request have them (R419). -/
def State.releaseUnits (s : State) (cl n : Nat) : State :=
  let s := s.modCluster cl fun c => { c with inuse := c.inuse - n }
  if (s.cluster cl).waiting.isEmpty then s else s.post (.reservationGrant cl)

/-- The context whose matrix commands the unit of a tile runs: the running slot's, while it holds the licence and is not on its way
out (R292, R374). -/
def State.matCtx (s : State) (site : Nat) : Option Nat :=
  let l := (s.pair (pairOf site)).lic
  let t := s.tile site
  if l.moving.isNone && l.holder == some (siteTier site * 4 + t.run) then (tget none t.slots t.run).filter fun x => (s.ctx x).st == 1
  else none

/-- Stops a context's commands at their step boundary: what the next step had asked for is given back, and each checks its
accumulator again before its next step (R287, R296, R419). -/
def State.stopMats (s : State) (x : Nat) : State :=
  let cs := (s.ctx x).cmds
  let s := s.modCtx x fun t => { t with cmds := t.cmds.map fun (c : MatCmd) =>
    { c with stopped := true, granted := false, requested := false, served := false } }
  if cs.any (·.granted) then s.releaseUnits (clusterOf (s.ctx x).site) 8 else s

/-- Discards matrix commands that have not retired, and gives up the units of a step under way, which a stopped one keeps (R288, R397). -/
def State.discardMats (s : State) (x : Nat) (f : MatCmd → Bool) (keep : Bool := false) : State :=
  let gone := (s.ctx x).cmds.filter f
  let s := gone.foldl (fun s c => s.freeEntries c.entries) s
  let s := s.modCtx x fun t => { t with cmds := t.cmds.filter fun c => !f c }
  if gone.any (·.granted) && !keep then s.releaseUnits (clusterOf (s.ctx x).site) 8 else s

/-- A kill is about to stop a running matrix step of a context, one that holds its units (R397). -/
def State.stopsStep (s : State) (x : Nat) (f : MatCmd → Bool) : Bool :=
  s.matCtx (s.ctx x).site == some x && (s.ctx x).cmds.head?.any fun c => f c && c.granted && !c.consumed

/-! The licence of a pair (R21, R292). -/

def State.modLic (s : State) (pair : Nat) (f : Licence → Licence) : State := s.modPair pair fun p => { p with lic := f p.lic }

/-- A requester: tier × 4 + slot (R292). -/
def requester (site slot : Nat) : Nat := siteTier site * 4 + slot
def requesterSite (pair r : Nat) : Nat := pair + 7744 * (r / 4)
def State.requesterCtx (s : State) (pair r : Nat) : Option Nat := tget none (s.tile (requesterSite pair r)).slots (r % 4)
/-- Exactly one twin is in the pool (R21). -/
def State.sole (s : State) (pair : Nat) : Bool := s.good pair != s.good (pair + 7744)

/-- A pair whose pool has changed: with one good twin its licence is that twin's, HELD by the slot there that had it, and none
has it where no slot there did; with none it is FREE (R21, R292). -/
def State.licPool (s : State) (pair : Nat) : State :=
  if s.good pair && s.good (pair + 7744) then s
  else
    let l := (s.pair pair).lic
    let here (r : Nat) : Bool := s.good (requesterSite pair r)
    let s := match l.holder.bind (s.requesterCtx pair) with
      | some x => s.stopMats x
      | none => s
    let next := (l.moving.toList ++ l.holder.toList ++ (if l.st == 0 then [] else [l.owner])).find? here
    s.modLic pair fun l => match next with
      | some r => { l with st := 1, owner := r, holder := some r, moving := none, waiting := l.waiting.filter here }
      | none => {}

/-! Pool shrinkage (R379). -/

/-- The clusters a region may place contexts on. -/
def State.shareOf (s : State) (r : Nat) : List Nat :=
  match (s.region r).share with
  | some l => l.filter fun c => (s.part (s.region r).part).clusters.contains c
  | none => (s.part (s.region r).part).clusters

/-- A site of cluster cl has left the pool: the regions whose share holds it are remapped, and its pair's licence follows R21
(R379). -/
def State.poolShrunk (s : State) (site : Nat) : State :=
  let s := { s with regions := s.regions.map fun (e : Nat × Region) =>
    if e.2.launched && e.2.st != 3 && (s.shareOf e.1).contains (clusterOf site) then (e.1, { e.2 with remap := true }) else e }
  s.licPool (pairOf site)

/-- An engine's request for n units is granted at once: none waits, and the budget is at least the reset one, which covers every engine of a
cluster, so that none of this cycle's requests can be held back; under a lower budget the requests of a cycle are ranked first (R419,
R420). -/
def Cluster.grants (c : Cluster) (n : Nat) : Bool := c.waiting.isEmpty && decide (896 ≤ c.budget) && decide (c.inuse + n ≤ c.budget)

/-! Vector banks (R205). -/

/-- The rail clock of a tile's cluster: core cycles delivered. -/
def State.edgesAt (s : State) (site : Nat) : Nat := (s.cluster (clusterOf site)).edges

/-- Touching registers of a slot wakes their banks (R205). -/
def State.touchBanksAt (s : State) (site slot : Nat) (rs : List Reg) : State :=
  let now := s.edgesAt site
  if rs.isEmpty then s else s.modTile site fun t => { t with vbanks := rs.foldl (fun b r =>
    let i := slot * 8 + r.toNat / 4
    tput {} i { tget {} b i with last := now, drowsy := false } b) t.vbanks }

/-! Kills (R388). -/

/-- The release of a core is past its first commit: a kill waits for a FORK, JOIN or LAUNCH act (R94, R388). -/
def State.inAct (s : State) (k : Nat) : Bool :=
  let c := s.core k
  c.prog.act && (c.prog.rel.isSome || match c.stall with
    | .release id => (s.pub id).any (·.committed)
    | .reply _ => true
    | _ => false)

/-- The wait for FP of a core's swap-in, or that of its activation's start, has not ended: its commands have no view yet, and no boundary
falls there (R105, R185). -/
def Core.arriving (c : Core) : Bool := c.due.isSome || match c.stall with | .fp _ (.start _ _) => true | _ => false

/-- A boundary may not fall here: an act is under way and its core is not held up by a refused message, a wait that is at an instruction
boundary (R388, R455). -/
def State.actBusy (s : State) (k : Nat) : Bool := s.inAct k && decide ((s.core k).stall ≠ .refused)

/-- A core or a request of its slots asks. -/
def Asker.ofCore (k : Nat) (a : Asker) : Bool :=
  match a with
  | .request j _ => j == k
  | .core j => j == k
  | _ => false

/-- The digests that a kill leaves: those of two runs that differed, which a third run, and a rerun of it, is held against (R393). -/
def Core.runsBefore (c : Core) : List W64 :=
  match c.digests with
  | a :: b :: _ => if a = b then [] else [a, b]
  | _ => []

/-- Kill(): ends the core's current segment; how says how it may restart (R388, R117). Of a release past its first commit the
segment is published whole, and the kill takes the next one, which is empty (R94). -/
def State.killNow (s : State) (k : Nat) (how : Killed) : State :=
  let c := s.core k
  let x := coreCtx k
  let rel : Option Nat := match c.stall with
    | .release id => some id
    | _ => none
  let committed : Bool := (rel.bind s.pub).any (·.committed)
  let s := match rel with
    | some id => if committed then s else s.withdrawPub id
    | none => s
  let p := s.ctxPart x
  let s := if committed then s else s.dropHeld p fun h => h.core == k && (h.pub.isNone || h.pub == rel)
  let s := (List.range 4).foldl (fun s q => s.cancelCopies x q fun d => !committed && d.compute == coreCompute k && d.seg == c.seg) s
  let mine (d : MatCmd) : Bool := !committed && coreCompute k && d.seg == c.seg
  let stops := s.stopsStep x mine
  let s := if stops then
    { s with killTicks := (s.killTicks ++ [(s.tick, (s.ctx x).site)]).filter fun e => decide (s.tick < e.1 + 256) }.modTile (s.ctx x).site
      fun t => { t with matHeld := some s.tick } else s
  let s := (s.discardMats x mine stops).forget (Asker.ofCore k)
  s.modCore k fun c =>
    { c with
      trail := [], held := if committed then c.held else [], reqs := [], prog := {}, killed := how, killLater := none, atoms := []
      digests := c.runsBefore
      sealedSegs := if committed then c.sealedSegs else c.sealedSegs.filter fun (g : SealedSeg) => some g.pub != rel
      stall := if committed then c.stall else if c.leaving.isEmpty then .none else .refused }

/-- A kill from outside the core's own instruction: it waits for an act, and for the swap-in of a context that is away, and abandons
monitor mode (R378, R388). -/
def State.kill (s : State) (k : Nat) (how : Killed) : State :=
  if (s.core k).act.isNone then s
  else if s.inAct k || (s.ctx (coreCtx k)).st == 2 || (s.ctx (coreCtx k)).coming then s.modCore k fun c => { c with killLater := some how }
  else
    let c := s.coreId k
    let s := if (s.mcore c).mode && (s.mcore c).trapCtx == some (coreCtx k) then s.modMcore c fun m => { m with mode := false } else s
    s.killNow k how

/-- Ends an activation without restart (R394, R396). -/
def State.killDead (s : State) (k : Nat) : State :=
  let s := if (s.core k).act.isNone then s else s.kill k .dead
  if (s.core k).killLater.isSome then s
  else s.modCore k fun c => { c with act := none, ckpt := none, aside := none, killed := .no, waitPage := none, digests := [] }

/-- The contexts resident on sites that f holds of. -/
def State.residents (s : State) (f : Nat → Bool) : List Nat :=
  s.ctxs.filterMap fun e => if e.2.st == 1 && f e.2.site then some e.1 else none

/-- The contexts with a place on sites that f holds of: resident or in transit. -/
def State.holders (s : State) (f : Nat → Bool) : List Nat :=
  s.ctxs.filterMap fun e => if (e.2.st == 1 || e.2.st == 3) && f e.2.site then some e.1 else none

/-- A cluster turns viral (R394); a gang on its way out or in there is killed as a resident one is (R378). -/
def State.clusterViral (s : State) (cl : Nat) : State :=
  if (s.cluster cl).viral then s
  else
    let s := s.modCluster cl fun c => { c with viral := true }
    (s.holders fun i => clusterOf i == cl).foldl (fun s x =>
      ((s.killDead (coreKey x false)).killDead (coreKey x true)).faultRegion (coreKey x true) Cause.uncorrectable.code 0 3) s

/-! Traps (R383). -/

/-- What a deferred trap leaves of the instruction it comes before: its progress, with the predecessors it waits for (R284, R383). -/
def Core.keeps (c : Core) : Progress :=
  match c.stall with
  | .matrix d => { c.prog with preds := some (d.p0, d.p1) }
  | _ => c.prog

/-- Takes a trap on the focus core at pc with word 0; in monitor mode it is a fatal error of the cluster (R382). -/
def State.takeTrap (s : State) (cause : Nat) (va info pc : Nat) (word : W32) (defer aborted : Bool) : State :=
  if s.monitor then s.clusterViral (clusterOf s.focus.site)
  else
    let x := s.running s.focus.site
    let kept : Progress := if defer then s.my.keeps else {}
    let s := s.modMy fun c => { c with prog := {}, stall := if c.leaving.isEmpty then .none else .refused }
    s.modMcore s.focus fun m =>
      { m with mode := true, pc := 0, entered := (s.cluster (clusterOf s.focus.site)).edges, cause := cause, defer := defer,
               aborted := aborted, act := 0, trapCtx := x, kept := kept, trappc := BitVec.ofNat 64 pc, trapword := word,
               faultva := BitVec.ofNat 56 va, faultinfo := BitVec.ofNat 64 info }

/-- The record of a NOTVALID fault: to the partition's page-fault queue and to the region's handler (R71, R387). -/
def State.pageRecord (s : State) (k va : Nat) (acc : Access) : State :=
  (s.modPart (s.corePart k) fun q => { q with pfq := q.pfq ++ [{ va := va, core := k, access := acc }] }).reportOwn k
    Cause.pageFault.code va (pfInfo .notvalid acc)

def Access.ofCode (n : Nat) : Access :=
  match n with | 0 => .load | 1 => .store | 2 => .tstore | 3 => .atomic | _ => .fetch

/-- The page request that a core's access met is still outstanding (R67). -/
def State.priUnder (s : State) (k va : Nat) : Bool :=
  s.hostReqs.any fun e => e.2.any fun h => h.pri && h.page == hostPage va && h.part == s.corePart k && h.vf == s.vfOf (ctxRegion (coreCtx k))

/-- An abort: the segment is killed and the trap entered with ABORTED set (R383). A page that may come is waited for, but a host page whose
request has been answered since; and a NOTVALID fault leaves its record (R71). -/
def State.takeAbort (s : State) (cause va info pc : Nat) (word : W32) : State :=
  let k := s.myKey
  let kind := info % 16
  let page := cause = Cause.pageFault.code
  let acc := Access.ofCode (info / 16 % 8)
  let waits := page ∧ (kind = FaultKind.notvalid.code ∨ kind = FaultKind.hostpri.code ∧ s.priUnder k va)
  let s := (s.killNow k .ready).modCore k fun c => { c with waitPage := if waits then some { va := va, acc := acc } else c.waitPage }
  let s := if page ∧ kind = FaultKind.notvalid.code then s.pageRecord k va acc else s
  s.takeTrap cause va info pc word false true

/-! Releases as instructions make them (R92). -/

/-- What becomes of the instruction after its body ran. -/
inductive Verdict where
  | retire
  | goto (pc : Nat)
  | stay
  | trap (c : Cause) (va info : Nat)
  | abort (c : Cause) (va info : Nat)
  | done
  deriving DecidableEq, Repr

abbrev Act := State × Verdict

/-- A checkpoint of the focus core at pc with the registers of mask (R92). -/
def State.mkCkpt (s : State) (pc : Nat) (mask : Nat) (sig : Sig) : Checkpoint :=
  { pc := pc, sig := sig, regs := s.my.c.filter fun e => decide (mask / 2 ^ e.1 % 2 = 1) }

/-- The digest of a segment (R392): granules as they would fold in ascending VA, held messages in issue order, atomics; ws are the writes
of the segment in order. -/
def Core.digest (c : Core) (ws : List TrailEntry) : W64 :=
  let granule (e : TrailEntry) : List Byte :=
    leBytes 8 e.g ++ leBytes 2 e.mask.toNat ++ [BitVec.ofNat 8 (bit01 e.tag)] ++ leBytes 16 e.data.toNat
  let reg (r : CReg) : List Byte := leBytes 16 r.bits.toNat ++ [BitVec.ofNat 8 (bit01 r.tag)]
  crc64 ((sortOn (·.g) (trailAddAll [] ws)).flatMap granule ++
    (c.held.flatMap fun (m : Msg) => leBytes 4 m.target ++ [m.hdl] ++ m.payload.flatMap reg) ++ c.atoms.flatMap (leBytes 41))

/-- The segment's writes of a side: its copies to device memory, then its trail (R176). -/
def State.segmentWrites (s : State) (k : Nat) (c : Core) : List TrailEntry := (s.heldOf k).flatMap (·.writes) ++ c.trail

/-- The shadow's core of a duplex region's core: it has had the same trigger and every value the primary had, so it holds what the primary
holds, at its own position (R391; log entry 20). -/
def State.shadowCore (s : State) (k : Nat) : Core := s.core k

/-- The digest of the segment a core is about to release (R392). -/
def State.digestOf (s : State) (k : Nat) : W64 := (s.core k).digest (s.segmentWrites k (s.core k))

/-- The digest its shadow forms (R391, R392). -/
def State.shadowDigest (s : State) (k : Nat) : W64 := (s.shadowCore k).digest (s.segmentWrites k (s.shadowCore k))

/-- The primary's and the shadow's digest before a release, or the third run's (R392, R393; log entry 20). -/
def State.formDigests (s : State) (k : Nat) : State :=
  let d := s.digestOf k
  let e := s.shadowDigest k
  s.modCore k fun c => { c with digests := if c.digests.isEmpty then [d, e] else c.digests ++ [d] }

/-- Runs the release of an instruction once, then goes on with the stamp it took, 0 for none; a duplex region compares
digests first (R393). -/
def withRelease (s : State) (ck : Option Checkpoint) (next : State → Stamp → Act) : Act :=
  match s.my.prog.rel with
  | some st => next s st
  | none =>
    if !s.releaseReady s.myKey then (s, .stay)
    else if s.duplex s.myRegion && !s.my.prog.compared then ((s.formDigests s.myKey).modMy fun c => { c with stall := .duplex }, .done)
    else
      match s.beginRelease s.myKey ck .again with
      | (.empty, s) =>
        let s := (s.finishRelease s.myKey ck).modMy fun c => { c with prog := { c.prog with rel := some 0, compared := false } }
        if s.my.leaving.isEmpty then next s 0 else (s, .done)
      | (.started _ _, s) => (s, .done)
      | (.wait, s) => (s, .stay)
      | (.fault k va a, s) => (s, .abort .pageFault va (pfInfo k a))

/-- SEGMENT_PUBLISHED at the core (R92, R195). -/
def State.published (s : State) (id : Nat) : State :=
  match s.pub id with
  | none => s
  | some p =>
    if p.published || !p.committed || !p.allShares (fun t => t == .committed || t == .folded) then s
    else
      let s := (s.modPub id fun p => { p with published := true }).modCore p.core fun c => { c with tail := max c.tail p.stamp }
      let s := match p.after with
        | .again =>
          let mine := decide ((s.core p.core).stall = Stall.release id)
          let s := s.modCore p.core fun c =>
            { c with
              stall := if mine then .none else c.stall
              prog := if mine && c.killed == Killed.no then { c.prog with rel := some p.stamp, compared := false } else c.prog }
          s.finishRelease p.core p.ckpt
        | .plain =>
          let s := s.modCore p.core fun c => { c with stall := if c.stall = Stall.release id then .none else c.stall }
          s.finishRelease p.core p.ckpt
        | .flip x q =>
          s.modQueue x q fun t => { t with cmds := t.cmds.map fun (c : CopyCmd) => if c.pub = some id then { c with chunks := [] } else c }
      s.dropIfFolded id

/-- Waits for FP at the focus core: V := FP once FP reaches the target (R103). -/
def waitFp (s : State) (target : Stamp) (after : AfterFp) : Act :=
  (s.modMy fun c => { c with stall := .fp target after }, .done)

end Sys2Proof.Machine
end

