-- ==== Sys2Proof/Machine/Issue.lean ====
section
/-! DEFINITION. Instruction fetch (R24, R382), block signatures (R46 to R48), and the frame in which every instruction
issues: decode's dynamic checks in the order of R39, the hazards of R121, the signature check, then the instruction's own
effect and the advance of the PC. -/

namespace Sys2Proof.Machine

open Sys2Proof

/-- The code capability of the focus core's activation: the region's (R24, R316). -/
def State.codeCap (s : State) : CReg := (s.region s.myRegion).blk.code

/-- Reads n ≤ 8 aligned bytes of code at the view V (R24); an error is a cause with FAULTVA and FAULTINFO, none a wait. -/
def readCode (s : State) (va n : Nat) : Except (Option (Cause × Nat × Nat)) Nat × State :=
  let p := s.corePart s.myKey
  match translate s p va .fetch s.myRegion s.my.view (.core s.myKey) with
  | (.ok pa, s) => match s.readPa p (s.homeOf p va) pa n true s.myRegion (some s.my.view) with
    | (some x, s) => (.ok x.1, s)
    | (none, s) => (.error (some (.uncorrectable, va, 1)), s)
  | (.fault k, s) => (.error (some (.pageFault, va, pfInfo k .fetch)), s)
  | (.wait, s) => (.error none, s)

/-- The outcome of a fetch; a trap or an abort brings word 0 where it had been read (R384). -/
inductive Fetched where
  | words (ws : List W32)
  | trap (c : Cause) (va : Nat) (word : Option W32)
  | abort (c : Cause) (va info : Nat) (word : Option W32)
  | fatal
  | wait
  deriving DecidableEq, Repr

/-- Words in an instruction by LEN (R23). -/
def lenOf (w : W32) : Nat := match w.toNat % 4 with | 0 => 1 | 1 => 3 | 2 => 3 | _ => 5

/-- Reads n words from va on. -/
def readWords (s : State) (va : Nat) : Nat → Except (Option (Cause × Nat × Nat)) (List W32) × State
  | 0 => (.ok [], s)
  | n + 1 =>
    match readCode s va 4 with
    | (.error e, s) => (.error e, s)
    | (.ok x, s) => match readWords s (va + 4) n with
      | (.error e, s) => (.error e, s)
      | (.ok xs, s) => (.ok (BitVec.ofNat 32 x :: xs), s)

/-- Fetch in activation mode, checked in the order of R24. FAULTVA of a later word outside the bounds is the PC of word 0 (log entry 80). -/
def fetchAct (s : State) : Fetched × State :=
  let pc := s.my.pc
  let c := s.codeCap
  if pc % 4 != 0 then (.trap .misaligned pc none, s)
  else if pc < c.base || c.top < pc + 4 then (.trap .capBounds pc none, s)
  else if !c.permX || !devHalf pc then (.trap .capPerm pc none, s)
  else
    match readWords s pc 1 with
    | (.ok [w], s) =>
      let n := lenOf w
      if c.top < pc + 4 * n then (.trap .capBounds pc (some w), s)
      else match readWords s (pc + 4) (n - 1) with
        | (.ok ws, s) => (.words (w :: ws), s)
        | (.error (some (c, va, i)), s) => (.abort c va i (some w), s)
        | (.error none, s) => (.wait, s)
    | (.ok _, s) => (.fatal, s)
    | (.error (some (c, va, i)), s) => (.abort c va i none, s)
    | (.error none, s) => (.wait, s)

/-- Fetch in monitor mode, from the tile's store; a fetch outside it is fatal (R382). -/
def fetchMon (s : State) : Fetched :=
  let pc := (s.mcore s.focus).pc
  let st := (s.tile s.focus.site).store
  let w := BitVec.ofNat 32 (tread st pc 4)
  if pc % 4 != 0 || 65536 < pc + 4 * lenOf w || 65536 ≤ pc then .fatal
  else .words ((List.range (lenOf w)).map fun i => BitVec.ofNat 32 (tread st (pc + 4 * i) 4))

/-! Signatures (R47, R48). -/

/-- The entries of the activation's signature table (R48): offset, SIGFALL, SIGTAKEN. -/
def readSigs (s : State) (va : Nat) : Nat → Except (Option (Cause × Nat × Nat)) (List (Nat × Nat × Nat)) × State
  | 0 => (.ok [], s)
  | n + 1 =>
    match readCode s va 8 with
    | (.error e, s) => (.error e, s)
    | (.ok x, s) => match readSigs s (va + 8) n with
      | (.error e, s) => (.error e, s)
      | (.ok xs, s) => (.ok ((x % 2 ^ 32, x / 2 ^ 32 % 65536, x / 2 ^ 48) :: xs), s)

/-- The V bytes of an instruction (R47): major and word 0 bits [17:8]; the major alone in format J. -/
def vBytes (w : W32) (j : Bool) : List Byte :=
  let v := w.toNat / 4 % 64 + (if j then 0 else w.toNat / 2 ^ 8 % 1024 * 64)
  [BitVec.ofNat 8 v, BitVec.ofNat 8 (v / 256)]

/-- What one instruction declares to the frame: length in bytes, whether it ends a block, by its trap too, or is of format J, where it may
run, whether it waits for every outstanding request, whether its format registers make it illegal (R127), and the registers it
names. -/
structure Issue where
  len : Nat := 4
  ender : Bool := false
  trapEnds : Bool := false
  j : Bool := false
  mon : Bool := false
  monOnly : Bool := false
  computeOnly : Bool := false
  waitAll : Bool := false
  illegal : Bool := false
  cr : List Reg := []
  vr : List Reg := []

/-- A request outstanding on a register the instruction names (R121). -/
def Req.meets (q : Req) (i : Issue) : Bool :=
  match q.kind with
  | .scalar d _ _ => i.cr.contains d
  | .cap d _ => i.cr.contains d
  | .vector d _ _ _ => i.vr.contains d
  | .atomic d m _ _ _ _ => i.cr.contains d || (m == 10 && i.cr.contains (d + 1#5))
  | .hcasx d _ _ _ _ _ _ => i.cr.contains d

def State.pendingReqs (s : State) : Bool := s.my.reqs.any fun e => e.2.isSome
def State.hazard (s : State) (i : Issue) : Bool :=
  (i.waitAll && s.pendingReqs) || s.my.reqs.any fun e => e.2.any fun q => q.meets i

/-- The PC of the focus core. -/
def State.pcNow (s : State) : Nat := if s.monitor then (s.mcore s.focus).pc else s.my.pc
def State.setPc (s : State) (pc : Nat) : State :=
  if s.monitor then s.modMcore s.focus fun m => { m with pc := pc % 2 ^ 64 } else s.modMy fun c => { c with pc := pc % 2 ^ 64 }
def State.word0 (s : State) : W32 := s.my.prog.words.headD 0#32

/-- The instruction has ended: progress is cleared, and a kill that waited for its act is taken (R388). -/
def State.endInstr (s : State) : State :=
  let s := s.modMy fun c => { c with prog := {} }
  match s.my.killLater with
  | some h => s.killNow s.myKey h
  | none => s

/-- The offset of an address from the code start; of one below it, an offset that no table entry has (R47, R48). -/
def codeOffset (a : Activation) (pc : Nat) : Nat := (pc + 2 ^ 64 - a.code) % 2 ^ 64

/-- FAULTINFO of a mismatch: block offset and computed CRC (R386). -/
def sigInfo (block : Nat) (crc : W16) : Nat := block % 2 ^ 32 + crc.toNat * 2 ^ 32

/-- The checker's state behind an instruction at pc that goes on at next (R47). -/
def sigAfter (a : Activation) (g : Sig) (i : Issue) (w : W32) (next : Nat) : Sig :=
  if i.ender then { block := codeOffset a next, crc := 0xFFFF#16 } else { g with crc := crc16 g.crc (vBytes w i.j), left := none }

/-- The checker's state when the instruction at offset o is reached: a block that ran into another's start is compared
with exit byte 0, a new block must have an entry (R46, R47). error is a mismatch or a fault of the table's read. -/
def sigReach (s : State) (a : Activation) (o : Nat) (es : List (Nat × Nat × Nat)) : Except (Cause × Nat × Nat) Sig :=
  let g := s.my.sig
  let g := if g.left = some o then { block := o } else { g with left := none }
  let bad (g : Sig) : Cause × Nat × Nat := (.signature, 0, sigInfo g.block g.crc)
  let entry (b : Nat) := es.find? fun e => e.1 == b
  if a.sigCount = 0 then .ok g
  else if o = g.block then (if (entry o).isSome then .ok g else .error (bad g))
  else match entry o with
    | none => .ok g
    | some _ =>
      let crc := crc16Byte g.crc 0#8
      if (entry g.block).any fun e => e.2.1 == crc.toNat then .ok { block := o } else .error (bad { g with crc := crc })

/-- The comparison at a block's last instruction, with exit byte x (R47). -/
def sigEnd (a : Activation) (g : Sig) (es : List (Nat × Nat × Nat)) (i : Issue) (w : W32) (taken : Bool) :
    Option (Cause × Nat × Nat) :=
  if a.sigCount = 0 || !i.ender then none
  else
    let crc := crc16Byte (crc16 g.crc (vBytes w i.j)) (if taken then 1#8 else 0#8)
    if (es.find? fun e => e.1 == g.block).any fun e => (if taken then e.2.2 else e.2.1) == crc.toNat then none
    else some (.signature, 0, sigInfo g.block crc)

/-- A mismatch counts against the tile; the third within 10^9 ticks retires it (R390, R379). -/
def State.mismatch (s : State) : State :=
  let site := s.focus.site
  let l := ((s.tile site).mismatches ++ [s.tick])
  let s := s.modTile site fun t => { t with mismatches := l }
  if l.length ≥ 3 && decide (s.tick < l.getD (l.length - 3) 0 + 10 ^ 9) && s.good site then
    (s.modCluster (clusterOf site) fun c => { c with pool := c.pool &&& ~~~ (1#128 <<< clusterBit site) }).poolShrunk site
  else s

/-- Ends an instruction with a trap or abort, once no request is outstanding (R121). -/
def State.trapNow (s : State) (c : Cause) (va info : Nat) (abort : Bool) : State :=
  if s.monitor then s.clusterViral (clusterOf s.focus.site)
  else if s.pendingReqs then s
  else if abort then (if c = .signature then s.mismatch else s).takeAbort c.code va info s.my.pc s.word0
  else s.takeTrap c.code va info s.my.pc s.word0 false false

/-- Applies the verdict of an instruction's body (R39, R47, R237). -/
def State.settle (s : State) (i : Issue) (g : Sig) : Verdict → State
  | .retire =>
    let next := s.pcNow + i.len
    let s := if s.monitor then s else match s.my.act with
      | some a => s.modMy fun c => { c with sig := sigAfter a g i s.word0 next }
      | none => s
    (s.setPc next).endInstr
  | .goto pc =>
    let s := if s.monitor then s else match s.my.act with
      | some a => s.modMy fun c => { c with sig := sigAfter a g i s.word0 pc }
      | none => s
    (s.setPc pc).endInstr
  | .stay => s
  | .done => s
  | .trap c va info => s.trapNow c va info false
  | .abort c va info => s.trapNow c va info true

/-- The first vector index at or above the declared count (R203). -/
def State.regRange (s : State) (i : Issue) : Option Nat :=
  (i.vr.find? fun r => decide ((s.my.act.map (·.vregs)).getD 0 ≤ r.toNat)).map (·.toNat)

/-- The signature table the checker needs for this instruction; nothing is read in monitor mode or where the handler
runs unchecked (R45, R382). -/
def State.sigTable (s : State) : Except (Option (Cause × Nat × Nat)) (List (Nat × Nat × Nat)) × State :=
  match s.my.act with
  | some a => if s.monitor || a.sigCount = 0 then (.ok [], s) else readSigs s (a.code - 64 + a.sigOff) a.sigCount
  | none => (.ok [], s)

/-- The checker's state at next, the point of a checkpoint behind an instruction: where next starts a block, that block's beginning (R47). -/
def State.sigNext (s : State) (i : Issue) (next : Nat) : Sig :=
  match s.my.act with
  | some a =>
    let o := codeOffset a next
    match s.sigTable.1 with
    | .ok es => if es.any fun e => e.1 == o then { block := o } else sigAfter a s.my.sig i s.word0 next
    | .error _ => sigAfter a s.my.sig i s.word0 next
  | none => s.my.sig

/-- What the body of an instruction did, though it waits: its release has been made. -/
def State.released (s s' : State) : Bool := s'.my.prog.rel != s.my.prog.rel || s'.my.seg != s.my.seg

/-- Runs the body of an instruction that has passed decode; a block that ran into another's start is compared here, behind the
decode checks and the waits of this instruction (R47; log entry 65). -/
def State.runBody (s : State) (i : Issue) (body : State → Act) : State :=
  match s.sigTable with
  | (.error (some (c, va, info)), s) => s.trapNow c va info true
  | (.error none, s) => s
  | (.ok es, s) =>
    let a : Activation := s.my.act.getD ⟨0, 0, 0, 0#32, 0, 0, 0, 0, .record ⟨0, 0, none, [], 0, false⟩, false⟩
    match (if s.monitor then .ok s.my.sig else sigReach s a (codeOffset a s.my.pc) es) with
    | .error (c, va, info) => s.trapNow c va info true
    | .ok g =>
      let (s', v) := body (if s.monitor then s else s.modMy fun c => { c with sig := g })
      let ended := match v with
        | .retire => sigEnd a g es i s.word0 false
        | .goto _ => sigEnd a g es i s.word0 true
        | .done => sigEnd a g es i s.word0 false
        | .abort _ _ _ => sigEnd a g es i s.word0 false
        | .stay => if s.released s' then sigEnd a g es i s.word0 false else none
        | .trap _ _ _ => if i.trapEnds then sigEnd a g es i s.word0 false else none
      match (if s.monitor then none else ended) with
      | some (c, va, info) => s.trapNow c va info true
      | none => s'.settle i g v

/-- Every instruction issues here: mode, format-register, core and register checks of R39, the waits of R121, then its body. -/
def issue (i : Issue) (body : State → Act) (s : State) : Host.Outcome State Fault Refusal :=
  if !s.monitor && s.my.act.isNone then .fault .noInstructionStream
  else if (s.monitor && !i.mon && !i.monOnly) || (i.computeOnly && !s.focus.compute) || i.illegal then .next (s.trapNow .illegal 0 0 false)
  else if i.monOnly && !s.monitor then .next (s.trapNow .privilege 0 0 false)
  else match s.regRange i with
    | some r => .next (s.trapNow .regRange 0 r false)
    | none => if !s.monitor && s.hazard i then .next s else .next (s.runBody i body)

end Sys2Proof.Machine
end

