-- ==== Sys2Proof/Machine/Operands.lean ====
section
/-! DEFINITION. Operand forms: capability checks (R57, R120), canonical bounds (R54), conditions (R222), displacements,
resources assigned to a slot (R212), and the floating operands of c registers (R225). -/

namespace Sys2Proof.Machine

open Sys2Proof

/-- Permissions an access needs (R57). -/
structure Perms where
  l : Bool := false
  s : Bool := false
  x : Bool := false
  k : Bool := false
  deriving DecidableEq, Repr

def Perms.within (p : Perms) (c : CReg) : Bool :=
  (!p.l || c.permL) && (!p.s || c.permS) && (!p.x || c.permX) && (!p.k || c.permK)

/-- CheckCap (R120): the first failing check, in the order of R57. -/
def checkCap (c : CReg) (ea : Int) (n al : Nat) (p : Perms) : Option Cause :=
  if !c.tag then some .capTag
  else if ea % (al : Int) ≠ 0 then some .misaligned
  else if ea < c.base ∨ (c.top : Int) < ea + n then some .capBounds
  else if !p.within c then some .capPerm
  else none

/-- FAULTVA of a failed capability check (R120). -/
def va56 (ea : Int) : Nat := (ea % 2 ^ 56).toNat

/-- Permission bits of a capability, L lowest (R229). -/
def CReg.perms (c : CReg) : Nat := c.bits.toNat / 2 ^ 124

/-- A tagged register of the given fields (R53). -/
def mkCap (addr base lm le perms : Nat) : CReg :=
  { bits := BitVec.ofNat 128 (addr % 2 ^ 56 + base % 2 ^ 56 * 2 ^ 56 + lm % 128 * 2 ^ 112 + le % 32 * 2 ^ 119 + perms % 16 * 2 ^ 124)
    tag := true }

def ceilDiv (a b : Nat) : Nat := (a + b - 1) / b

/-- The canonical encoding (LE, LM) of a length (R54); 58 steps reach every 64-bit length. -/
def canonicalFrom (len : Nat) : (fuel e : Nat) → Nat × Nat
  | 0, e => (e, ceilDiv len (2 ^ e))
  | n + 1, e => if ceilDiv len (2 ^ e) ≤ 127 then (e, ceilDiv len (2 ^ e)) else canonicalFrom len n (e + 1)
def canonical (len : Nat) : Nat × Nat := canonicalFrom len 58 0

/-- The condition table of R222. -/
def condHolds (q : Cond) (a b : W64) : Bool :=
  match q with
  | .eq => a == b
  | .ne => a != b
  | .ltS => a.slt b
  | .geS => !a.slt b
  | .ltN => a.ult b
  | .geN => !a.ult b
  | .z => a == 0#64
  | .nz => a != 0#64

/-- The target of a branch OFF words away (R25). -/
def branchTo {n : Nat} (pc : Nat) (off : BitVec n) : Nat := (BitVec.ofNat 64 pc + 4#64 * off.signExtend 64).toNat

/-- Semaphore or event counter n is assigned to the slot (R212). -/
def assigned (map : W64) (n slot : Nat) : Bool :=
  map.toNat / 2 ^ (4 * n + 2) % 2 == 1 && map.toNat / 2 ^ (4 * n) % 4 == slot

/-- Monitor mode needs no assignment; activation mode needs the issuing slot's (R212, R355). -/
def State.semOk (s : State) (n : Nat) : Bool := assigned (s.tile s.focus.site).semmap n s.mySlot
def State.evOk (s : State) (n : Nat) : Bool := assigned (s.tile s.focus.site).evmap n s.mySlot

/-- A trap with FAULTVA and FAULTINFO of an ea check. -/
def trapEa (s : State) (c : Cause) (ea : Int) : Act := (s, .trap c (va56 ea) 0)

/-- Writes data to c(D) and ends the instruction. -/
def retireWith (s : State) (d : Reg) (x : W64) : Act := (s.wd d x, .retire)

end Sys2Proof.Machine
end

