-- ==== Sys2Proof/Machine/Flags.lean ====
section
/-! DEFINITION. Flag computations. Majors 0x01 to 0x09 compute none (R217). The flags are those of VFLAGS (R215), raised by
enabled elements and kept until written with 1, and the W1C bits of TRAILST (R91), DROOP_STAT (R424) and DBGST (R216). -/

namespace Sys2Proof.Machine

open Sys2Proof

/-- Raises flags in the focus context's VFLAGS (R215). -/
def State.raiseFlags (s : State) (f : Flags) : State := s.modCtx s.me fun c => { c with flags := c.flags ||| f }

/-- A W1C write: a 1 in a bit clears it (R6). -/
def w1c {n : Nat} (old : BitVec n) (v : W64) : BitVec n := old &&& ~~~ (v.truncate n)

/-- The flag of a single-bit W1C field. -/
def w1cBit (old : Bool) (v : W64) (i : Nat) : Bool := old && !bitAt v i

/-- TRAILST as SRD reads it (R91): HORIZON, PRESSURE, AUTOREL, SPILLED, UNSEALED. -/
def Core.trailst (c : Core) : W64 :=
  BitVec.ofNat 64 (bit01 c.horizonBit + 2 * bit01 c.pressureBit + 4 * bit01 c.autorelBit +
    8 * bit01 (decide (1024 < c.trail.length)) + c.trail.length % 2 ^ 17 * 2 ^ 16)

/-- A write of TRAILST, of which only the W1C bits respond (R214). -/
def Core.writeTrailst (c : Core) (v : W64) : Core :=
  { c with horizonBit := w1cBit c.horizonBit v 0, pressureBit := w1cBit c.pressureBit v 1, autorelBit := w1cBit c.autorelBit v 2 }

end Sys2Proof.Machine
end

