-- ==== Sys2Proof/Machine/Load.lean ====
section
/-! DEFINITION. Scalar loads, major 0x10 (R121 to R125), with the request's way to its home slice and back (R70). -/

namespace Sys2Proof.Machine

open Sys2Proof

/-- A free request slot of the focus core (R121). -/
def State.freeSlot (s : State) : Option Nat := (List.range 8).find? fun i => (tget none s.my.reqs i).isNone

/-- Forwarded bytes of the places wanted, and the places left for memory (R101). -/
def splitForward (c : Core) (ps : List (Nat × Nat)) : Nat × List (Nat × Nat) :=
  ps.foldr (fun p a => match c.forward p.2 with
    | some b => (a.1 + b.toNat * 256 ^ p.1, a.2)
    | none => (a.1, p :: a.2)) (0, [])

/-- v(D) of a loaded vector: the loaded bits where sel has them, old elsewhere (R130). -/
def mixBits (sel got old : Nat) : Nat := (got &&& sel) ||| old

/-- Delivers the value of a request to its registers, which wakes a vector register's bank (R205, R123, R124, R130, R139, R141, R171). -/
def deliver (s : State) (k : Nat) (kind : ReqKind) (x : Nat) (tag : Bool) : State :=
  match kind with
  | .scalar d n signed =>
    s.wcOf k d (dataReg (if signed then (BitVec.ofNat (8 * n) x).signExtend 64 else BitVec.ofNat 64 (x % 256 ^ n)))
  | .cap d keep => s.wcOf k d { bits := BitVec.ofNat 128 x, tag := tag && keep }
  | .vector d t sel old =>
    (s.modCtx (coreCtx k) fun c => { c with v := tput {} d.toNat { bits := BitVec.ofNat 1024 (mixBits sel x old), tag := t } c.v }).touchBanksAt
      (s.ctx (coreCtx k)).site (s.ctx (coreCtx k)).slot [d]
  | .atomic d m n _ _ _ =>
    if m = 10 then (s.wcOf k d (dataReg (BitVec.ofNat 64 x))).wcOf k (d + 1#5) (dataReg (BitVec.ofNat 64 (x / 2 ^ 64)))
    else s.wcOf k d (dataReg (BitVec.ofNat 64 (x % 256 ^ n)))
  | .hcasx d n _ _ _ _ _ => s.wcOf k d (dataReg (BitVec.ofNat 64 (x % 256 ^ n)))

/-- Issues a load of places (byte of the result, VA): at once where every byte is forwarded from the trail buffer, else as a
request, which a refill from the trail area comes before (R88, R101, R121). -/
def startLoad (s : State) (kind : ReqKind) (va : Nat) (ps : List (Nat × Nat)) (tag memTag : Bool) : Act :=
  match s.freeSlot with
  | none => (s, .stay)
  | some i =>
    let (got, want) := splitForward s.my ps
    let refills := s.my.refills (ps.map (·.2))
    if want.isEmpty && refills.isEmpty then (deliver s s.myKey kind got tag, .retire)
    else
      let q : Req := { kind := kind, v := s.my.view, va := va, want := want, got := got, tag := tag, memTag := memTag,
                       refills := refills, pc := s.my.pc, word := s.word0 }
      let k := s.myKey
      ((s.modMy fun c => { c with reqs := tput none i (some q) c.reqs }).post
        (if refills.isEmpty then .loadRequest k i else .trailRefill k i), .retire)

/-- The places of n bytes at va. -/
def placesAt (va n : Nat) : List (Nat × Nat) := (List.range n).map fun j => (j, va + j)

/-- A scalar load (R123). -/
def scalarLoad (n : Nat) (signed : Bool) (len : Nat) (d a : Reg) (disp : Int) (s : State) : Host.Outcome State Fault Refusal :=
  issue { len := len, cr := [d, a] } (fun s =>
    let c := s.rc a
    let ea : Int := c.addr + disp
    match checkCap c ea n n { l := true } with
    | some e => trapEa s e ea
    | none => startLoad s (.scalar d n signed) ea.toNat (placesAt ea.toNat n) false false) s

/-- LDC (R124): the tag comes from the trail entry that covers the whole granule, or from memory where none forwards. -/
def capLoad (len : Nat) (d a : Reg) (disp : Int) (s : State) : Host.Outcome State Fault Refusal :=
  issue { len := len, cr := [d, a] } (fun s =>
    let c := s.rc a
    let ea : Int := c.addr + disp
    match checkCap c ea 16 16 { l := true } with
    | some e => trapEa s e ea
    | none =>
      let own := s.my.forwardEntry (ea.toNat / 16)
      startLoad s (.cap d (c.permK && devHalf ea.toNat)) ea.toNat (placesAt ea.toNat 16)
        (own.any fun e => e.tag && e.mask == BitVec.allOnes 16) own.isNone) s

def execLd8N (d a : Reg) (imm : BitVec 11) (s : State) : Host.Outcome State Fault Refusal := scalarLoad 1 false 4 d a imm.toInt s
def execLd8NLiteral (d a : Reg) (lit : W64) (s : State) : Host.Outcome State Fault Refusal := scalarLoad 1 false 12 d a lit.toInt s
def execLd8S (d a : Reg) (imm : BitVec 11) (s : State) : Host.Outcome State Fault Refusal := scalarLoad 1 true 4 d a imm.toInt s
def execLd8SLiteral (d a : Reg) (lit : W64) (s : State) : Host.Outcome State Fault Refusal := scalarLoad 1 true 12 d a lit.toInt s
def execLd16N (d a : Reg) (imm : BitVec 11) (s : State) : Host.Outcome State Fault Refusal := scalarLoad 2 false 4 d a imm.toInt s
def execLd16NLiteral (d a : Reg) (lit : W64) (s : State) : Host.Outcome State Fault Refusal := scalarLoad 2 false 12 d a lit.toInt s
def execLd16S (d a : Reg) (imm : BitVec 11) (s : State) : Host.Outcome State Fault Refusal := scalarLoad 2 true 4 d a imm.toInt s
def execLd16SLiteral (d a : Reg) (lit : W64) (s : State) : Host.Outcome State Fault Refusal := scalarLoad 2 true 12 d a lit.toInt s
def execLd32N (d a : Reg) (imm : BitVec 11) (s : State) : Host.Outcome State Fault Refusal := scalarLoad 4 false 4 d a imm.toInt s
def execLd32NLiteral (d a : Reg) (lit : W64) (s : State) : Host.Outcome State Fault Refusal := scalarLoad 4 false 12 d a lit.toInt s
def execLd32S (d a : Reg) (imm : BitVec 11) (s : State) : Host.Outcome State Fault Refusal := scalarLoad 4 true 4 d a imm.toInt s
def execLd32SLiteral (d a : Reg) (lit : W64) (s : State) : Host.Outcome State Fault Refusal := scalarLoad 4 true 12 d a lit.toInt s
def execLd64 (d a : Reg) (imm : BitVec 11) (s : State) : Host.Outcome State Fault Refusal := scalarLoad 8 false 4 d a imm.toInt s
def execLd64Literal (d a : Reg) (lit : W64) (s : State) : Host.Outcome State Fault Refusal := scalarLoad 8 false 12 d a lit.toInt s
def execLdc (d a : Reg) (imm : BitVec 11) (s : State) : Host.Outcome State Fault Refusal := capLoad 4 d a imm.toInt s
def execLdcLiteral (d a : Reg) (lit : W64) (s : State) : Host.Outcome State Fault Refusal := capLoad 12 d a lit.toInt s

/-! The home slice (R70, R101). -/

/-- How a request's bytes came out. -/
inductive Gathered where
  | ok (got : Nat) (tag : Bool)
  | abort (c : Cause) (va info : Nat)
  | wait

/-- Reads the wanted bytes at the request's view, in order (R101, R122). -/
def gather (s : State) (p reg : Nat) (v : Stamp) (who : Asker) : Nat → Bool → List (Nat × Nat) → Gathered × State
  | got, tag, [] => (.ok got tag, s)
  | got, _, (j, va) :: rest =>
    match translate s p va .load reg v who with
    | (.ok pa, s) => match s.readPa p (s.homeOf p va) pa 1 (devHalf va) reg (some v) with
      | (some (b, t), s) => gather s p reg v who (got + b * 256 ^ j) t rest
      | (none, s) => (.abort .uncorrectable va 1, s)
    | (.fault k, s) => (.abort .pageFault va (pfInfo k .load), s)
    | (.wait, s) => (.wait, s)

/-- Reads n bytes at va for the focus core within one instruction (R134, R341): own trail first, then the view. -/
def readOwn (s : State) (va n : Nat) : Gathered × State :=
  let f := splitForward s.my (placesAt va n)
  let s := s.trailTouch s.myKey false (s.my.refills ((placesAt va n).map (·.2)))
  match gather s (s.corePart s.myKey) s.myRegion s.my.view (.core s.myKey) f.1 false f.2 with
  | (.wait, t) => (.wait, t.unmoved s (s.corePart s.myKey))
  | r => r

/-- LOAD_REQUEST: a load reaches its home slice (R70). -/
def execLoadRequest (k id : Nat) (s : State) : Host.Outcome State Fault Refusal :=
  .next (match tget none (s.core k).reqs id with
    | some q =>
      if q.done.isSome then s
      else match q.kind with
        | .atomic _ _ _ _ _ _ => s
        | .hcasx _ _ _ _ _ _ _ => s
        | _ =>
          let put (s : State) (e : ReqEnd) : State :=
            ((s.forget (· == .request k id)).modCore k fun c => { c with reqs := tput none id (some { q with done := some e }) c.reqs }).post (.loadReply k id)
          match gather s (s.corePart k) (ctxRegion (coreCtx k)) q.v (.request k id) q.got false q.want with
          | (.ok got tag, s) => put s (.value got (if q.memTag then tag else q.tag) 0)
          | (.abort c va info, s) => put s (.abort c.code va info)
          | (.wait, t) => t.unmoved s (s.corePart k)
    | none => s)

/-- Acts for core k while f runs. -/
def State.asCore (s : State) (k : Nat) (f : State → State) : State :=
  { f { s with focus := s.coreId k } with focus := s.focus }

/-- Takes an abort that a returning request brings (R121). -/
def State.abortReq (s : State) (k : Nat) (q : Req) (cause va info : Nat) : State :=
  s.asCore k fun s => (s.takeAbort cause va info q.pc q.word)

/-- LOAD_REPLY: the value or the abort returns and the slot is free (R121). -/
def execLoadReply (k id : Nat) (s : State) : Host.Outcome State Fault Refusal :=
  .next (match tget none (s.core k).reqs id with
    | some q =>
      let gone := s.modCore k fun c => { c with reqs := tput none id none c.reqs }
      match q.done with
      | some (.value x tag _) => deliver gone k q.kind x tag
      | some (.abort c va info) => gone.abortReq k q c va info
      | _ => s
    | none => s)

end Sys2Proof.Machine
end

