-- ==== Sys2Proof/Machine/Sync.lean ====
section
/-! DEFINITION. Release, acquire and phase, major 0x13 (R132 to R137), and the steps of slices and cores that publish, fold
and advance views (R92 to R106, R112 to R115). -/

namespace Sys2Proof.Machine

open Sys2Proof

/-- The signature state behind a block ender that falls through to pc (R47, R92). -/
def State.sigAt (s : State) (pc : Nat) : Sig := { block := (pc + 2 ^ 64 - (s.my.act.map (·.code)).getD 0) % 2 ^ 64 }

/-- The checkpoint of a release whose instruction ends at pc: the registers of the low 32 bits of c(A) (R92, R133). -/
def State.relCkpt (s : State) (a : Reg) : Checkpoint := s.mkCkpt (s.my.pc + 4) ((s.rd a).toNat % 2 ^ 32) (s.sigAt (s.my.pc + 4))

/-- REL (R133). -/
def execRel (a : Reg) (s : State) : Host.Outcome State Fault Refusal :=
  issue { ender := true, waitAll := true, cr := [a] } (fun s => withRelease s (some (s.relCkpt a)) fun s _ => (s, .retire)) s

/-- The published tail of a trail of the region (R103). -/
def State.tailOf (s : State) (region vt : Nat) (compute : Bool) : Stamp := (s.core (coreKey (ctxKey region vt) compute)).tail

/-- The valid entries of an acquire list of n words (R134). -/
def acqEntries (grid : Nat) (x : Nat) : Nat → List (Nat × Bool)
  | 0 => []
  | n + 1 =>
    let w := x % 2 ^ 32
    let rest := acqEntries grid (x / 2 ^ 32) n
    if w / 2 ^ 25 = 0 ∧ w % 2 ^ 24 < grid then (w % 2 ^ 24, w / 2 ^ 24 % 2 == 1) :: rest else rest

def State.listTarget (s : State) (region : Nat) (ts : List (Nat × Bool)) : Stamp :=
  ts.foldl (fun m t => max m (s.tailOf region t.1 t.2)) 0

/-- The target of an acquire of all trails (R104). -/
def State.allTarget (s : State) : Stamp := mkStamp (s.tick + 2) 0x1FFFF

def State.saveAcq (s : State) (k : AcqKind) : State := s.modMy fun c => { c with acq := k }

/-- ACQ (R134). -/
def execAcq (a b : Reg) (s : State) : Host.Outcome State Fault Refusal :=
  issue { waitAll := true, cr := [a, b] } (fun s =>
    if s.my.prog.step = 1 then (s, .retire)
    else
      let n := (s.rd b).toNat
      let c := s.rc a
      if 64 < n then (s, .trap .illegal 0 0)
      else if n = 0 then waitFp (s.saveAcq (.list [])) 0 .retire
      else match checkCap c c.addr (4 * n) 4 { l := true } with
        | some e => trapEa s e c.addr
        | none => match readOwn s c.addr (4 * n) with
          | (.ok x _, s) =>
            let ts := acqEntries (s.gridSize s.myRegion) x n
            waitFp (s.saveAcq (.list ts)) (s.listTarget s.myRegion ts) .retire
          | (.abort e va info, s) => (s, .abort e va info)
          | (.wait, s) => (s, .stay)) s

/-- ACQA (R104, R135). -/
def execAcqa (s : State) : Host.Outcome State Fault Refusal :=
  issue { waitAll := true } (fun s =>
    if s.my.prog.step = 1 then (s, .retire) else waitFp (s.saveAcq .all) s.allTarget .retire) s

/-- No instruction boundary falls behind the release of the instruction under way (R104). -/
def State.joinParts (s : State) : State := s.modMy fun c => { c with prog := { c.prog with joined := true } }

/-- PHASE (R135): a release, then ACQA, with no boundary between them (R104). -/
def execPhase (a : Reg) (s : State) : Host.Outcome State Fault Refusal :=
  issue { ender := true, waitAll := true, cr := [a] } (fun s =>
    if s.my.prog.step = 1 then (s, .retire)
    else withRelease s.joinParts (some (s.relCkpt a)) fun s _ => waitFp (s.saveAcq .all) s.allTarget .retire) s

/-- PREF (R136): it asks the home slice where every check passes, and is done. -/
def execPref (a b : Reg) (s : State) : Host.Outcome State Fault Refusal :=
  issue { cr := [a, b] } (fun s =>
    let c := s.rc a
    let len := if b = 0#5 then 64 else (s.rd b).toNat
    let n := min len (65536 - c.addr % 65536)
    if len = 0 || decide (65536 < len) || !devHalf c.addr || (checkCap c c.addr n 1 { l := true }).isSome then (s, .retire)
    else (s.post (.prefRequest s.myKey c.addr n), .retire)) s

/-- PREF_REQUEST: the page's translation and its lines enter the home slice (R136). -/
def execPrefRequest (k va len : Nat) (s : State) : Host.Outcome State Fault Refusal :=
  .next (
    let p := s.corePart k
    let r := ctxRegion (coreCtx k)
    let sl := s.homeOf p va
    if len = 0 || decide (65536 < len) || !devHalf va then s
    else match translate s p va .load r (s.core k).view .device with
      | (.ok pa, s) => (List.range ((pa + len + 63) / 64 - pa / 64)).foldl (fun s i => (s.chain p sl (pa / 64 + i) (some r)).2) s
      | (_, s) => s)

/-- The figures of TRAILQ (R137). -/
def trailFigure (s : State) (k : Nat) (sel : Nat) : Nat :=
  let c := s.core k
  match sel with
  | 0 => c.trail.length
  | 1 => s.segRoom k
  | 2 => s.sealedCount k
  | 3 => s.trailRoom k
  | 4 => stampTick c.view
  | 5 => stampTick c.tail
  | 6 => stampTick (s.fpOf k)
  | _ => s.trailArea (ctxRegion (coreCtx k))

/-- TRAILQ (R137). -/
def execTrailq (d : Reg) (sel : BitVec 3) (s : State) : Host.Outcome State Fault Refusal :=
  issue { cr := [d] } (fun s => retireWith s d (BitVec.ofNat 64 (trailFigure s s.myKey sel.toNat))) s

/-! Steps of the slices (R93 to R97, R112 to R115). -/

def execSliceNotice (pub sl : Nat) (room : Bool) (s : State) : Host.Outcome State Fault Refusal := .next (s.noticeAt pub sl room)
def execFlipNotice (pub sl : Nat) (room : Bool) (s : State) : Host.Outcome State Fault Refusal := .next (s.noticeAt pub sl room)
def execNoticeAcceptDelayed (pub sl : Nat) (s : State) : Host.Outcome State Fault Refusal := .next (s.acceptDelayed pub sl)
def execReleaseReplies (pub : Nat) (s : State) : Host.Outcome State Fault Refusal := .next (s.releaseReplies pub)
def execSliceCommit (pub sl : Nat) (s : State) : Host.Outcome State Fault Refusal := .next (s.commitAt pub sl)
def execSliceWithdraw (pub sl : Nat) (s : State) : Host.Outcome State Fault Refusal := .next (s.withdrawAt pub sl)
def execSegmentPublished (pub : Nat) (s : State) : Host.Outcome State Fault Refusal := .next (s.published pub)
def execSegmentFold (sl : Nat) (s : State) : Host.Outcome State Fault Refusal := .next (s.foldAt sl)
/-- FRONTIER_REDUCTION: a partition with no slice has no frontier (R98). -/
def execFrontierReduction (p : Nat) (s : State) : Host.Outcome State Fault Refusal :=
  .next (if (s.part p).enabled then s.reduce p else s)
def execShadowFinalise (sl page : Nat) (s : State) : Host.Outcome State Fault Refusal := .next (s.shadowFinalise sl page)

/-! Steps of a core's view (R103 to R106). -/

def execHorizonBoundary (k : Nat) (s : State) : Host.Outcome State Fault Refusal := .next (s.horizonBoundary k)
def execPressureBoundary (k : Nat) (s : State) : Host.Outcome State Fault Refusal := .next (s.pressureBoundary k)

/-- The chunks still to come of core k's commands read at the view it takes at swap-in (R105, R185). -/
def State.renewReads (s : State) (k : Nat) : State :=
  let renew (c : CopyCmd) : CopyCmd := if c.compute = coreCompute k then { c with readStamp := (s.core k).view } else c
  s.modCtx (coreCtx k) fun x => { x with copyq := x.copyq.map fun (q : Nat × CopyQ) => (q.1, { q.2 with cmds := q.2.cmds.map renew }) }

end Sys2Proof.Machine
end

