-- ==== Sys2Proof/Machine/Atomic.lean ====
section
/-! DEFINITION. Atomics, major 0x14 (R138 to R142), and the atomic engines (R108 to R110). -/

namespace Sys2Proof.Machine

open Sys2Proof

def Order.acquires (o : Order) : Bool := match o with | .acq => true | .ar => true | _ => false
def Order.releases (o : Order) : Bool := match o with | .rel => true | .ar => true | _ => false
def atomBytes (w32 : Bool) : Nat := if w32 then 4 else 8

/-- The floating sum of ATOMF.ADD (R140). -/
def atomfAdd (n a b : Nat) : Nat :=
  let f := if n = 4 then fp32 else fp64
  (roundTo f .rne false 0 ((decodeFloat f a).add .rne (decodeFloat f b))).1

/-- new of an atomic on n bytes, none where it writes nothing (R139 to R141); 12 is the arrival of JOIN (R340). -/
def atomNew (minor n old b cmp : Nat) : Option Nat :=
  let w := 8 * n
  let sv (x : Nat) : Int := decodeInt w true x
  match minor with
  | 0 => some ((old + b) % 2 ^ w)
  | 1 => some (old &&& b)
  | 2 => some (old ||| b)
  | 3 => some (old ^^^ b)
  | 4 => some (if sv b < sv old then b else old)
  | 5 => some (min old b)
  | 6 => some (if sv old < sv b then b else old)
  | 7 => some (max old b)
  | 8 => some b
  | 11 => some (atomfAdd n old b)
  | 12 => if old = 0 then none else some (old - 1)
  | _ => if old = cmp then some b else none

/-- The first request of an engine: the earliest arrival; among those of its line and tick, round-robin by source cluster,
then by origin (R108). -/
def rankFrom (ptr : Nat) (q : EngReq) : Nat := ((if q.src < 121 then (q.src + 121 - ptr) % 121 else 121) * 2 ^ 17) + q.org

def pickRequest (ptr : Nat) (l : List EngReq) : Option EngReq :=
  (sortOn (·.arrival) l).head?.bind fun h =>
    (sortOn (rankFrom ptr) (l.filter fun q => q.line == h.line && q.arrival == h.arrival)).head?

/-- A request joins the queue of an engine, tied with those of its line and tick (R108). -/
def joinQueue (l : List EngReq) (e : EngReq) : List EngReq :=
  let meets (q : EngReq) : Bool := q.line == e.line && q.arrival == e.arrival
  l.map (fun q => if meets q then { q with tied := true } else q) ++ [{ e with tied := l.any meets }]

/-- The stamp an engine takes (R108). -/
def atomicStamp (s : State) (cl : Nat) (newest carried : Stamp) : Stamp :=
  mkStamp (max s.tick (max (stampTick newest + 1) (max (stampTick carried + 1) ((s.cluster cl).engLast + 1)))) (0x1E400 + cl)

/-- A write of n bytes at pa by an engine, its granule's tag cleared (R58). -/
def engineWrite (pa n x : Nat) (st : Stamp) (reg : Nat) : LineWrite :=
  { stamp := st, mask := BitVec.ofNat 64 ((2 ^ n - 1) * 2 ^ (pa % 64)), data := BitVec.ofNat 512 (x * 256 ^ (pa % 64)),
    tags := 0#4, region := reg }

/-- What an atomic does at its engine, f giving the new value: the old value and the stamp, an abort, or a wait for the
host (R139, R108). A write of a whole line needs no value of it; a private area's bytes are free (R88). -/
def engineAct (s : State) (cl p reg va n : Nat) (f : Nat → Option Nat) (carried : Stamp) (who : Asker) :
    Option ReqEnd × State :=
  let now := mkStamp (s.tick + 1) 0
  match translate s p va .atomic reg now who with
  | (.wait, s) => (none, s)
  | (.fault k, s) => (some (.abort Cause.pageFault.code va (pfInfo k .atomic)), s)
  | (.ok pa, s) =>
    let sl := s.homeOf p va
    if devHalf va then
      if n < 64 && s.poisoned (s.part p) pa then (some (.abort Cause.uncorrectable.code va 1), s)
      else
        let priv := s.privateAt p pa
        let (c, s) := s.engineChain cl p sl (pa / 64) (some reg)
        let (old, s) :=
          if priv then
            let r := s.freeBytes n
            (leNat r.1, r.2)
          else (c.newest.1.toNat / 256 ^ (pa % 64) % 256 ^ n, s)
        let a := atomicStamp s cl c.newestStamp carried
        let s := s.modCluster cl fun c => { c with engLast := stampTick a }
        let s := match f old with
          | some x => s.enterWrite p sl (pa / 64) (engineWrite pa n x a reg)
          | none => s
        (some (.value old false a), s)
    else
      let old := tread s.host pa n
      let a := atomicStamp s cl 0 carried
      let s := (s.modCluster cl fun c => { c with engLast := stampTick a }).chargeHost p (nearestPort (sl / 4)) n
      let s := match f old with
        | some x => (s.hostAtomWrite sl pa n x a).chargeHost p (nearestPort (sl / 4)) n
        | none => s
      (some (.value old false a), s)

/-- The engine of a VA's home cluster. -/
def State.engineOf (s : State) (p va : Nat) : Nat := s.homeOf p va / 4

/-- Puts a request before the engine of its line's home cluster (R108). -/
def State.askEngine (s : State) (k id va src : Nat) : State :=
  let cl := s.engineOf (s.corePart k) va
  let e : EngReq := { who := k, id := id, line := va / 64, arrival := s.tick, src := src, org := s.originOf k }
  (s.modCluster cl fun c => { c with engQ := joinQueue c.engQ e }).post (.atomicEngineRequest cl)

/-- A duplex region's core notes an atomic for its digest: address, operands, minor (R392). -/
def State.noteAtom (s : State) (va b cmp minor : Nat) : State :=
  if s.duplex s.myRegion then s.modMy fun c => { c with atoms := c.atoms ++ [va + 2 ^ 64 * (b + 2 ^ 128 * (cmp + 2 ^ 128 * minor))] }
  else s

/-- Every atomic: checks, the release, the request, and with .ACQ or .AR the wait for its stamp (R139, R110). -/
def atomic (minor : Nat) (order : Order) (n : Nat) (d a b : Reg) (opnd cmp : State → Nat) (pair : Bool) (s : State) :
    Host.Outcome State Fault Refusal :=
  let regs := [d, a, b] ++ if pair then [d + 1#5, b + 1#5] else []
  issue { cr := regs } (fun s =>
    if s.my.prog.step = 1 then (s, .retire)
    else if s.my.prog.step = 2 then waitFp s s.my.prog.value .retire
    else
      let c := s.rc a
      match checkCap c c.addr n n { l := true, s := true } with
      | some e => trapEa s e c.addr
      | none =>
        let go (s : State) (carried : Stamp) : Act :=
          match s.freeSlot with
          | none => (s, .stay)
          | some i =>
            let q : Req := { kind := .atomic d minor n (opnd s) (cmp s) carried, v := s.my.view, va := c.addr, want := [],
                             pc := s.my.pc, word := s.word0 }
            let k := s.myKey
            let s := (s.noteAtom c.addr (opnd s) (cmp s) minor).modMy fun c => { c with reqs := tput none i (some q) c.reqs }
            let s := s.askEngine k i c.addr (clusterOf s.focus.site)
            if Order.acquires order then (s.modMy fun c => { c with stall := .reply i }, .done) else (s, .retire)
        if Order.releases order then
          withRelease s (some (s.mkCkpt s.my.pc (regs.foldl (fun (m : Nat) (r : Reg) => m ||| 2 ^ r.toNat) 0) s.my.sig)) go
        else go s 0) s

/-- The one-register forms (R139). -/
def atom1 (minor : Nat) (order : Order) (w32 : Bool) (d a b : Reg) (s : State) : Host.Outcome State Fault Refusal :=
  let n := atomBytes w32
  atomic minor order n d a b (fun s => (s.rd b).toNat % 256 ^ n) (fun s => (s.rd d).toNat % 256 ^ n) false s

/-- Two registers as one 16-byte value (R141). -/
def pairValue (s : State) (r : Reg) : Nat := (s.rd r).toNat + 2 ^ 64 * (s.rd (r + 1#5)).toNat

def execAtomAdd (order : Order) (w32 : Bool) (d a b : Reg) (s : State) : Host.Outcome State Fault Refusal := atom1 0 order w32 d a b s
def execAtomAnd (order : Order) (w32 : Bool) (d a b : Reg) (s : State) : Host.Outcome State Fault Refusal := atom1 1 order w32 d a b s
def execAtomOr (order : Order) (w32 : Bool) (d a b : Reg) (s : State) : Host.Outcome State Fault Refusal := atom1 2 order w32 d a b s
def execAtomXor (order : Order) (w32 : Bool) (d a b : Reg) (s : State) : Host.Outcome State Fault Refusal := atom1 3 order w32 d a b s
def execAtomMinS (order : Order) (w32 : Bool) (d a b : Reg) (s : State) : Host.Outcome State Fault Refusal := atom1 4 order w32 d a b s
def execAtomMinN (order : Order) (w32 : Bool) (d a b : Reg) (s : State) : Host.Outcome State Fault Refusal := atom1 5 order w32 d a b s
def execAtomMaxS (order : Order) (w32 : Bool) (d a b : Reg) (s : State) : Host.Outcome State Fault Refusal := atom1 6 order w32 d a b s
def execAtomMaxN (order : Order) (w32 : Bool) (d a b : Reg) (s : State) : Host.Outcome State Fault Refusal := atom1 7 order w32 d a b s
def execAtomSwap (order : Order) (w32 : Bool) (d a b : Reg) (s : State) : Host.Outcome State Fault Refusal := atom1 8 order w32 d a b s
def execCas (order : Order) (w32 : Bool) (d a b : Reg) (s : State) : Host.Outcome State Fault Refusal := atom1 9 order w32 d a b s
def execCas2 (order : Order) (d a b : Reg) (s : State) : Host.Outcome State Fault Refusal :=
  atomic 10 order 16 d a b (fun s => pairValue s b) (fun s => pairValue s d) true s
def execAtomfAdd (order : Order) (w32 : Bool) (d a b : Reg) (s : State) : Host.Outcome State Fault Refusal := atom1 11 order w32 d a b s

/-- A CXL.mem write at the engine: a stamp of its own, charged to the root region and HOSTB; a fault discards it and posts its
offset (R427, R429). -/
def State.cxlWrite (s : State) (cl v line : Nat) (x : BitVec 512) : State :=
  let f := s.vf v
  let r := (s.regions.find? fun e => e.2.launched && e.2.part == f.part && e.2.blk.va == f.root && e.2.st != 3).map (·.1)
  match r with
  | none => s
  | some r => match engineAct s cl f.part r (64 * line) 64 (fun _ => some x.toNat) 0 .device with
    | (some (.value _ _ a), s) => (s.modVf v fun f => { f with cxlStamp := max f.cxlStamp a }).chargeHost f.part f.port 64
    | (_, s) => s.postError v ((64 * line - f.hdmva) / 64)

/-- ATOMIC_REPLY: the old value returns; with .ACQ the wait for FP follows (R110, R121). A JOIN that has arrived does not arrive again
after a kill (R340, R388). -/
def execAtomicReply (k id : Nat) (s : State) : Host.Outcome State Fault Refusal :=
  .next (match tget none (s.core k).reqs id with
    | some q =>
      let s1 := s.modCore k fun c => { c with reqs := tput none id none c.reqs }
      match q.done with
      | some (.value x _ a) =>
        let s2 := deliver s1 k q.kind x false
        if (s.core k).stall = .reply id then
          let join : Bool := match q.kind with
            | .atomic _ 12 _ _ _ _ => true
            | _ => false
          let step : Nat := if join then 6 + min x 2 else 2
          let s3 := s2.modCore k fun c =>
            { c with
              stall := .none, prog := { c.prog with step := step, value := a, act := false }
              ckpt := if join && x != 0 then c.ckpt.map fun (p : Checkpoint) => { p with arrived := some (step, a) } else c.ckpt }
          match (s3.core k).killLater with
          | some how => s3.killNow k how
          | none => s3
        else s2
      | some (.abort c va info) => (s1.modCore k fun c => { c with stall := if c.stall = .reply id then .none else c.stall }).abortReq k q c va info
      | _ => s
    | none => s)

end Sys2Proof.Machine
end

