-- ==== Sys2Proof/Machine/Branch.lean ====
section
/-! DEFINITION. Branches, calls and LOOP, majors 0x05 to 0x09 (R233 to R237). The hint changes only timing (R31). -/

namespace Sys2Proof.Machine

open Sys2Proof

/-- A conditional branch (R233). -/
def branchIf (cond : Cond) (off : BitVec 9) (a b : Reg) (s : State) : Host.Outcome State Fault Refusal :=
  issue { mon := true, ender := true, cr := [a, b] } (fun s =>
    if condHolds cond (s.rd a) (s.rd b) then (s, .goto (branchTo s.pcNow off)) else (s, .retire)) s

def execBeq (_hint : Hint) (off : BitVec 9) (a b : Reg) (s : State) : Host.Outcome State Fault Refusal := branchIf .eq off a b s
def execBne (_hint : Hint) (off : BitVec 9) (a b : Reg) (s : State) : Host.Outcome State Fault Refusal := branchIf .ne off a b s
def execBltS (_hint : Hint) (off : BitVec 9) (a b : Reg) (s : State) : Host.Outcome State Fault Refusal := branchIf .ltS off a b s
def execBgeS (_hint : Hint) (off : BitVec 9) (a b : Reg) (s : State) : Host.Outcome State Fault Refusal := branchIf .geS off a b s
def execBltN (_hint : Hint) (off : BitVec 9) (a b : Reg) (s : State) : Host.Outcome State Fault Refusal := branchIf .ltN off a b s
def execBgeN (_hint : Hint) (off : BitVec 9) (a b : Reg) (s : State) : Host.Outcome State Fault Refusal := branchIf .geN off a b s
def execBz (_hint : Hint) (off : BitVec 9) (a : Reg) (s : State) : Host.Outcome State Fault Refusal := branchIf .z off a 0#5 s
def execBnz (_hint : Hint) (off : BitVec 9) (a : Reg) (s : State) : Host.Outcome State Fault Refusal := branchIf .nz off a 0#5 s

/-- B (R234). -/
def execB (_hint : Bool) (off : BitVec 22) (s : State) : Host.Outcome State Fault Refusal :=
  issue { mon := true, ender := true, j := true } (fun s => (s, .goto (branchTo s.pcNow off))) s
/-- CALL (R234). -/
def execCall (_hint : Bool) (off : BitVec 22) (s : State) : Host.Outcome State Fault Refusal :=
  issue { mon := true, ender := true, j := true, cr := [31#5] } (fun s =>
    (s.wd 31#5 (BitVec.ofNat 64 (s.pcNow + 4)), .goto (branchTo s.pcNow off))) s

/-- A jump to a register: a target with bits [63:56] set traps CAP_BOUNDS at the jump (R235). -/
def jumpTo (r : Reg) (link : Bool) (s : State) : Host.Outcome State Fault Refusal :=
  issue { mon := true, ender := true, cr := r :: (if link then [31#5] else []) } (fun s =>
    let t := (s.rd r).toNat
    if 2 ^ 56 ≤ t then (s, .trap .capBounds (t % 2 ^ 56) 0)
    else (if link then s.wd 31#5 (BitVec.ofNat 64 (s.pcNow + 4)) else s, .goto t)) s

def execRet (s : State) : Host.Outcome State Fault Refusal := jumpTo 31#5 false s
def execJr (a : Reg) (s : State) : Host.Outcome State Fault Refusal := jumpTo a false s
def execCallr (a : Reg) (s : State) : Host.Outcome State Fault Refusal := jumpTo a true s

/-- LOOP (R236). -/
def execLoop (_hint : Hint) (off : BitVec 9) (a : Reg) (s : State) : Host.Outcome State Fault Refusal :=
  issue { mon := true, ender := true, cr := [a] } (fun s =>
    let n := s.rd a - 1#64
    (s.wd a n, if n != 0#64 then .goto (branchTo s.pcNow off) else .retire)) s

end Sys2Proof.Machine
end

