-- ==== Sys2Proof/Machine/Barrier.lean ====
section
/-! DEFINITION. Named barriers (R182, R350, R351), semaphores and event counters (R212, R332, R352). -/

namespace Sys2Proof.Machine

open Sys2Proof

def Bar.armedAny (b : Bar) : Bool := b.armed || b.aarm
/-- A firing that leaves no armed bit releases the waiters (R351). -/
def Bar.released (b : Bar) : Bar := if b.armedAny then b else { b with fires := b.fires + 1 }

/-- OnCreditOrArm (R182). -/
def Bar.onCredit (b : Bar) : Bar :=
  if b.armed && decide (b.target ≤ b.count) then { b with count := b.count - b.target, armed := false }.released else b

/-- Bytes credited; the count saturates at 2^40 − 1 (R182). -/
def Bar.credit (b : Bar) (n : Nat) : Bar := { b with count := min (2 ^ 40 - 1) (b.count + n) }.onCredit

/-- BARX (R196). -/
def Bar.arm (b : Bar) (n : Nat) : Bar := { b with target := n, armed := true }.onCredit

/-- The firing rule of OnArrivalOrInit (R351). -/
def Bar.onArrival (b : Bar) : Bar :=
  if b.aarm && decide (b.expect ≤ b.arrived) then
    { b with arrived := b.arrived - b.expect, aarm := false, stageTail := max b.stageTail b.atail, computeTail := max b.computeTail b.atail
             atail := 0, arrFires := b.arrFires + 1 }.released
  else b

/-- An arrival carrying a published tail (R351). -/
def Bar.arrive (b : Bar) (tail : Stamp) : Bar :=
  { b with arrived := min (b.arrived + 1) 65535, atail := max b.atail tail }.onArrival

/-- The wait of a core begins: no firing has occurred in it (R351). -/
def Bar.waitFrom (b : Bar) (compute : Bool) : Bar := if compute then { b with computeTail := 0 } else { b with stageTail := 0 }

/-- The highest tail of the firings by arrivals in the wait of a core. -/
def Bar.tailFor (b : Bar) (compute : Bool) : Stamp := if compute then b.computeTail else b.stageTail

/-- BARINIT (R351). -/
def Bar.init (b : Bar) (n : Nat) : Bar := { b with expect := n, aarm := true }.onArrival

def State.bar (s : State) (x n : Nat) : Bar := tget {} (s.ctx x).bars n
def State.modBar (s : State) (x n : Nat) (f : Bar → Bar) : State :=
  s.modCtx x fun c => { c with bars := tput {} n (f (tget {} c.bars n)) c.bars }

/-- Raises a semaphore of a tile by one (R174, R352). -/
def State.raiseSem (s : State) (site n : Nat) : State :=
  s.modTile site fun t => { t with sem := tput 0 n (min (2 ^ 32 - 1) (tget 0 t.sem n + 1)) t.sem }

/-- Pulses an event counter; the pulse is added at the cycle's end (R332). -/
def State.pulse (s : State) (site n : Nat) : State :=
  s.modTile site fun t => { t with evNext := tput 0 n (tget 0 t.evNext n + 1) t.evNext }

/-- What a command posts when it completes (R174, R290). -/
def State.postSemEv (s : State) (site : Nat) (sem ev : Option Nat) : State :=
  let s := match sem with | some n => s.raiseSem site n | none => s
  match ev with | some n => s.pulse site n | none => s

end Sys2Proof.Machine
end

