-- ==== Sys2Proof/Machine/VecOps.lean ====
section
/-! DEFINITION. What every vector instruction shares: registers and tags (R201, R259), masks (R260, R261), the write of a
destination, the unit's sleep, its reservation and its banks (R205, R419, R421), and metering (R405). -/

namespace Sys2Proof.Machine

open Sys2Proof

def State.vr (s : State) (r : Reg) : VReg := tget {} (s.ctx s.me).v r.toNat
def State.vbits (s : State) (r : Reg) : Nat := (s.vr r).bits.toNat
def State.setV (s : State) (r : Reg) (bits : Nat) (tag : Byte) : State :=
  s.modCtx s.me fun c => { c with v := tput {} r.toNat { bits := BitVec.ofNat 1024 bits, tag := tag } c.v }

/-- The format registers of the focus core (R206). -/
def Core.fmts (c : Core) : List W64 := (List.range 8).map fun i => tget 0#64 c.f i
/-- What a tag names for the focus core (R245, R246). -/
def State.kind (s : State) (tag : Byte) : Option Kind := kindOf s.my.fmts tag

/-- Bits of an element inside its container (R259). -/
def Kind.bits (k : Kind) : Nat := match k with | .float f _ => f.w | k => k.width
def Kind.count (k : Kind) : Nat := 1024 / k.width
/-- Tags with an element width: all but raw and mask. -/
def Kind.typed (k : Kind) : Bool := match k with | .raw => false | .mask => false | _ => true
def Kind.isInt (k : Kind) : Bool := match k with | .int _ _ => true | _ => false
def Kind.isFloat (k : Kind) : Bool := match k with | .float _ _ => true | _ => false
def Kind.isArith (k : Kind) : Bool := match k with | .float _ a => a | _ => false
def Kind.signedInt (k : Kind) : Bool := match k with | .int _ g => g | _ => false
/-- The tags of VADD (R265). -/
def Kind.sums (k : Kind) : Bool := k.isArith || k.isInt

/-- Element i of width w of a register's bits (R201). -/
def elemOf (bits w i : Nat) : Nat := bits / 2 ^ (w * i) % 2 ^ w
/-- Element i as a pattern of its format, the bits above it ignored (R259). -/
def Kind.elem (k : Kind) (bits i : Nat) : Nat := elemOf bits k.width i % 2 ^ k.bits

/-! Masks. -/

def maskReg (k : Mask) : Reg := k.reg.zeroExtend 5
def maskRegs (m : Option Mask) : List Reg := m.toList.map maskReg
/-- Element i is enabled (R260). -/
def State.enabled (s : State) (m : Option Mask) (i : Nat) : Bool := m.all fun k => s.vbits (maskReg k) / 2 ^ i % 2 == 1
def State.enabledCount (s : State) (m : Option Mask) (n : Nat) : Nat := ((List.range n).filter fun i => s.enabled m i).length
/-- The first check of R261. -/
def State.maskOk (s : State) (m : Option Mask) : Bool := m.all fun k => (s.vr (maskReg k)).tag == 0x40#8
/-- The third check of R261. -/
def State.keepOk (s : State) (m : Option Mask) (d : Reg) (tag : Byte) : Bool := m.all fun k => k.agnostic || (s.vr d).tag == tag
def agnosticOf (m : Option Mask) : Bool := m.any (·.agnostic)

/-- The mask of an instruction that masks its source (R271, R274). -/
def srcMask (mr : Option (BitVec 2)) : Option Mask := mr.map fun r => { agnostic := false, reg := r }
def srcRegs (mr : Option (BitVec 2)) : List Reg := mr.toList.map fun r => r.zeroExtend 5

/-- A destination as it fills: bits, flags raised, generator words. -/
structure VecRun where
  bits : Nat := 0
  flags : Flags := 0#6
  lo : W64
  hi : W64

/-- Elements i, i + 1, … of VectorWrite (R260): en enables, old keeps, el computes from the index and the draw (R252). -/
def vecElems (w : Nat) (en : Nat → Bool) (agn : Bool) (old : Nat) (sr : Bool) (el : Nat → Nat → Nat × Flags) :
    Nat → Nat → VecRun → VecRun
  | 0, _, a => a
  | n + 1, i, a =>
    if en i then
      let g := if sr then nextSR a.lo a.hi else (a.lo, a.hi, 0#64)
      let r := el i (g.2.2.toNat / 2 ^ 32)
      vecElems w en agn old sr el n (i + 1)
        { bits := a.bits + r.1 % 2 ^ w * 2 ^ (w * i), flags := a.flags ||| r.2, lo := g.1, hi := g.2.1 }
    else
      let e := if agn then 2 ^ w - 1 else elemOf old w i
      vecElems w en agn old sr el n (i + 1) { a with bits := a.bits + e * 2 ^ (w * i) }

/-- VectorWrite (R260). -/
def State.vectorWrite (s : State) (m : Option Mask) (d : Reg) (tag : Byte) (w n : Nat) (sr : Bool)
    (el : Nat → Nat → Nat × Flags) : State :=
  let a := vecElems w (s.enabled m) (agnosticOf m) (s.vbits d) sr el n 0 { lo := s.my.seedLo, hi := s.my.seedHi }
  ((s.modMy fun c => { c with seedLo := a.lo, seedHi := a.hi }).setV d a.bits tag).raiseFlags a.flags

/-- An element function that raises no flag and draws nothing. -/
def plain (f : Nat → Nat) : Nat → Nat → Nat × Flags := fun i _ => (f i, 0#6)

/-! The unit. -/

/-- The focus core's instruction touches registers. -/
def State.touchBanks (s : State) (rs : List Reg) : State := s.touchBanksAt s.focus.site s.mySlot rs

/-- Asks the cluster's arbiter for the vector unit's 2 units, once (R419). -/
def State.requestVector (s : State) : State :=
  let site := s.focus.site
  let cl := clusterOf site
  if (s.cluster cl).waiting.any fun q => q.site == site && q.unit == 1 then s
  else (s.modCluster cl fun c => { c with waiting := c.waiting ++ [{ site := site, unit := 1, units := 2,
                                                                     prio := s.prio s.myRegion, arrival := s.tick }] }).post
         (.reservationGrant cl)

/-- A vector instruction's start: wake, reservation and ramp (R419, R421), then its effect in one act (R262). Loads and stores have no occupancy and
reserve nothing, but wake the unit (R263; log entry 78). -/
def vecStart (rs : List Reg) (s : State) (next : State → Act) (reserves : Bool := true) : Act :=
  let site := s.focus.site
  let t := s.tile site
  let cl := clusterOf site
  let c := s.cluster cl
  let go (s : State) : Act := next ((s.modTile site fun t => { t with vecAsleep := false, vecLast := s.edgesAt site }).touchBanks rs)
  if t.vecAsleep then
    if !c.vec then go s
    else (s.requestVector.modMy fun c => { c with stall := .ramp }, .done)
  else if t.vecGrant then
    let r := go (s.modTile site fun t => { t with vecGrant := false })
    (r.1.releaseUnits cl 2, r.2)
  else if !reserves || c.grants 2 then go s
  else (s.requestVector, .stay)

/-- A vector instruction of majors 0x20 to 0x24: its tag checks, its metering, its effect. cr and vr are the registers it
names (R258, R261, R405). -/
def vecOp (len : Nat) (cr vr : List Reg) (ok : State → Bool) (macs : State → Nat) (eff : State → State) (s : State) :
    Host.Outcome State Fault Refusal :=
  issue { len := len, computeOnly := true, cr := cr, vr := vr } (fun s =>
    if !ok s then (s, .trap .format 0 0)
    else vecStart vr s fun s => (eff ((s.chargeOps s.me s.my.seg (macs s)).noteBudgets), .retire)) s

/-- Instructions that are not metered (R405). -/
def noMacs : State → Nat := fun _ => 0

/-- Weighted MACs of an enabled element: a multiply-add, or another minor of major 0x20 (R405). -/
def macWeight (k : Kind) (fma : Bool) : Nat :=
  match k with
  | .float f _ => (if f.w = 64 then 8 else if f.w = 32 then 2 else 1) * (if fma then 2 else 1)
  | _ => 1

end Sys2Proof.Machine
end

