-- ==== Sys2Proof/Machine/Handle.lean ====
section
/-! DEFINITION. Tile handles (R144 to R149), the range scoreboard (R157 to R159), and handle management, major 0x18 (R160
to R167). -/

namespace Sys2Proof.Machine

open Sys2Proof

/-! Shapes (R145, R146). -/

def Handle.rowBytes (h : Handle) : Nat := ceilDiv (h.cols * h.ebits) 8
def Handle.pitch (h : Handle) : Nat := ceilDiv h.rowBytes 64 * 64
def Handle.image (h : Handle) : Nat := h.rows * h.pitch
def Handle.size (h : Handle) : Nat := ceilDiv h.image 16384
/-- Bit offset of element (r, c) in the image (R146). -/
def Handle.bitOf (h : Handle) (r c : Nat) : Nat := r * h.pitch * 8 + c * h.ebits

def Ctx.handle (x : Ctx) (h : Nat) : Handle := tget {} x.handles h
def State.handle (s : State) (x h : Nat) : Handle := (s.ctx x).handle h
def State.modHandle (s : State) (x h : Nat) (f : Handle → Handle) : State :=
  s.modCtx x fun c => { c with handles := tput {} h (f (c.handle h)) c.handles }

/-- Granules that each tile's contexts hold, and the retired ones (R148, R319). -/
def Ctx.granulesAt (x : Ctx) (site : Nat) : List Nat :=
  if x.st == 0 && !x.coming || x.st == 2 then []
  else (if x.site == site then x.dequeGranules else []) ++ x.handles.flatMap fun e =>
    if (if e.2.level == .twin then twin x.site else x.site) == site then e.2.granules else []
def State.granulesUsed (s : State) (site : Nat) : List Nat :=
  (s.tile site).granulesBad ++ s.ctxs.flatMap fun e => e.2.granulesAt site
/-- Free granules in the order allocation takes them: powered banks first, then the rest (R149; log entry 8). -/
def State.granulesFree (s : State) (site : Nat) : List Nat :=
  let used := s.granulesUsed site
  let free := (List.range 192).filter fun g => !used.contains g
  let on (g : Nat) : Bool := used.any fun u => u / 4 == g / 4
  free.filter on ++ free.filter fun g => !on g

/-- Granules a context needs on its own tile, its deque's 4 among them, and on the twin (R319, R367). -/
def Ctx.needs (c : Ctx) (wanted : Bool) : Nat :=
  (c.handles.map fun e => if e.2.st != 0 && (e.2.level == .twin) == wanted then e.2.size else 0).sum + (if wanted then 0 else 4)

/-- Granules that shadows of duplex regions hold on a site: as many as their contexts hold, TWIN ones on the twin (R391; log entry 20). -/
def State.shadowHeld (s : State) (site : Nat) : Nat :=
  (s.ctxs.map fun e => match e.2.shadow with
    | some n => if n / 4 = site then e.2.needs false else if n / 4 = twin site then e.2.needs true else 0
    | none => 0).sum

/-- Granules that the contexts of a tile's twin hold there, and the shadows on it (R149, R391). -/
def State.twinHeld (s : State) (site : Nat) : Nat :=
  (s.ctxs.map fun e => (if e.2.st != 2 && e.2.site == twin site then (e.2.granulesAt site).length else 0) +
    (if e.2.shadow.any fun n => n / 4 == twin site then e.2.needs true else 0)).sum

/-- Granules that a placement or an allocation may take at a site. -/
def State.granuleRoom (s : State) (site : Nat) : Nat := (s.granulesFree site).length - s.shadowHeld site

/-- A site has room for g more granules of a handle at a level, of a context there (R149). -/
def State.roomFor (s : State) (site g : Nat) (level : Level) : Bool :=
  let i := if level == .twin then twin site else site
  decide (g ≤ s.granuleRoom i) && (level != .twin || decide (s.twinHeld i + g ≤ min (s.tile i).twincap 192))

/-- The tile whose banks hold a handle's bytes, and whose scoreboard its entries (R147, R157). -/
def State.handleSite (s : State) (x h : Nat) : Nat :=
  if (s.handle x h).level == .twin then twin (s.ctx x).site else (s.ctx x).site

/-- An allocation of g granules can be met, by a duplex region's shadow too (R149, R391). -/
def State.fits (s : State) (x g : Nat) (level : Level) : Bool :=
  let c := s.ctx x
  decide (c.used + g ≤ min c.quota 384) && s.roomFor c.site g level && c.shadow.all fun n => s.roomFor (n / 4) g level

/-! The scoreboard (R157 to R159). -/

def Tile.entries (t : Tile) : List Entry := t.board.filterMap (·.2)
def Entry.meets (e : Entry) (x h lo hi : Nat) : Bool :=
  e.ctx == x && e.h == h && decide (e.lo < hi) && decide (lo < e.hi)
/-- Entries that overlap bytes lo to hi − 1 of a handle. -/
def State.overlaps (s : State) (x h lo hi : Nat) : List Entry :=
  (s.tile (s.handleSite x h)).entries.filter fun e => e.meets x h lo hi
/-- Entries covering a handle. -/
def State.covering (s : State) (x h : Nat) : List Entry :=
  (s.tile (s.handleSite x h)).entries.filter fun e => e.ctx == x && e.h == h

/-- Makes one entry; none when the scoreboard is full (R159). -/
def State.addEntry (s : State) (e : Entry) : Option ((Nat × Nat) × State) :=
  let site := s.handleSite e.ctx e.h
  match (List.range 16).find? fun i => (tget none (s.tile site).board i).isNone with
  | some i => some ((site, i), s.modTile site fun t => { t with board := tput none i (some e) t.board })
  | none => none

/-- Makes every entry of a command, or none of them. -/
def State.addEntries (s : State) : List Entry → Option (List (Nat × Nat) × State)
  | [] => some ([], s)
  | e :: es => match s.addEntry e with
    | none => none
    | some (i, s) => (s.addEntries es).map fun r => (i :: r.1, r.2)

/-! Management. -/

/-- FAULTINFO of the handle causes (R150). -/
def handleInfo (h reason : Nat) : Nat := h % 32 + 32 * reason
def trapHandle (s : State) (h reason off : Nat) : Act := (s, .trap .handleInvalid (off % 2 ^ 56) (handleInfo h reason))

def State.declaredHandles (s : State) : Nat := (s.my.act.map (·.handles)).getD 0

/-- CheckHandle (R161): the reason of its failure. -/
def checkHandle (s : State) (h : Nat) (need : Bool) : Option Nat :=
  if s.declaredHandles ≤ h then some 0 else if need && (s.handle s.me h).st == 0 then some 1 else none

/-- Runs k on a handle that CheckHandle passes. -/
def withHandle (s : State) (h : Reg) (need : Bool) (off : Nat) (k : Unit → Act) : Act :=
  match checkHandle s h.toNat need with
  | some r => trapHandle s h.toNat r off
  | none => k ()

/-- Starts the zero fill of a handle as a command with one entry over its image (R157, R162, R167). -/
def zeroFill (s : State) (x h : Nat) : Option State :=
  (s.addEntry { ctx := x, h := h, lo := 0, hi := (s.handle x h).image, writes := true, kind := 1 }).map fun r =>
    (r.2.modHandle x h fun t => { t with bytes := [], bad := [] }).post (.zeroFillComplete r.1.1 r.1.2)

/-- HALLOC (R162). -/
def execHalloc (h : Reg) (rows cols : W16) (tag : Byte) (level : Level) (retain shatom : Bool) (s : State) :
    Host.Outcome State Fault Refusal :=
  issue { len := 12, waitAll := true } (fun s => withHandle s h false 0 fun _ =>
    let x := s.me
    let old := s.handle x h.toNat
    if old.st != 0 then
      if old.rows == rows.toNat && old.cols == cols.toNat && old.tag == tag && old.level == level && old.retain == retain &&
          old.shatom == shatom then (s, .retire)
      else trapHandle s h.toNat 5 0
    else match s.kind tag with
      | none => (s, .trap .format 0 0)
      | some k =>
        let new : Handle := { st := 1, rows := rows.toNat, cols := cols.toNat, tag := tag, level := level, retain := retain,
                              shatom := shatom, ebits := if k == .raw then 8 else k.width }
        let site := (s.ctx x).site
        if level == .twin && !s.good (twin site) then trapHandle s h.toNat 3 0
        else if !s.fits x new.size level then trapHandle s h.toNat 2 0
        else
          let gs := (s.granulesFree (if level == .twin then twin site else site)).take new.size
          let s' := (s.modHandle x h.toNat fun _ => { new with granules := gs }).modCtx x fun c => { c with used := c.used + new.size }
          match zeroFill s' x h.toNat with
          | some s' => (s', .retire)
          | none => (s, .stay)) s

/-- Returns a handle's granules (R163). -/
def State.freeHandle (s : State) (x h : Nat) : State :=
  let g := (s.handle x h).size
  (s.modHandle x h fun _ => {}).modCtx x fun c => { c with used := c.used - g }

/-- Core k has an access to a handle of its context under way (R163): stalled, past the checks of an HATOM or HCAS, that of an instruction
which a deferred trap came before among them, or in the request of an HCASX that names its own virtual tile. -/
def State.touching (s : State) (k h : Nat) : Bool :=
  let c := s.core k
  let m := s.mcore (s.coreId k)
  c.prog.handle == some h || (m.mode && m.trapCtx == some (coreCtx k) && m.kept.handle == some h) || c.reqs.any (fun e => e.2.any fun q => match q.kind with
    | .hcasx _ _ _ _ _ vt i => i == h && vt == ctxVt (coreCtx k)
    | _ => false) ||
  match c.stall with
  | .scratch a => a.h == h
  | .copy d => d.h == h && d.kind != .cpub
  | .matrix m => match m.kind with
    | .mma a b _ _ => (a.vt.isNone && a.h == h) || (b.vt.isNone && b.h == h)
    | .mmas a b sa sb _ _ _ _ _ => (a.vt.isNone && a.h == h) || (b.vt.isNone && b.h == h) || sa.h == h || sb.h == h
    | .mlda i => i == h
    | .msta i => i == h
    | .mtrn d i => d == h || i == h
    | .mcvt i _ _ _ => i == h
    | .mzero => false
  | _ => false

/-- HFREE (R163): waits for the entries that cover the handle and for an access under way. -/
def execHfree (h : Reg) (s : State) : Host.Outcome State Fault Refusal :=
  issue { waitAll := true } (fun s => withHandle s h false 0 fun _ =>
    let x := s.me
    let t := s.handle x h.toNat
    if t.st = 0 then (s, .retire)
    else if t.st = 2 then (s, .trap .handleExported 0 (handleInfo h.toNat 0))
    else if !(s.covering x h.toNat).isEmpty || s.touching (coreKey x (!s.focus.compute)) h.toNat then (s, .stay)
    else (s.freeHandle x h.toNat, .retire)) s

/-- HRETAIN (R164). -/
def execHretain (h : Reg) (k : Bool) (s : State) : Host.Outcome State Fault Refusal :=
  issue {} (fun s => withHandle s h true 0 fun _ =>
    (s.modHandle s.me h.toNat fun t => { t with retain := k }, .retire)) s

/-- The selectors of HQUERY (R165); of a USED above QUOTA nothing is left (log entry 68). -/
def queryHandle (s : State) (x h sel : Nat) : Nat :=
  let t := s.handle x h
  let c := s.ctx x
  if sel = 5 then min (min c.quota 384 - c.used) (s.granuleRoom c.site)
  else if t.st = 0 then 0
  else match sel with
    | 0 => t.st + (match t.level with | .tile => 0 | .twin => 1 | .cluster => 2) * 4 + bit01 t.retain * 16 + bit01 t.shatom * 32 +
        t.tag.toNat * 256
    | 1 => t.rows
    | 2 => t.cols
    | 3 => t.pitch
    | 4 => t.size * 16384
    | _ => (s.covering x h).length

/-- HQUERY (R165). -/
def execHquery (d h : Reg) (sel : BitVec 3) (s : State) : Host.Outcome State Fault Refusal :=
  issue { cr := [d] } (fun s => withHandle s h false 0 fun _ =>
    retireWith s d (BitVec.ofNat 64 (queryHandle s s.me h.toNat sel.toNat))) s

/-- HEXPORT (R166). -/
def execHexport (h : Reg) (s : State) : Host.Outcome State Fault Refusal :=
  issue {} (fun s => withHandle s h true 0 fun _ =>
    let x := s.me
    let t := s.handle x h.toNat
    if t.st = 2 then (s, .retire)
    else if t.level != .cluster then trapHandle s h.toNat 4 0
    else if (s.covering x h.toNat).any (·.writes) then (s, .stay)
    else (s.modHandle x h.toNat fun t => { t with st := 2 }, .retire)) s

/-- A remote read of a handle is in flight: a matrix command waits for its operand, or a copy of a resident context's queue that is not
FAULTED has it for its source (R153, R283). -/
def readsRemote (c : MatCmd) (vt h : Nat) : Bool :=
  let one (o : MOperand) : Bool := o.vt == some vt && o.h == h
  c.requested && !c.consumed && match c.kind with
  | .mma a b _ _ => one a || one b
  | .mmas a b _ _ _ _ _ _ _ => one a || one b
  | _ => false
def State.remoteReaders (s : State) (x h : Nat) : Bool :=
  s.ctxs.any fun e => ctxRegion e.1 == ctxRegion x && (e.2.st == 1 || e.2.st == 3) &&
    (e.2.cmds.any (fun c => readsRemote c (ctxVt x) h) || e.2.copyq.any fun q => !q.2.faulted && q.2.cmds.any fun c =>
      c.kind == .remote && c.started && c.srcVt == ctxVt x && c.srcH == h)

/-- HUNEXPORT (R153, R166). -/
def execHunexport (h : Reg) (s : State) : Host.Outcome State Fault Refusal :=
  issue {} (fun s => withHandle s h true 0 fun _ =>
    let x := s.me
    if (s.handle x h.toNat).st = 1 then (s, .retire)
    else if s.remoteReaders x h.toNat then (s, .stay)
    else (s.modHandle x h.toNat fun t => { t with st := 1 }, .retire)) s

/-- HZERO (R167). -/
def execHzero (h : Reg) (s : State) : Host.Outcome State Fault Refusal :=
  issue { waitAll := true } (fun s => withHandle s h true 0 fun _ =>
    if (s.handle s.me h.toNat).st = 2 then (s, .trap .handleExported 0 (handleInfo h.toNat 0))
    else match zeroFill s s.me h.toNat with
      | some s => (s, .retire)
      | none => (s, .stay)) s

/-- HWAIT (R167). -/
def execHwait (h : Reg) (s : State) : Host.Outcome State Fault Refusal :=
  issue {} (fun s => withHandle s h true 0 fun _ =>
    (s, if (s.covering s.me h.toNat).isEmpty then .retire else .stay)) s

/-- ZERO_FILL_COMPLETE: a fill's entry retires (R162). -/
def execZeroFillComplete (site id : Nat) (s : State) : Host.Outcome State Fault Refusal :=
  .next (match tget none (s.tile site).board id with
    | some e => if e.kind = 1 then s.freeEntry (site, id) else s
    | none => s)

end Sys2Proof.Machine
end

