-- ==== Sys2Proof/Machine/HandleAccess.lean ====
section
/-! DEFINITION. Handle access, major 0x1A (R168 to R171), with the ends of its stalls and its remote form. -/

namespace Sys2Proof.Machine

open Sys2Proof

/-- 8-byte words of a handle that bytes lo to hi − 1 touch. -/
def badIn (t : Handle) (lo hi : Nat) : Bool := t.bad.any fun w => decide (8 * w < hi) && decide (lo < 8 * w + 8)

/-- Writes n bytes of a handle; a word that is wholly written is whole again (R386). -/
def Handle.store (t : Handle) (off n x : Nat) : Handle :=
  { t with bytes := twrite t.bytes off n x
           bad := t.bad.filter fun w => !(decide (off ≤ 8 * w) && decide (8 * w + 8 ≤ off + n)) }

/-- An access at its bank, for core k (R151, R169, R170). -/
def performScr (s : State) (k : Nat) (a : Scr) : State :=
  let x := coreCtx k
  let t := s.handle x a.h
  let old := tread t.bytes a.off a.n
  match a.op with
  | .load d => s.wcOf k d (dataReg (BitVec.ofNat 64 old))
  | .store v => s.modHandle x a.h fun t => t.store a.off a.n v
  | .loadV d tag => (s.modCtx x fun c => { c with v := tput {} d.toNat { bits := BitVec.ofNat 1024 old, tag := tag } c.v }).touchBanksAt
      (s.ctx x).site (s.ctx x).slot [d]
  | .storeV v => s.modHandle x a.h fun t => t.store a.off a.n v
  | .atom d minor b cmp _ =>
    (match atomNew minor a.n old b cmp with
     | some v => s.modHandle x a.h fun t => t.store a.off a.n v
     | none => s).wcOf k d (dataReg (BitVec.ofNat 64 old))

def ScrOp.reads (o : ScrOp) : Bool := match o with | .store _ => false | .storeV _ => false | _ => true
def ScrOp.writes (o : ScrOp) : Bool := match o with | .load _ => false | .loadV _ _ => false | _ => true

/-- The higher published tail of a context's two cores (R170). -/
def State.ctxTail (s : State) (x : Nat) : Stamp := max (s.core (coreKey x false)).tail (s.core (coreKey x true)).tail

/-- What follows an access of core k: retirement, or the wait of .ACQ (R170). -/
def scrNext (s : State) (k : Nat) (a : Scr) : State :=
  let p := (s.core k).prog
  let p' : Progress := match a.op with
    | .atom _ _ _ _ true => { p with step := 2, value := s.ctxTail (coreCtx k) }
    | _ => { p with step := 1 }
  s.modCore k fun c => { c with stall := .none, prog := p' }

/-- The checks of R169, then k. -/
def scrChecks (s : State) (h : Reg) (off n : Nat) (writes reads : Bool) (k : Unit → Act) : Act :=
  withHandle s h true off fun _ =>
    let t := s.handle s.me h.toNat
    if t.image < off + n then (s, .trap .handleBounds (off % 2 ^ 56) (handleInfo h.toNat 0))
    else if writes && t.st == 2 then (s, .trap .handleExported (off % 2 ^ 56) (handleInfo h.toNat 0))
    else if reads && badIn t off (off + n) then (s, .trap .uncorrectable (off % 2 ^ 56) 0)
    else k ()

/-- The access, or the stall on the scoreboard (R158). -/
def scrAct (s : State) (a : Scr) : Act :=
  if (s.overlaps s.me a.h a.off (a.off + a.n)).isEmpty then
    match a.op with
    | .atom _ _ _ _ true =>
      let s := performScr s s.myKey a
      waitFp (s.modMy fun c => { c with prog := { c.prog with step := 2, value := s.ctxTail s.me } }) (s.ctxTail s.me) .retire
    | _ => (performScr s s.myKey a, .retire)
  else (s.modMy fun c => { c with stall := .scratch a }, .done)

/-- A load or store of a handle: c(B) counts units of n bytes (R169). -/
def scrAccess (i : Issue) (n : Nat) (h b : Reg) (ok : State → Handle → Bool) (op : State → Handle → ScrOp) (s : State) :
    Host.Outcome State Fault Refusal :=
  issue i (fun s =>
    if s.my.prog.step = 1 then (s, .retire)
    else
      let off := (s.rd b).toNat * n
      let t := s.handle s.me h.toNat
      let o := op s t
      scrChecks s h off n o.writes o.reads fun _ =>
        if !ok s t then (s, .trap .format 0 0)
        else
          let a : Scr := { h := h.toNat, off := off, n := n, op := o }
          if i.vr.isEmpty then scrAct s a else vecStart i.vr s (fun s => scrAct s a) false) s

def anyTag : State → Handle → Bool := fun _ _ => true

def execLdh32 (d h b : Reg) (s : State) : Host.Outcome State Fault Refusal :=
  scrAccess { cr := [d, b] } 4 h b anyTag (fun _ _ => .load d) s
def execLdh64 (d h b : Reg) (s : State) : Host.Outcome State Fault Refusal :=
  scrAccess { cr := [d, b] } 8 h b anyTag (fun _ _ => .load d) s
def execSth32 (d h b : Reg) (s : State) : Host.Outcome State Fault Refusal :=
  scrAccess { cr := [d, b], waitAll := true } 4 h b anyTag (fun s _ => .store ((s.rd d).toNat % 2 ^ 32)) s
def execSth64 (d h b : Reg) (s : State) : Host.Outcome State Fault Refusal :=
  scrAccess { cr := [d, b], waitAll := true } 8 h b anyTag (fun s _ => .store (s.rd d).toNat) s
/-- No tag of the handle is a trap here, an invalid 0x20 + k included (R169, R244; log entry 83). -/
def execLdhv (d h b : Reg) (s : State) : Host.Outcome State Fault Refusal :=
  scrAccess { computeOnly := true, cr := [b], vr := [d] } 128 h b anyTag (fun _ t => .loadV d t.tag) s
/-- As LDHV, and a tag of the register other than the handle's is TAG_MISMATCH unless one is untyped (R169; log entry 83). -/
def execSthv (d h b : Reg) (s : State) : Host.Outcome State Fault Refusal :=
  scrAccess { computeOnly := true, cr := [b], vr := [d], waitAll := true } 128 h b
    (fun s t => (s.vr d).tag == t.tag || (s.vr d).tag == 0#8 || t.tag == 0#8) (fun s _ => .storeV (s.vbits d)) s

/-- The access of an HATOM or HCAS behind its release: no check of R169 is made again (R170), but an uncorrectable word is met as
it is read (R386). -/
def scrLate (s : State) (a : Scr) : Act :=
  if badIn (s.handle s.me a.h) a.off (a.off + a.n) then (s, .trap .uncorrectable (a.off % 2 ^ 56) 0) else scrAct s a

/-- The registers a handle atomic's checkpoint names (R170). -/
def regMask (rs : List Reg) : Nat := rs.foldl (fun (m : Nat) (r : Reg) => m ||| 2 ^ r.toNat) 0

/-- HATOM and HCAS: the checks, made before the release alone, the release, the access, the wait (R170). -/
def handleAtomic (order : Order) (w32 : Bool) (minor : Nat) (d h b : Reg) (more : List Reg) (opnd cmp : State → Nat) (s : State) :
    Host.Outcome State Fault Refusal :=
  let n := atomBytes w32
  issue { len := 12, cr := [d, b] ++ more, waitAll := true } (fun s =>
    if s.my.prog.step = 1 then (s, .retire)
    else if s.my.prog.step = 2 then waitFp s s.my.prog.value .retire
    else
      let a : Scr := { h := h.toNat, off := (s.rd b).toNat * n, n := n,
                       op := .atom d minor (opnd s % 256 ^ n) (cmp s % 256 ^ n) (Order.acquires order) }
      if s.my.prog.rel.isSome then scrLate s a
      else scrChecks s h a.off n true true fun _ =>
        if Order.releases order then
          withRelease (s.modMy fun c => { c with prog := { c.prog with handle := some h.toNat } })
            (some (s.mkCkpt s.my.pc (regMask ([d, b] ++ more)) s.my.sig)) fun s _ => scrAct s a
        else scrAct s a) s

/-- The minor of R139 that OP names (R34, R170). -/
def AtomOp.minor (o : AtomOp) : Nat :=
  match o with
  | .add => 0 | .and => 1 | .or => 2 | .xor => 3 | .minS => 4 | .minN => 5 | .maxS => 6 | .maxN => 7 | .swap => 8

def execHatom (order : Order) (w32 : Bool) (op : AtomOp) (d h b : Reg) (s : State) : Host.Outcome State Fault Refusal :=
  handleAtomic order w32 (AtomOp.minor op) d h b [] (fun s => (s.rd d).toNat) (fun _ => 0) s
def execHcas (order : Order) (w32 : Bool) (d h b cmp : Reg) (s : State) : Host.Outcome State Fault Refusal :=
  handleAtomic order w32 9 d h b [cmp] (fun s => (s.rd d).toNat) (fun s => (s.rd cmp).toNat) s

/-- SCOREBOARD_STALL_END: the entries are gone and the access takes effect (R158); one that meets an uncorrectable word
goes back to its checks. -/
def execScoreboardStallEnd (k : Nat) (s : State) : Host.Outcome State Fault Refusal :=
  .next (match (s.core k).stall with
    | .scratch a =>
      let x := coreCtx k
      let t := s.handle x a.h
      if !(s.overlaps x a.h a.off (a.off + a.n)).isEmpty then s
      else if ((s.core k).prog.rel.isNone && (t.st == 0 || (t.st == 2 && a.op.writes))) || (a.op.reads && badIn t a.off (a.off + a.n)) then
        s.modCore k fun c => { c with stall := .none }
      else scrNext (performScr s k a) k a
    | _ => s)

/-- HCASX (R171): the issuer's checks, the release, the request and the wait for its reply. -/
def execHcasx (order : Order) (w32 : Bool) (d h b cmp vtr : Reg) (s : State) : Host.Outcome State Fault Refusal :=
  let n := atomBytes w32
  issue { len := 12, cr := [d, b, cmp, vtr], waitAll := true } (fun s =>
    if s.my.prog.step = 1 then (s, .retire)
    else if s.my.prog.step = 2 then (if Order.acquires order then waitFp s s.my.prog.value .retire else (s, .retire))
    else
      let off := (s.rd b).toNat * n
      let vt := (s.rd vtr).toNat % 2 ^ 24
      if s.gridSize s.myRegion ≤ vt then trapHandle s h.toNat 7 off
      else
        let go (s : State) (_ : Stamp) : Act :=
          match s.freeSlot with
          | none => (s, .stay)
          | some i =>
            let k := s.myKey
            let q : Req := { kind := .hcasx d n off ((s.rd d).toNat % 256 ^ n) ((s.rd cmp).toNat % 256 ^ n) vt h.toNat,
                             v := s.my.view, va := off, want := [], pc := s.my.pc, word := s.word0 }
            ((s.modMy fun c => { c with reqs := tput none i (some q) c.reqs, stall := .reply i }).post (.hcasxTarget k i), .done)
        if Order.releases order then withRelease s (some (s.mkCkpt s.my.pc (regMask [d, b, cmp, vtr]) s.my.sig)) go
        else go s 0) s

/-- What an HCASX meets at its target; none while a scoreboard entry holds it (R171). -/
def hcasxAct (s : State) (x h n off new cmp : Nat) : Option ReqEnd × State :=
  let t := s.handle x h
  if (s.ctx x).st != 1 then (some .absent, s)
  else if t.st == 0 || !t.shatom then (some (.refused Cause.handleInvalid.code (handleInfo h 6) (off % 2 ^ 56)), s)
  else if t.image < off + n then (some (.refused Cause.handleBounds.code (handleInfo h 0) (off % 2 ^ 56)), s)
  else if t.st == 2 then (some (.refused Cause.handleExported.code (handleInfo h 0) (off % 2 ^ 56)), s)
  else if !(s.overlaps x h off (off + n)).isEmpty then (none, s)
  else if badIn t off (off + n) then (some (.refused Cause.uncorrectable.code 0 (off % 2 ^ 56)), s)
  else
    let old := tread t.bytes off n
    (some (.value old false (s.ctxTail x)), if old = cmp then s.modHandle x h fun t => t.store off n new else s)

/-- HCASX_TARGET (R171). -/
def execHcasxTarget (k id : Nat) (s : State) : Host.Outcome State Fault Refusal :=
  .next (match tget none (s.core k).reqs id with
    | some q => match q.kind, q.done with
      | .hcasx _ n off new cmp vt h, none =>
        let y := ctxKey (ctxRegion (coreCtx k)) vt
        match hcasxAct (s.cacheEntry (coreCtx k) y) y h n off new cmp with
        | (some e, s) => (s.modCore k fun c => { c with reqs := tput none id (some { q with done := some e }) c.reqs }).post (.hcasxReply k id)
        | (none, s) => s.later (.hcasxTarget k id)
      | _, _ => s
    | none => s)

/-- HCASX_REPLY: the old value, the failed compare of an absent target, or the refusal's trap at the HCASX (R171). -/
def execHcasxReply (k id : Nat) (s : State) : Host.Outcome State Fault Refusal :=
  .next (match tget none (s.core k).reqs id with
    | some q => match q.kind, q.done with
      | .hcasx d n _ _ cmp _ _, some e =>
        let s := s.modCore k fun c => { c with reqs := tput none id none c.reqs, stall := .none }
        let onward (s : State) (step v : Nat) : State := s.modCore k fun c => { c with prog := { c.prog with step := step, value := v } }
        match e with
        | .value x _ tail => onward (deliver s k q.kind x false) 2 tail
        | .absent => onward (s.wcOf k d (dataReg (BitVec.ofNat 64 (256 ^ n - 1 - cmp)))) 1 0
        | .refused cause info va => s.asCore k fun s => s.takeTrap cause va info q.pc q.word false false
        | .abort c va info => s.abortReq k q c va info
      | _, _ => s
    | none => s)

end Sys2Proof.Machine
end

