-- ==== Sys2Proof/Machine/Copy.lean ====
section
/-! DEFINITION. Copies, major 0x1C, their acceptance (R172, R186 to R196), and queue control, major 0x1D (R197, R198). -/

namespace Sys2Proof.Machine

open Sys2Proof

/-! Chunks (R179). -/

/-- A run cut at 4 KiB blocks of its addresses. -/
def cutRun : Nat → Run → List Run
  | 0, _ => []
  | f + 1, r =>
    let n := min r.len (4096 - r.va % 4096)
    if r.len = 0 then [] else { r with len := n } :: cutRun f { va := r.va + n, off := r.off + n, len := r.len - n }
def cutRuns (rs : List Run) : List Run := rs.flatMap fun r => cutRun (r.len / 4096 + 2) r

/-- The chunks of runs: one for each block, blocks ascending, runs in element order (R173, R179). -/
def chunksOf (rs : List Run) : List (List Run) :=
  ((cutRuns rs).foldl (fun (t : Tbl (List Run)) r => tput [] (r.va / 4096) (tget [] t (r.va / 4096) ++ [r]) t) []).map (·.2)

/-- The chunks of a gather: consecutive elements of one block, up to 4 KiB (R179). -/
def gatherChunks : List Run → List (List Run) → List (List Run)
  | [], acc => acc.reverse
  | r :: rs, acc =>
    match acc with
    | (c@(h :: _)) :: rest =>
      if h.va / 4096 = r.va / 4096 ∧ (c.map (·.len)).sum + r.len ≤ 4096 then gatherChunks rs ((c ++ [r]) :: rest)
      else gatherChunks rs ([r] :: acc)
    | _ => gatherChunks rs ([r] :: acc)

/-- Runs that read no device memory, in pieces of 4 KiB of the image. -/
def pieces (n : Nat) : List (List Run) := chunksOf [{ va := 0, off := 0, len := n }]

/-! Acceptance (R172, R187). -/

def CopyKind.minor (k : CopyKind) : Nat :=
  match k with
  | .cpy _ => 0 | .cpys _ => 1 | .cpyv _ => 2 | .cpyg => 3 | .cpym => 4 | .cshd => 5 | .cpub => 6 | .cred => 7 | .remote => 0

/-- The command writes its handle. -/
def CopyKind.intoHandle (k : CopyKind) : Bool :=
  match k with | .cpy out => !out | .cpys out => !out | .cpyv out => !out | .cpyg => true | .remote => true | _ => false

/-- The command reads its handle. -/
def CopyKind.fromHandle (k : CopyKind) : Bool :=
  match k with | .cpub => false | k => !k.intoHandle

/-- A command from an instruction's tags (R35). -/
def mkCopy (s : State) (t : CopyTags) (k : CopyKind) (h : Nat) : CopyCmd :=
  { kind := k, q := t.q.toNat, compute := s.focus.compute, h := h
    bar := if t.barV then some t.bar.toNat else none
    sem := if t.semV then some t.sem.toNat else none
    ev := if t.evV then some t.ev.toNat else none }

/-- The smallest range of the image that the runs cover (R157). -/
def imageRange (c : CopyCmd) : Nat × Nat :=
  let rs := c.chunks.flatten
  (((rs.map (·.off)).min?).getD 0, rs.foldl (fun m r => max m (r.off + r.len)) 0)

/-- Accept() of R187 for core k: the scoreboard entry, the read stamp, the place in the queue; none where it must wait. -/
def acceptCopy (s : State) (k : Nat) (c : CopyCmd) : Option State :=
  let x := coreCtx k
  if 8 ≤ (tget {} (s.ctx x).copyq c.q).cmds.length then none
  else
    let c := { c with readStamp := (s.core k).view, seg := (s.core k).seg, order := s.seq
                      src := if c.kind.fromHandle then (s.handle x c.h).bytes else [] }
    let enter (s : State) (c : CopyCmd) : State := (s.modQueue x c.q fun q => { q with cmds := q.cmds ++ [c] }).bump
    match c.kind with
    | .cpub => some (enter s c)
    | _ =>
      let r := if c.kind = .cpyg then (0, c.count * c.eb) else imageRange c
      (s.addEntry { ctx := x, h := c.h, lo := r.1, hi := r.2, writes := c.kind.intoHandle, kind := 0 }).map fun e =>
        enter e.2 { c with entry := some e.1 }

/-- The accepted command, or the stall until it can be (R172). -/
def enqueue (s : State) (c : CopyCmd) : Act :=
  match acceptCopy s s.myKey c with
  | some s => (s, .retire)
  | none => (s.modMy fun k => { k with stall := .copy c }, .done)

/-- IssueCopy (R187): the waits and checks every minor shares, then its own. h is the handle of a minor that has one. -/
def issueCopy (len : Nat) (t : CopyTags) (cr : List Reg) (h : Option Reg) (writes : Bool) (body : State → Act) (s : State) :
    Host.Outcome State Fault Refusal :=
  issue { len := len, cr := cr, waitAll := true } (fun s =>
    if s.my.prog.step = 1 then (s, .retire)
    else if h.isSome && s.declaredHandles == 0 then (s, .trap .illegal 0 0)
    else if t.semV && !s.semOk t.sem.toNat then (s, .trap .privilege 0 0)
    else if t.evV && !s.evOk t.ev.toNat then (s, .trap .privilege 0 0)
    else match h with
      | none => body s
      | some h => withHandle s h true 0 fun _ =>
        if writes && (s.handle s.me h.toNat).st == 2 then (s, .trap .handleExported 0 (handleInfo h.toNat 0)) else body s) s

/-- CheckCap over [lo, hi), not checked when empty (R187). -/
def checkRange (c : CReg) (lo hi : Int) (p : Perms) : Option Cause := if hi ≤ lo then none else checkCap c lo (hi - lo).toNat 1 p

/-- The first two checks of R57 on a copy's device address: the tag, which a range of length zero has no check of (R187), and the
alignment of the copy's entry (log entry 59). -/
def copyAlign (c : CReg) (n align : Nat) : Option Cause :=
  if n != 0 && !c.tag then some .capTag else if c.addr % align != 0 then some .misaligned else none

def trapBounds (s : State) (h : Reg) (off : Nat) : Act := (s, .trap .handleBounds (off % 2 ^ 56) (handleInfo h.toNat 0))

/-- A capability to data of device memory or a remote source (R188). -/
def remoteSource (c : CReg) (out : Bool) : Bool := !c.tag && !out && bitAt c.bits 63

/-- CPY (R188). -/
def execCpy (t : CopyTags) (out : Bool) (h a b : Reg) (s : State) : Host.Outcome State Fault Refusal :=
  issueCopy 12 t [a, b] (some h) (!out) (fun s =>
    let c := s.rc a
    let n := (s.rd b).toNat
    let g := s.handle s.me h.toNat
    if g.image < n then trapBounds s h n
    else if remoteSource c out then
      let v := (s.rd a).toNat
      if v / 2 ^ 29 % 2 ^ 34 != 0 then trapEa s .capTag c.addr
      else enqueue s { mkCopy s t .remote h.toNat with chunks := pieces n, srcVt := v % 2 ^ 24, srcH := v / 2 ^ 24 % 32 }
    else match checkRange c c.addr (c.addr + n) (if out then { s := true } else { l := true }) with
      | some e => trapEa s e c.addr
      | none => enqueue s { mkCopy s t (.cpy out) h.toNat with chunks := chunksOf [{ va := c.addr, off := 0, len := n }] }) s

/-- CPYS (R188). -/
def execCpys (t : CopyTags) (out : Bool) (h a b : Reg) (rows rowb : W16) (s : State) : Host.Outcome State Fault Refusal :=
  issueCopy 12 t [a, b] (some h) (!out) (fun s =>
    let c := s.rc a
    let g := s.handle s.me h.toNat
    let stride := (s.rd b).toInt
    let last : Int := c.addr + ((rows.toNat : Int) - 1) * stride
    let lo : Int := min (c.addr : Int) last
    let hi : Int := max (c.addr : Int) last + rowb.toNat
    if g.pitch < rowb.toNat ∨ g.rows < rows.toNat then trapBounds s h ((rows.toNat - 1) * g.pitch + rowb.toNat)
    else match checkRange c lo hi (if out then { s := true } else { l := true }) with
      | some e => trapEa s e lo
      | none => enqueue s { mkCopy s t (.cpys out) h.toNat with
          chunks := chunksOf ((List.range rows.toNat).map fun (r : Nat) =>
            { va := ((c.addr : Int) + (r : Int) * stride).toNat, off := r * g.pitch, len := rowb.toNat }) }) s

/-- The geometry descriptor (R189). -/
structure Geometry where
  nx : Nat
  ny : Nat
  nz : Nat
  eb : Nat
  sy : Int
  sz : Int
  ox : Nat
  oy : Nat
  oz : Nat
  px : Nat
  py : Nat
  pz : Nat

def geometry (x : Nat) : Geometry :=
  let h (i : Nat) : Nat := x / 2 ^ (8 * i) % 65536
  let w (i : Nat) : Int := decodeInt 32 true (x / 2 ^ (8 * i) % 2 ^ 32)
  { nx := h 0, ny := h 2, nz := h 4, eb := h 6, sy := w 8, sz := w 12, ox := h 16, oy := h 18, oz := h 20, px := h 22, py := h 24,
    pz := h 26 }

def Geometry.bad (g : Geometry) (x : Nat) : Bool :=
  g.nx == 0 || g.ny == 0 || g.nz == 0 || g.eb == 0 || decide (64 < g.eb) || x / 2 ^ 224 != 0 ||
    (g.px != 0 && decide (g.px ≤ g.ox)) || (g.py != 0 && decide (g.py ≤ g.oy)) || (g.pz != 0 && decide (g.pz ≤ g.oz))

/-- Global (R189). -/
def globalCoord (o : Nat) (l : Int) (p : Nat) : Int := if p = 0 then o + l else ((o : Int) + l) % p

/-- The local coordinates of an axis: with halo, or the interior alone. -/
def axis (n halo : Nat) : List Int := (List.range (n + 2 * halo)).map fun (i : Nat) => (i : Int) - halo

/-- The elements of a box, ascending z, y, x, as (address, handle offset) (R189). -/
def boxElems (g : Geometry) (base : Int) (pitch hx hy hz : Nat) (out : Bool) : List (Int × Nat) :=
  let zs := if out then axis g.nz 0 else axis g.nz hz
  let ys := if out then axis g.ny 0 else axis g.ny hy
  let xs := if out then axis g.nx 0 else axis g.nx hx
  zs.flatMap fun (z : Int) => ys.flatMap fun (y : Int) => xs.map fun (x : Int) =>
    let row := ((z + hz) * ((g.ny + 2 * hy : Nat) : Int) + (y + hy)).toNat
    (base + globalCoord g.ox x g.px * g.eb + globalCoord g.oy y g.py * g.sy + globalCoord g.oz z g.pz * g.sz,
     row * pitch + (x + hx).toNat * g.eb)

/-- CPYV (R189). -/
def execCpyv (t : CopyTags) (out : Bool) (h a b : Reg) (hx hy hz : BitVec 4) (s : State) : Host.Outcome State Fault Refusal :=
  issueCopy 12 t [a, b] (some h) (!out) (fun s =>
    let c := s.rc a
    let l := s.rc b
    let hd := s.handle s.me h.toNat
    match checkCap l l.addr 32 1 { l := true } with
    | some e => trapEa s e l.addr
    | none => match readOwn s l.addr 32 with
      | (.abort e va info, s) => (s, .abort e va info)
      | (.wait, s) => (s, .stay)
      | (.ok x _, s) =>
        let g := geometry x
        let rows := (g.ny + 2 * hy.toNat) * (g.nz + 2 * hz.toNat)
        if g.bad x then (s, .trap .illegal 0 0)
        else if hd.pitch < (g.nx + 2 * hx.toNat) * g.eb ∨ hd.rows < rows then
          trapBounds s h ((rows - 1) * hd.pitch + (g.nx + 2 * hx.toNat) * g.eb)
        else
          let es := boxElems g c.addr hd.pitch hx.toNat hy.toNat hz.toNat out
          let lo := ((es.map (·.1)).min?).getD 0
          let hi := ((es.map (·.1)).max?).getD 0 + g.eb
          match checkRange c lo hi (if out then { s := true } else { l := true }) with
          | some e => trapEa s e lo
          | none => enqueue s { mkCopy s t (.cpyv out) h.toNat with
              chunks := chunksOf (es.map fun e => { va := e.1.toNat, off := e.2, len := g.eb }) }) s

/-- CPYG (R190): the list is read when the command starts. -/
def execCpyg (t : CopyTags) (h a b : Reg) (count eb : W16) (s : State) : Host.Outcome State Fault Refusal :=
  issueCopy 12 t [a, b] (some h) true (fun s =>
    let c := s.rc a
    let l := s.rc b
    let n := count.toNat * eb.toNat
    match checkCap l l.addr (8 * count.toNat) 1 { l := true } with
    | some e => trapEa s e l.addr
    | none =>
      if !c.tag then trapEa s .capTag c.addr
      else if !c.permL then trapEa s .capPerm c.addr
      else if (s.handle s.me h.toNat).image < n then trapBounds s h n
      else enqueue s { mkCopy s t .cpyg h.toNat with
        list := l.addr, count := count.toNat, eb := eb.toNat, capLo := c.base, capHi := c.top, lo := c.addr }) s

/-- The entries of a multicast list (R192). -/
def destsOf (x : Nat) : Nat → List Dest
  | 0 => []
  | n + 1 => { vt := x % 2 ^ 24, h := x / 2 ^ 24 % 32 } :: destsOf (x / 2 ^ 32) n
def destsBad (x : Nat) : Nat → Bool
  | 0 => false
  | n + 1 => x / 2 ^ 29 % 8 != 0 || destsBad (x / 2 ^ 32) n

/-- CPYM (R192). -/
def execCpym (t : CopyTags) (h a : Reg) (count : BitVec 5) (s : State) : Host.Outcome State Fault Refusal :=
  issueCopy 12 t [a] (some h) false (fun s =>
    let c := s.rc a
    let n := (s.handle s.me h.toNat).image
    match checkCap c c.addr (4 * count.toNat) 1 { l := true } with
    | some e => trapEa s e c.addr
    | none => match readOwn s c.addr (4 * count.toNat) with
      | (.abort e va info, s) => (s, .abort e va info)
      | (.wait, s) => (s, .stay)
      | (.ok x _, s) =>
        if destsBad x count.toNat then (s, .trap .illegal 0 0)
        else enqueue s { mkCopy s t .cpym h.toNat with chunks := pieces n, dests := destsOf x count.toNat }) s

/-- CSHD (R194). -/
def execCshd (t : CopyTags) (h a b : Reg) (s : State) : Host.Outcome State Fault Refusal :=
  issueCopy 12 t [a, b] (some h) false (fun s =>
    let c := s.rc a
    let n := (s.rd b).toNat
    match copyAlign c n 65536 with
    | some e => trapEa s e c.addr
    | none =>
      if !devHalf c.addr then trapEa s .capPerm c.addr
      else if (s.handle s.me h.toNat).image < n then trapBounds s h n
      else match checkRange c c.addr (c.addr + n) { s := true } with
        | some e => trapEa s e c.addr
        | none =>
          enqueue s { mkCopy s t .cshd h.toNat with
            chunks := chunksOf [{ va := c.addr, off := 0, len := n }], lo := c.addr, hi := c.addr + n }) s

/-- CPUB (R195). -/
def execCpub (t : CopyTags) (a : Reg) (s : State) : Host.Outcome State Fault Refusal :=
  issueCopy 12 t [a] none false (fun s =>
    let c := s.rc a
    match copyAlign c (c.top - c.addr) 65536 with
    | some e => trapEa s e c.addr
    | none => match checkRange c c.addr c.top { s := true } with
      | some e => trapEa s e c.addr
      | none => enqueue s { mkCopy s t .cpub 0 with chunks := [[]], lo := c.addr, hi := c.top }) s

/-- The element of a CRED by its handle's tag: bytes, float, signed (R193). -/
def credKind (tag : Byte) : Option (Nat × Bool × Bool) :=
  match tag.toNat with
  | 0x01 => some (4, true, false)
  | 0x02 => some (8, true, false)
  | 0x14 => some (4, false, true)
  | 0x15 => some (4, false, false)
  | 0x16 => some (8, false, true)
  | 0x17 => some (8, false, false)
  | _ => none

/-- CRED (R193). -/
def execCred (t : CopyTags) (op : RedOp) (h a b : Reg) (s : State) : Host.Outcome State Fault Refusal :=
  issueCopy 12 t [a, b] (some h) false (fun s =>
    let c := s.rc a
    let g := s.handle s.me h.toNat
    let e := (s.rd b).toNat
    match credKind g.tag with
    | none => (s, .trap .format 0 0)
    | some (n, _, _) => match copyAlign c e n with
      | some e => trapEa s e c.addr
      | none =>
        if g.image < e * n then trapBounds s h (e * n)
        else match checkRange c c.addr (c.addr + e * n) { l := true, s := true } with
          | some e => trapEa s e c.addr
          | none => enqueue s { mkCopy s t .cred h.toNat with
              chunks := chunksOf [{ va := c.addr, off := 0, len := e * n }], op := op, eb := n }) s

/-- BARX (R196): it arms the barrier at its acceptance, which is its completion (R174). -/
def execBarx (t : CopyTags) (b : Reg) (s : State) : Host.Outcome State Fault Refusal :=
  issueCopy 12 t [b] none false (fun s =>
    let n := (s.rd b).toNat
    let x := s.me
    if 2 ^ 40 ≤ n then (s, .trap .illegal 0 0)
    else if 8 ≤ (tget {} (s.ctx x).copyq t.q.toNat).cmds.length then (s, .stay)
    else
      let s := s.modBar x t.bar.toNat fun r => r.arm n
      let s := s.modQueue x t.q.toNat fun q => { q with done := q.done + 1#16 }
      (s.postSemEv s.focus.site (if t.semV then some t.sem.toNat else none) (if t.evV then some t.ev.toNat else none), .retire)) s

/-- COPY_ACCEPT: a stalled copy's waits have ended (R172). -/
def execCopyAccept (k : Nat) (s : State) : Host.Outcome State Fault Refusal :=
  .next (match (s.core k).stall with
    | .copy c => match acceptCopy s k c with
      | some s => s.modCore k fun c => { c with stall := .none, prog := { c.prog with step := 1 } }
      | none => s
    | _ => s)

/-! Queue control (R198). -/

def maskedQueues (mask : BitVec 4) : List Nat := (List.range 4).filter fun q => bitAt mask q

/-- CWAIT. -/
def execCwait (mask : BitVec 4) (s : State) : Host.Outcome State Fault Refusal :=
  issue { mon := true, waitAll := true } (fun s =>
    let ok := (maskedQueues mask).all fun q => let t := tget {} (s.ctx s.me).copyq q; t.cmds.isEmpty || t.faulted
    (s, if ok then .retire else .stay)) s

/-- CSTAT. -/
def execCstat (d : Reg) (q : BitVec 2) (s : State) : Host.Outcome State Fault Refusal :=
  issue { mon := true, cr := [d], waitAll := true } (fun s =>
    let t := tget {} (s.ctx s.me).copyq q.toNat
    retireWith s d (BitVec.ofNat 64 (t.cmds.length + bit01 t.faulted * 16 + t.done.toNat * 256 + t.refused.toNat * 2 ^ 24))) s

/-- Cancels every command of a queue, which leaves FAULTED (R198). -/
def State.cancelQueue (s : State) (x q : Nat) : State :=
  (s.cancelCopies x q fun _ => true).modQueue x q fun t => { t with faulted := false }

/-- CCANCEL. -/
def execCcancel (mask : BitVec 4) (s : State) : Host.Outcome State Fault Refusal :=
  issue { mon := true, waitAll := true } (fun s =>
    ((maskedQueues mask).foldl (fun s q => s.cancelQueue s.me q) s, .retire)) s

end Sys2Proof.Machine
end

