-- ==== Sys2Proof/Machine/CopyEngine.lean ====
section
/-! DEFINITION. The copy engine: chunks (R173, R179 to R182, R188 to R195), held chunks (R176, R177) and the flip (R112,
R195). -/

namespace Sys2Proof.Machine

open Sys2Proof

/-! Event terms (R331). -/

def termKind (d : W64) : Nat := d.toNat / 2 ^ 32 % 16
def termIdx (d : W64) : Nat := d.toNat / 2 ^ 36 % 16
def termSlot (d : W64) : Nat := d.toNat / 2 ^ 40 % 4
def termOn (d : W64) : Bool := bitAt d 63
/-- A queue or a table that an enabled term starts (R331). -/
def Tile.heldBy (t : Tile) (kind idx slot : Nat) : Bool :=
  t.terms.any fun e => termOn e.2 && termKind e.2 == kind && (kind == 2 || termIdx e.2 == idx) && termSlot e.2 == slot

/-! Reading device memory. -/

inductive ReadEnd where
  | ok (x : Nat)
  | fault (k : FaultKind) (va : Nat)
  | poison (va : Nat)
  | wait

/-- n bytes at va read at a stamp, line by line; fuel bounds the lines (R175). -/
def readVa (s : State) (p reg : Nat) (v : Stamp) (who : Asker) : (fuel va n : Nat) → ReadEnd × State
  | 0, _, _ => (.ok 0, s)
  | f + 1, va, n =>
    if n = 0 then (.ok 0, s)
    else
      let m := min n (64 - va % 64)
      match translate s p va .load reg v who with
      | (.fault k, s) => (.fault k va, s)
      | (.wait, s) => (.wait, s)
      | (.ok pa, s) => match s.readPa p (s.homeOf p va) pa m (devHalf va) reg (some v) with
        | (none, s) => (.poison va, s)
        | (some y, s) => match readVa s p reg v who f (va + m) (n - m) with
          | (.ok z, s) => (.ok (y.1 + z * 256 ^ m), s)
          | r => r

def readAll (s : State) (p reg : Nat) (v : Stamp) (who : Asker) (va n : Nat) : ReadEnd × State := readVa s p reg v who (n / 64 + 2) va n

/-- The runs of a chunk, each with its bytes. -/
def readRuns (s : State) (p reg : Nat) (v : Stamp) (who : Asker) : List Run → Except ReadEnd (List (Run × Nat)) × State
  | [] => (.ok [], s)
  | r :: rs => match readAll s p reg v who r.va r.len with
    | (.ok x, s) => match readRuns s p reg v who rs with
      | (.ok l, s) => (.ok ((r, x) :: l), s)
      | e => e
    | (e, s) => (.error e, s)

/-- The granule writes of n bytes at va. -/
def spanWrites : (fuel va n x : Nat) → List TrailEntry
  | 0, _, _, _ => []
  | f + 1, va, n, x =>
    let m := min n (16 - va % 16)
    if n = 0 then [] else granuleWrites va m x false ++ spanWrites f (va + m) (n - m) (x / 256 ^ m)

/-! A chunk (R179, R180). -/

/-- How a chunk ended: its bytes done, on its way to its slice, its elements at an atomic engine, waiting for a page, waiting, or a fault by reason. -/
inductive ChunkEnd where
  | done (bytes : Nat)
  | flying (h : Held) (bytes : Nat)
  | acting
  | page (va : Nat) (k : FaultKind) (acc : Access)
  | wait
  | fault (reason kind va : Nat)

/-- The head of its queue, as it asks the host. -/
def CopyCmd.asker (x : Nat) (c : CopyCmd) : Asker := .copy x c.q

/-- A translation fault on a chunk (R180). -/
def chunkFault (k : FaultKind) (va : Nat) (acc : Access) : ChunkEnd := if k.waits then .page va k acc else .fault 0 k.code va

def readEndOf : ReadEnd → ChunkEnd
  | .fault k va => chunkFault k va .load
  | .poison va => .fault 4 0 va
  | .wait => .wait
  | .ok _ => .wait

def runBytes (rs : List Run) : Nat := (rs.map (·.len)).sum

/-- Device memory into a handle (R188 to R190). -/
def moveIn (s : State) (x : Nat) (c : CopyCmd) (rs : List Run) : ChunkEnd × State :=
  match readRuns s (s.ctxPart x) (ctxRegion x) c.readStamp (c.asker x) rs with
  | (.ok l, s) => (.done (runBytes rs), l.foldl (fun s e => s.modHandle x c.h fun t => t.store e.1.off e.1.len e.2) s)
  | (.error .wait, t) => (.wait, t.unmoved s (s.ctxPart x))
  | (.error e, s) => (readEndOf e, s)

/-- A handle into device memory: the chunk leaves for its home slice (R176, R177). -/
def moveOut (s : State) (x : Nat) (c : CopyCmd) (rs : List Run) : ChunkEnd × State :=
  let p := s.ctxPart x
  let va := (rs.head?.map (·.va)).getD 0
  let t := s.handle x c.h
  if rs.any fun r => badIn t r.off (r.off + r.len) then (.fault 4 0 va, s)
  else match translateClean s p va .store (ctxRegion x) c.readStamp (c.asker x) with
    | (.fault k, s) => (chunkFault k va .store, s)
    | (.wait, s) => (.wait, s)
    | (.ok _, s) =>
      let ws := trailAddAll [] (rs.flatMap fun r => spanWrites 300 r.va r.len (tread c.src r.off r.len))
      (.flying { core := coreKey x c.compute, slice := s.homeOf p va, order := c.order, writes := ws, size := runBytes rs,
                 region := ctxRegion x, q := c.q } (runBytes rs), s)

/-- A remote read may be served: an exported handle of a virtual tile of the region in the same cluster (R153, R188). -/
def State.remoteOk (s : State) (x vt h n : Nat) : Bool :=
  let y := ctxKey (ctxRegion x) vt
  (s.ctx y).st == 1 && clusterOf (s.ctx y).site == clusterOf (s.ctx x).site && (s.handle y h).st == 2 && decide (n ≤ (s.handle y h).image)

/-- A remote source into a handle (R188). Its faults have no device address, and FAULTVA is 0 (R180; log entry 60). -/
def moveRemote (s : State) (x : Nat) (c : CopyCmd) (rs : List Run) : ChunkEnd × State :=
  let y := ctxKey (ctxRegion x) c.srcVt
  let src := s.handle y c.srcH
  let n := (c.chunks.map runBytes).sum + ((rs.head?.map (·.off)).getD 0)
  if !s.remoteOk x c.srcVt c.srcH n then (.fault 3 0 0, s)
  else if rs.any fun r => badIn src r.off (r.off + r.len) then (.fault 4 0 0, s)
  else (.done (runBytes rs), rs.foldl (fun s r => s.modHandle x c.h fun t => t.store r.off r.len (tread src.bytes r.off r.len)) s)

/-! Multicast (R192). -/

/-- A destination of context x's multicast of n bytes can take it. -/
def State.destOk (s : State) (x n : Nat) (d : Dest) : Bool :=
  let y := ctxKey (ctxRegion x) d.vt
  (s.ctx y).st == 1 && clusterOf (s.ctx y).site == clusterOf (s.ctx x).site && (s.handle y d.h).st == 1 &&
    decide (n ≤ (s.handle y d.h).image)

/-- Each destination is refused, or gets its entry; none while a scoreboard has no room. -/
def openDests (s : State) (x n : Nat) : List Dest → Option (List Dest × State)
  | [] => some ([], s)
  | d :: ds =>
    let s := s.cacheEntry x (ctxKey (ctxRegion x) d.vt)
    if d.refused || d.entry.isSome then (openDests s x n ds).map fun r => (d :: r.1, r.2)
    else if !s.destOk x n d then (openDests s x n ds).map fun r => ({ d with refused := true } :: r.1, r.2)
    else
      let y := ctxKey (ctxRegion x) d.vt
      match s.addEntry { ctx := y, h := d.h, lo := 0, hi := n, writes := true, kind := 0 } with
      | none => none
      | some (e, s) => (openDests s x n ds).map fun r => ({ d with entry := some e } :: r.1, r.2)

/-- Context y leaves its place: it is a destination of no started multicast any more, and the entries made for it retire (R192,
R185). -/
def State.refuseDests (s : State) (y : Nat) : State :=
  let mine (c : CopyCmd) (d : Dest) : Bool := c.started && !d.refused && d.vt == ctxVt y
  let cmds (x : Ctx) : List CopyCmd := x.copyq.flatMap fun q => q.2.cmds
  let xs := s.ctxs.filter fun e => ctxRegion e.1 == ctxRegion y && (cmds e.2).any fun c => c.dests.any (mine c)
  xs.foldl (fun s e =>
    let s := s.freeEntries ((cmds e.2).flatMap fun c => (c.dests.filter (mine c)).filterMap (·.entry))
    s.modCtx e.1 fun x => { x with copyq := x.copyq.map fun q => (q.1, { q.2 with cmds := q.2.cmds.map fun c =>
      { c with dests := c.dests.map fun d => if mine c d then { d with refused := true, entry := none } else d } }) }) s

/-- A piece of the image to every destination still accepted. -/
def moveMulti (s : State) (x : Nat) (c : CopyCmd) (rs : List Run) : ChunkEnd × State :=
  let src := s.handle x c.h
  if rs.any fun r => badIn src r.off (r.off + r.len) then (.fault 4 0 0, s)
  else
    let here (d : Dest) : Bool :=
      let y := s.ctx (ctxKey (ctxRegion x) d.vt)
      y.st == 1 && clusterOf y.site == clusterOf (s.ctx x).site
    let ds := c.dests.map fun d => if d.refused || here d then d else { d with refused := true }
    let s := ds.foldl (fun s d =>
      if d.refused then s
      else
        let y := ctxKey (ctxRegion x) d.vt
        let s := rs.foldl (fun s r => s.modHandle y d.h fun t => t.store r.off r.len (tread c.src r.off r.len)) s
        match c.bar with
        | some b => s.modBar y b fun t => t.credit (runBytes rs)
        | none => s) s
    (.done 0, s.modQueue x c.q fun q => { q with cmds := q.cmds.map fun e => if e.order = c.order then { e with dests := ds } else e })

/-! Shadows (R111, R194). -/

/-- Takes a shadow frame for a page and stages it; none while the pool is empty. -/
def stagePage (s : State) (p sl va : Nat) (reg : Nat) (f : Leaf) : Option State :=
  match (s.part p).shadow with
  | [] => none
  | fr :: rest =>
    let s := (s.modPart p fun q => { q with shadow := rest }).zeroFrame (s.part p) fr
    let drop (t : Tbl (Option Chain)) := t.filter fun e => decide (e.1 < fr / 64 ∨ fr / 64 + 1024 ≤ e.1)
    let s := (s.part p).sliceIds.foldl (fun s i => s.modSlice i fun l => { l with chains := drop l.chains }) s
    let s := s.markLeaf p sl f.pteAt f.pte (pteSet 5) reg
    some (s.modSlice sl fun l =>
      { l with staging := tput none (va / 65536) (some { old := pteFrame f.pte, new := fr, pteAt := f.pteAt }) l.staging })

/-- The leaf that a slice's buffer holds for an address. -/
def State.heldLeaf (s : State) (sl va : Nat) : Option Leaf :=
  ((s.slice sl).stb.find? fun e => e.dev && e.covers va).map fun e => { pte := e.pte, pteAt := e.pteAt, size := e.size }

/-- The staging record a chunk writes through, made where the page has none, from the translation of the chunk; a page whose flip has begun
is waited for (R69, R70, R194). -/
def stageFor (s : State) (x : Nat) (who : Asker) (va : Nat) : Except ChunkEnd Staging × State :=
  let p := s.ctxPart x
  let sl := s.homeOf p va
  let page := va / 65536
  match translateClean s p va .store (ctxRegion x) (s.part p).fp who with
  | (.fault k, s) => (.error (chunkFault k va .store), s)
  | (.wait, s) => (.error .wait, s)
  | (.ok _, s) => match tget none (s.slice sl).staging page with
    | some g => if g.taken.isSome then (.error .wait, s) else (.ok g, s)
    | none => match s.heldLeaf sl va with
      | none => (.error .wait, s)
      | some f =>
        if f.size != 65536 then (.error (.fault 2 0 va), s)
        else match stagePage s p sl va (ctxRegion x) f with
          | none => (.error .wait, s)
          | some s => match tget none (s.slice sl).staging page with
            | some g => (.ok g, s)
            | none => (.error .wait, s)

/-- A chunk into staged frames; staged bytes carry no tags (R194). -/
def moveShadow (s : State) (x : Nat) (c : CopyCmd) (rs : List Run) : ChunkEnd × State :=
  let p := s.ctxPart x
  let va := (rs.head?.map (·.va)).getD 0
  let t := s.handle x c.h
  if rs.any fun r => badIn t r.off (r.off + r.len) then (.fault 4 0 va, s)
  else match stageFor s x (c.asker x) va with
    | (.error e, s) => (e, s)
    | (.ok g, s) =>
      let sl := s.homeOf p va
      let s := rs.foldl (fun s r =>
        (s.rimWrite (s.part p) (g.new + r.va % 65536) r.len (tread c.src r.off r.len)).rimTouch p (some (ctxRegion x)) true
          (g.new + r.va % 65536) r.len) s
      let cover := g.cover ++ rs.map fun r => (r.va % 65536, r.va % 65536 + r.len)
      (.done (runBytes rs), s.modSlice sl fun l => { l with staging := tput none (va / 65536) (some { g with cover := cover }) l.staging })

/-! Reductions (R193). -/

/-- The combination of an element with memory. -/
def credNew (op : RedOp) (n : Nat) (float signed : Bool) (x old : Nat) : Option Nat :=
  let f := if n = 4 then fp32 else fp64
  if float then match op with
    | .add => some (atomfAdd n old x)
    | .min => some (roundTo f .rne false 0 ((decodeFloat f old).minOf (decodeFloat f x))).1
    | .max => some (roundTo f .rne false 0 ((decodeFloat f old).maxOf (decodeFloat f x))).1
  else match op with
    | .add => atomNew 0 n old x 0
    | .min => atomNew (if signed then 4 else 5) n old x 0
    | .max => atomNew (if signed then 6 else 7) n old x 0

/-- The first poisoned line of [pa, pa + n). -/
def poisonIn (s : State) (p : Partition) (pa n : Nat) : Bool :=
  (List.range ((pa + n + 63) / 64 - pa / 64)).any fun i => s.poisoned p ((pa / 64 + i) * 64)

/-- A chunk of a reduction may go to its engine: its page is there and none of its lines is poisoned. -/
def moveRed (s : State) (x : Nat) (c : CopyCmd) (rs : List Run) : ChunkEnd × State :=
  let p := s.ctxPart x
  let t := s.handle x c.h
  match rs.head?, credKind t.tag with
  | some r, some _ =>
    if badIn t r.off (r.off + r.len) then (.fault 4 0 r.va, s)
    else match translate s p r.va .atomic (ctxRegion x) (s.part p).fp (c.asker x) with
      | (.fault e, s) => (chunkFault e r.va .atomic, s)
      | (.wait, s) => (.wait, s)
      | (.ok pa, s) => if devHalf r.va && poisonIn s (s.part p) pa r.len then (.fault 4 0 r.va, s) else (.acting, s)
  | _, _ => (.done 0, s)

/-! The head command of a queue (R173, R174). -/

def State.headCopy (s : State) (x q : Nat) : Option CopyCmd := (tget {} (s.ctx x).copyq q).cmds.head?
def State.setHead (s : State) (x q : Nat) (f : CopyCmd → CopyCmd) : State :=
  s.modQueue x q fun t => { t with cmds := match t.cmds with | c :: cs => f c :: cs | [] => [] }

def refusedMask : Nat → List Dest → Nat
  | _, [] => 0
  | j, d :: ds => bit01 d.refused * 2 ^ j + refusedMask (j + 1) ds

/-- The head command completes (R174). -/
def State.completeCopy (s : State) (x q : Nat) : State :=
  match s.headCopy x q with
  | none => s
  | some c =>
    let s := s.modQueue x q fun (t : CopyQ) =>
      { t with cmds := t.cmds.drop 1, done := t.done + 1#16
               refused := if c.kind = CopyKind.cpym then BitVec.ofNat 16 (refusedMask 0 c.dests) else t.refused }
    (s.freeEntries (c.entry.toList ++ c.dests.filterMap (·.entry))).postSemEv (s.ctx x).site c.sem c.ev

/-- The head's chunk is done: its bytes are credited, and after its last chunk the command completes (R182). -/
def State.chunkDone (s : State) (x q bytes : Nat) : State :=
  match s.headCopy x q with
  | none => s
  | some c =>
    let s := match c.bar with
      | some b => if c.kind = CopyKind.cpym then s else s.modBar x b fun t => t.credit bytes
      | none => s
    let s := s.setHead x q fun c => { c with chunks := c.chunks.drop 1, inFlight := false, el := 0 }
    if c.cancelled then s.modQueue x q fun t => { t with cmds := t.cmds.drop 1 }
    else if (c.chunks.drop 1).isEmpty then s.completeCopy x q
    else s

/-- COPY_FAULT: the queue is FAULTED, its entry retires, and the issuing context's trap is pending (R157, R180). -/
def State.copyFault (s : State) (x q reason kind va : Nat) : State :=
  match s.headCopy x q with
  | none => s
  | some c =>
    let s := ((s.freeEntries c.entry.toList).forget (· == .copy x q)).setHead x q fun c => { c with entry := none }
    let s := s.modQueue x q fun t => { t with faulted := true }
    s.modCore (coreKey x c.compute) fun k =>
      { k with pend := k.pend ++ [{ cause := Cause.copyFault.code, va := va,
                                    info := q + 4 * bit01 c.compute + 8 * reason + 128 * kind + 2048 * c.kind.minor }] }

/-- The next element of a reduction's chunk goes to its home engine (R108, R193). -/
def State.askElement (s : State) (x q : Nat) (c : CopyCmd) (n : Nat) : State :=
  let k := coreKey x c.compute
  let va := (((c.chunks.headD []).head?.map (·.va)).getD 0) + c.el * n
  let cl := s.engineOf (s.ctxPart x) va
  let e : EngReq := { who := k, id := 0, line := va / 64, arrival := s.tick, src := clusterOf (s.ctx x).site, org := s.originOf k
                      copy := some (x, q) }
  (s.modCluster cl fun c => { c with engQ := joinQueue c.engQ e }).post (.atomicEngineRequest cl)

/-- What a chunk's end does to its queue. -/
def State.endChunk (s : State) (x q : Nat) (c : CopyCmd) : ChunkEnd → State
  | .done n => s.chunkDone x q n
  | .flying h n =>
    let s1 := { s with flying := tput none s.seq (some { ctx := x, q := q, h := h, bytes := n }) s.flying }
    ((s1.post (.chunkHold s.seq)).bump).setHead x q fun c => { c with inFlight := true }
  | .acting => (s.setHead x q fun c => { c with inFlight := true }).askElement x q c (((credKind (s.handle x c.h).tag).map (·.1)).getD 4)
  | .page va k acc =>
    let s := s.setHead x q fun c => { c with waitPage := some va }
    if k = .notvalid then s.pageRecord (coreKey x c.compute) va acc else s
  | .wait => s
  | .fault r k va => s.copyFault x q r k va

/-- An element of a reduction at its engine: a plain atomic, credited as it has acted; the next follows it, and after the last the chunk is
done (R108, R182, R193; log entry 75). One whose translation waits arrives anew. -/
def State.serveElement (s : State) (cl : Nat) (e : EngReq) (x q : Nat) : State :=
  match s.headCopy x q with
  | none => s
  | some c =>
    let p := s.ctxPart x
    let stop (s : State) : State := s.setHead x q fun c => { c with inFlight := false }
    match (c.chunks.headD []).head?, credKind (s.handle x c.h).tag with
    | some r, some k =>
      let va := r.va + c.el * k.1
      let el := tread c.src (r.off + c.el * k.1) k.1
      match translate s p va .atomic (ctxRegion x) (s.part p).fp (c.asker x) with
      | (.fault f, s) => (stop s).endChunk x q c (chunkFault f va .atomic)
      | (.wait, s) => s.modCluster cl fun c => { c with engQ := c.engQ ++ [{ e with arrival := s.tick, tied := false }] }
      | (.ok _, s) => match engineAct s cl p (ctxRegion x) va k.1 (credNew c.op k.1 k.2.1 k.2.2 el) 0 (c.asker x) with
        | (some (.value _ _ _), s) =>
          let s := match c.bar with
            | some b => s.modBar x b fun t => t.credit k.1
            | none => s
          if (c.el + 1) * k.1 < r.len then
            (s.setHead x q fun c => { c with el := c.el + 1 }).askElement x q { c with el := c.el + 1 } k.1
          else s.chunkDone x q 0
        | (some _, s) => (stop s).copyFault x q 4 0 va
        | (none, s) => s.modCluster cl fun c => { c with engQ := c.engQ ++ [{ e with arrival := s.tick, tied := false }] }
    | _, _ => s

/-- A CPUB may start: every CSHD of the context over its range has completed, but for those behind it in its own queue, which
cannot before it (R195; log entry 61). -/
def State.flipReady (s : State) (x : Nat) (c : CopyCmd) : Bool :=
  (s.ctx x).queues.all fun q => q.cmds.all fun d =>
    !(d.kind == .cshd && (d.q != c.q || decide (d.order < c.order)) && decide (d.lo < c.hi) && decide (c.lo < d.hi))

/-- The command at the head of a queue can move: no chunk starts while a swap has stopped the context, and nothing leaves a viral cluster
(R173, R185, R325, R331, R394). -/
def State.copyRuns (s : State) (x slot q : Nat) : Bool :=
  let t := tget {} (s.ctx x).copyq q
  match t.cmds.head? with
  | none => false
  | some c =>
    !t.faulted && !c.inFlight && c.waitPage.isNone && !(s.cluster (clusterOf (s.ctx x).site)).viral && s.regionRuns (ctxRegion x) && (s.ctx x).st == 1 &&
      !(s.core (coreKey x c.compute)).arriving &&
      (c.started || decide (0 < t.credits) || !(s.tile (s.ctx x).site).heldBy 1 q slot) &&
      (c.kind != .cpub || (if c.started then c.pub.isSome && c.chunks.isEmpty else s.flipReady x c))

/-- The next queue the engine serves: round-robin over (slot, queue), from its pointer (R173). -/
def State.pickCopy (s : State) (site : Nat) : Option (Nat × Nat) :=
  (List.range 16).findSome? fun i =>
    let j := ((s.tile site).copyTurn + i) % 16
    match tget none (s.tile site).slots (j / 4) with
    | some x => if s.copyRuns x (j / 4) (j % 4) then some (x, j) else none
    | none => none

/-- The start of a command: a gather reads its list and checks its elements (R190), a multicast makes its entries (R192). -/
def startCopy (s : State) (x q : Nat) (c : CopyCmd) : Except ChunkEnd CopyCmd × State :=
  match c.kind with
  | .cpyg => match readAll s (s.ctxPart x) (ctxRegion x) c.readStamp (c.asker x) c.list (8 * c.count) with
    | (.ok l, s) =>
      let addr (i : Nat) : Int := c.lo + decodeInt 64 true (l / 2 ^ (64 * i) % 2 ^ 64)
      let bad := (List.range c.count).filter fun i => decide (addr i < c.capLo ∨ (c.capHi : Int) < addr i + c.eb)
      match (bad.map addr).min? with
      | some m => (.error (.fault 1 0 (va56 m)), s)
      | none =>
        (.ok { c with started := true, chunks := gatherChunks (cutRuns ((List.range c.count).map fun i =>
          { va := (addr i).toNat, off := i * c.eb, len := c.eb })) [] }, s)
    | (.wait, t) => (.error .wait, t.unmoved s (s.ctxPart x))
    | (e, s) => (.error (readEndOf e), s)
  | .cpym => match openDests s x ((c.chunks.map runBytes).sum) c.dests with
    | some (ds, s) => (.ok { c with started := true, dests := ds }, s)
    | none => (.error .wait, s)
  | .cpub => (.ok { c with started := true }, s.post (.cpubFlipStart x q))
  | _ => (.ok { c with started := true }, s)

/-- One chunk of the head command. -/
def moveChunk (s : State) (x : Nat) (c : CopyCmd) : ChunkEnd × State :=
  let rs := c.chunks.headD []
  match c.kind with
  | .cpy out => if out then moveOut s x c rs else moveIn s x c rs
  | .cpys out => if out then moveOut s x c rs else moveIn s x c rs
  | .cpyv out => if out then moveOut s x c rs else moveIn s x c rs
  | .cpyg => moveIn s x c rs
  | .cpym => moveMulti s x c rs
  | .cshd => moveShadow s x c rs
  | .cpub => (.wait, s)
  | .cred => moveRed s x c rs
  | .remote => moveRemote s x c rs

/-- The engine's turn on the queue it picked. -/
def State.copyTurn (s : State) (site x j : Nat) : State :=
  let q := j % 4
  let s := s.modTile site fun t => { t with copyTurn := (j + 1) % 16 }
  match s.headCopy x q with
  | none => s
  | some c =>
    if c.started then
      if c.chunks.isEmpty then (if c.cancelled then s.modQueue x q fun t => { t with cmds := t.cmds.drop 1 } else s.completeCopy x q)
      else
        let r := moveChunk s x c
        r.2.endChunk x q c r.1
    else match startCopy s x q c with
      | (.error e, s) => s.endChunk x q c e
      | (.ok c, s) =>
        let s := (s.modQueue x q fun t => { t with credits := t.credits - 1 }).setHead x q fun _ => c
        if c.kind = .cpub then s
        else if c.chunks.isEmpty then s.completeCopy x q
        else
          let r := moveChunk s x c
          r.2.endChunk x q c r.1

/-- Asks the arbiter for the copy engine's unit, once (R419). -/
def State.requestCopy (s : State) (site prio : Nat) : State :=
  let cl := clusterOf site
  if (s.cluster cl).waiting.any fun q => q.site == site && q.unit == 2 then s
  else (s.modCluster cl fun c => { c with waiting := c.waiting ++ [{ site := site, unit := 2, units := 1, prio := prio,
                                                                     arrival := s.tick }] }).post (.reservationGrant cl)

/-- COPY_CHUNK: the engine of a tile moves one chunk, holding one unit of current for it, which it gives back where it has nothing to move
(R173, R419). -/
def execCopyChunk (site : Nat) (s : State) : Host.Outcome State Fault Refusal :=
  .next (if s.oddCycle site then s else match s.pickCopy site with
    | none => if (s.tile site).copyGrant then (s.modTile site fun t => { t with copyGrant := false }).releaseUnits (clusterOf site) 1 else s
    | some (x, j) =>
      let cl := clusterOf site
      let c := s.cluster cl
      if (s.tile site).copyGrant then
        ((s.modTile site fun t => { t with copyGrant := false }).copyTurn site x j).releaseUnits cl 1
      else if c.grants 1 then s.copyTurn site x j
      else s.requestCopy site (s.prio (ctxRegion x)))

/-! The atomic engines' requests (R108). -/

/-- What an engine does with the request it took off its queue; one whose translation waits for the host arrives anew (R70, R108). -/
def State.serveRequest (s : State) (cl : Nat) (e : EngReq) : State :=
  match e.cxl, e.copy with
  | some x, _ => s.cxlWrite cl e.id e.line x
  | none, some (x, q) => s.serveElement cl e x q
  | none, none => match tget none (s.core e.who).reqs e.id with
    | some q => match q.kind, q.done with
      | .atomic _ minor n b cmp carried, none =>
        match engineAct s cl (s.corePart e.who) (ctxRegion (coreCtx e.who)) q.va n
            (fun old => atomNew minor n old b cmp) carried (.request e.who e.id) with
        | (some r, s) => ((s.forget (· == .request e.who e.id)).modCore e.who fun c => { c with reqs := tput none e.id (some { q with done := some r }) c.reqs }).post
            (.atomicReply e.who e.id)
        | (none, s) => s.modCluster cl fun c => { c with engQ := c.engQ ++ [{ e with arrival := s.tick, tied := false }] }
      | _, _ => s
    | none => s

/-- ATOMIC_ENGINE_REQUEST: an engine acts on one request, and on one in a tick; a tied one moves the pointer (R108). -/
def execAtomicEngineRequest (cl : Nat) (s : State) : Host.Outcome State Fault Refusal :=
  .next (match pickRequest (s.cluster cl).engPtr (s.cluster cl).engQ with
    | none => s
    | some e =>
      if (s.cluster cl).engTick == some s.tick then s.later (.atomicEngineRequest cl)
      else
        let t := (s.modCluster cl fun c =>
          { c with engTick := some s.tick, engQ := c.engQ.erase e
                   engPtr := if e.tied && decide (e.src < 121) then (e.src + 1) % 121 else c.engPtr }).serveRequest cl e
        if (s.cluster cl).engQ.length ≤ 1 then t else t.post (.atomicEngineRequest cl))

/-! Held chunks (R177). -/

/-- Bytes of an overflow frame that chunks take. -/
def State.frameUsed (s : State) (sl fr : Nat) : Nat :=
  ((s.held.filter fun h => h.slice == sl && h.frame.any fun f => f.1 == fr).map fun h => (h.frame.getD (0, 0)).2 + h.size).foldl max 0

/-- An overflow frame with room for n bytes: one the slice has, or the next of the swap pool (R177). -/
def State.overflowRoom (s : State) (p sl n : Nat) : Option ((Nat × Nat) × State) :=
  match (s.slice sl).frames.find? fun fr => decide (s.frameUsed sl fr + n ≤ 65536) with
  | some fr => some ((fr, s.frameUsed sl fr), s)
  | none => match (s.part p).swap with
    | fr :: rest => some ((fr, 0), (s.modPart p fun q => { q with swap := rest }).modSlice sl fun l => { l with frames := l.frames ++ [fr] })
    | [] => none

/-- CHUNK_HOLD: a chunk reaches its home slice, which keeps it in its store, in an overflow frame, or lets it wait. -/
def execChunkHold (id : Nat) (s : State) : Host.Outcome State Fault Refusal :=
  .next (match tget none s.flying id with
    | none => s
    | some f =>
      let h := f.h
      let p := s.ctxPart f.ctx
      let gone (s : State) : State := { s with flying := tput none id none s.flying }
      if (s.headCopy f.ctx f.q).any (·.cancelled) then (gone s).chunkDone f.ctx f.q f.bytes
      else if (s.slice h.slice).held + h.size ≤ 524288 then
        let s := (gone s).modSlice h.slice fun l => { l with held := l.held + h.size }
        { s with held := s.held ++ [h] }.chunkDone f.ctx f.q f.bytes
      else match s.overflowRoom p h.slice h.size with
        | none => s.later (.chunkHold id)
        | some (at_, s) =>
          let s := (gone s).rimTouch p (some h.region) true (at_.1 + at_.2) h.size
          { s with held := s.held ++ [{ h with frame := some at_ }] }.chunkDone f.ctx f.q f.bytes)

/-! The flip (R112, R195). -/

/-- Staged pages of a range with their slices, but for those whose flip has begun. -/
def State.stagedPages (s : State) (p lo hi : Nat) : List (Nat × Nat) :=
  (s.part p).sliceIds.flatMap fun sl => (s.slice sl).staging.filterMap fun e =>
    if decide (lo / 65536 ≤ e.1) && decide (e.1 * 65536 < hi) && e.2.any (·.taken.isNone) then some (sl, e.1) else none

/-- CPUB_FLIP_START: the flip takes its stamp and its notices leave, or a range with nothing staged is done (R195). -/
def execCpubFlipStart (ctx q : Nat) (s : State) : Host.Outcome State Fault Refusal :=
  .next (match s.headCopy ctx q with
    | some c =>
      if c.kind != .cpub || !c.started || c.pub.isSome then s
      else
        let p := s.ctxPart ctx
        let k := coreKey ctx c.compute
        let pages := s.stagedPages p c.lo c.hi
        if pages.isEmpty then s.completeCopy ctx q
        else if !s.mayStamp k then s.later (.cpubFlipStart ctx q)
        else
          let (st, s) := s.takeStamp k
          let id := s.seq
          let shares : Tbl (Option Share) := pages.foldl (fun t e =>
            let old : Share := (tget none t e.1).getD { st := .sent, writes := [], pages := [] }
            tput none e.1 (some { old with pages := old.pages ++ [e.2] }) t) []
          let s := pages.foldl (fun s e => s.modSlice e.1 fun l => { l with staging := l.staging.map fun g =>
            if g.1 == e.2 then (g.1, g.2.map fun t => { t with taken := some id, region := ctxRegion ctx }) else g }) s
          let s := s.bump.setPub id (some { part := p, region := ctxRegion ctx, core := k, stamp := st, shares := shares, ckpt := none,
                                            after := .flip ctx q, lastPage := (c.hi - 1) / 65536 })
          (s.setHead ctx q fun c => { c with pub := some id }).sendNotices id true
    | none => s)

end Sys2Proof.Machine
end

