-- ==== Sys2Proof/Machine/Licence.lean ====
section
/-! DEFINITION. The matrix licence of a pair (R292 to R295), its instructions (R305, R308), and the arbiter's grants of
current (R291, R419). -/

namespace Sys2Proof.Machine

open Sys2Proof

/-- The requester's slot is switched in. -/
def State.requesterIn (s : State) (pair r : Nat) : Bool :=
  (s.tile (requesterSite pair r)).run == r % 4 && (s.requesterCtx pair r).isSome

/-- The step of LICREQ while it waits (log entry 13). -/
def licWaiting : Nat := 4

/-- A context wants the licence: a matrix command waiting to be accepted, an accepted one with steps left, or a LICREQ that
waits (R293). -/
def State.wantsLicence (s : State) (x : Nat) : Bool :=
  let c := s.core (coreKey x true)
  (match c.stall with | .matrix _ => true | _ => false) || c.prog.step == licWaiting || (s.ctx x).cmds.any fun m => !m.consumed

/-- Starts the licence on its way to a requester; LICENCE_TRANSFER is its arrival (R292). -/
def State.licMove (s : State) (pair r : Nat) : State :=
  let l := (s.pair pair).lic
  let s := match l.holder.bind (s.requesterCtx pair) with
    | some x => s.stopMats x
    | none => s
  (s.modLic pair fun l => { l with moving := some r, holder := none }).post (.licenceTransfer pair)

/-- The licence is parked with its owner (R293). -/
def State.licPark (s : State) (pair : Nat) : State :=
  let s := match ((s.pair pair).lic.holder).bind (s.requesterCtx pair) with
    | some x => s.stopMats x
    | none => s
  s.modLic pair fun l => { l with st := 2, holder := none }

/-- The priority of a requester's context (R330). -/
def State.requesterPrio (s : State) (pair r : Nat) : Nat := ((s.requesterCtx pair r).map fun x => s.prio (ctxRegion x)).getD 0

/-- One evaluation of the table of R293: requests are noted in order of age, and the first row that matches takes effect. A
command that waits only for its retirement is let retire first. In a pair with one twin the licence follows the requests of that
tile's slots and is never parked or lent (R21, R292). -/
def State.licStep (s : State) (pair : Nat) : State :=
  if !s.good pair && !s.good (pair + 7744) then s
  else
    let want := (List.range 8).filter fun r =>
      s.good (requesterSite pair r) && s.requesterIn pair r && (s.requesterCtx pair r).any s.wantsLicence
    let s := s.modLic pair fun l =>
      { l with waiting := l.waiting.filter (want.contains ·) ++ want.filter fun r => !l.waiting.contains r }
    let l := (s.pair pair).lic
    let o := l.owner
    let busy := (l.holder.bind (s.requesterCtx pair)).any fun x => (s.ctx x).cmds.any (·.consumed)
    if l.moving.isSome || busy then s
    else if s.sole pair then match l.waiting.head? with
      | some r => if l.holder == some r then s else s.licMove pair r
      | none => s
    else match l.st with
    | 0 => match l.waiting.head? with
      | some r => s.licMove pair r
      | none => s
    | 1 =>
      if !s.requesterIn pair o then s.licPark pair
      else if !l.pin && !l.waiting.contains o then match l.waiting.head? with
        | some r => s.licMove pair r
        | none => s
      else s
    | 2 =>
      if l.waiting.contains o then s.licMove pair o
      else match l.waiting.head? with
        | some r => s.licMove pair r
        | none => s
    | _ =>
      let h := l.holder.getD o
      if l.waiting.contains o then
        if decide (s.requesterPrio pair h ≤ s.requesterPrio pair o) || !l.waiting.contains h then s.licMove pair o else s
      else if !s.requesterIn pair h || !l.waiting.contains h then s.licPark pair
      else s

/-- A parked licence goes back to its owner when that slot is switched in (R293). -/
def State.licSwitchIn (s : State) (site slot : Nat) : State :=
  let pair := pairOf site
  let l := (s.pair pair).lic
  if l.st == 2 && l.moving.isNone && l.owner == requester site slot then s.licMove pair l.owner else s.licStep pair

/-- The end of a borrower's slice returns the licence to an owner that requests it (R293). -/
def State.licSliceEnd (s : State) (site slot : Nat) : State :=
  let s := s.licStep (pairOf site)
  let l := (s.pair (pairOf site)).lic
  if l.st == 3 && l.moving.isNone && l.holder == some (requester site slot) && l.waiting.contains l.owner then
    s.licMove (pairOf site) l.owner
  else s

/-- The licence arrives: LENT to another slot than the owner of a parked one, else HELD. PIN comes back with a context that
a swap sent away pinned (R293, R295). -/
def State.licArrive (s : State) (pair : Nat) : State :=
  let l := (s.pair pair).lic
  match l.moving with
  | none => s
  | some r => match s.requesterCtx pair r with
    | none => s.modLic pair fun l => { l with moving := none, st := if l.st == 2 || l.st == 3 then 2 else 0 }
    | some x =>
      let sole := s.sole pair
      let pin := (l.pin && (!sole || r == l.owner)) || (s.ctx x).lic.pinned
      let s := s.modLic pair fun l =>
        if l.st == 2 && r != l.owner && !sole then { l with moving := none, st := 3, holder := some r, pin := pin }
        else { l with moving := none, st := 1, owner := r, holder := some r, pin := pin }
      (s.modCtx x fun c => { c with lic := {} }).post (.matrixStep (requesterSite pair r))

/-- LICENCE_TRANSFER (R292). -/
def execLicenceTransfer (pair : Nat) (s : State) : Host.Outcome State Fault Refusal := .next (s.licArrive pair)

/-- Release as LICREL does, for a slot (R293, R294); a PARKED licence's owner leaves it FREE (log entry 87). -/
def State.licRelease (s : State) (site slot : Nat) : State :=
  let pair := pairOf site
  let r := requester site slot
  if s.sole pair then s
  else
    let s := if (s.pair pair).lic.moving == some r then s.licArrive pair else s
    let l := (s.pair pair).lic
    if l.st == 0 then s
    else if l.owner == r then
      if l.st == 3 then s.modLic pair fun l => { l with st := 1, owner := l.holder.getD l.owner, pin := false }
      else (s.modLic pair fun l => { l with st := 0, holder := none, pin := false, waiting := l.waiting.erase r }).licStep pair
    else if l.holder == some r then (s.modLic pair fun l => { l with pin := false }).licPark pair
    else s

/-- A gang swap records what the context had and releases (R295). -/
def State.licSwapOut (s : State) (x : Nat) : State :=
  let c := s.ctx x
  let pair := pairOf c.site
  let r := requester c.site c.slot
  let s := if (s.pair pair).lic.moving == some r then s.licArrive pair else s
  let l := (s.pair pair).lic
  let own := l.st != 0 && l.owner == r
  let hold := l.holder == some r
  (s.modCtx x fun c => { c with lic := { owner := own, holder := hold, pinned := l.pin && (own || hold) } }).licRelease c.site c.slot

/-! Instructions (R305, R308). -/

/-- LICREQ (R308). -/
def execLicreq (s : State) : Host.Outcome State Fault Refusal :=
  issue { mon := true, computeOnly := true } (fun s =>
    let site := s.focus.site
    let pair := pairOf site
    let r := requester site s.mySlot
    if s.sole pair then (s, .retire)
    else if (s.pair pair).lic.holder == some r then (s.modLic pair fun l => { l with pin := true }, .retire)
    else ((s.modMy fun c => { c with prog := { c.prog with step := licWaiting, waits := true } }).licStep pair, .stay)) s

/-- LICREL (R308). -/
def execLicrel (s : State) : Host.Outcome State Fault Refusal :=
  issue { mon := true, computeOnly := true } (fun s =>
    if s.sole (pairOf s.focus.site) then (s, .retire)
    else if !(s.ctx s.me).cmds.isEmpty then (s, .stay)
    else (s.licRelease s.focus.site s.mySlot, .retire)) s

/-- The layout of LICQ (R295). -/
def State.licWord (s : State) (site slot : Nat) : Nat :=
  let pair := pairOf site
  let l := (s.pair pair).lic
  let r := requester site slot
  let want := (List.range 8).filter fun q => s.requesterIn pair q && (s.requesterCtx pair q).any s.wantsLicence
  bit01 (l.holder == some r) + 2 * bit01 (l.st != 0 && l.owner == r) + 4 * l.st + 16 * (l.holder.getD 0 / 4) + 32 * (l.holder.getD 0 % 4) +
    128 * bit01 (!s.good (twin site)) + 256 * bit01 l.pin + 65536 * ((want.filter fun q => l.holder != some q).map (2 ^ ·)).sum

/-- LICQ (R295, R308). -/
def execLicq (d : Reg) (s : State) : Host.Outcome State Fault Refusal :=
  issue { mon := true, cr := [d] } (fun s => retireWith s d (BitVec.ofNat 64 (s.licWord s.focus.site s.mySlot))) s

/-! Reservations (R419). -/

/-- The order of requests: region PRIO, arrival, ClusterBit, then the engine. -/
def ResReq.rank (q : ResReq) : Nat :=
  ((2 ^ 16 - q.prio) * 2 ^ 64 + q.arrival) * 2 ^ 10 + clusterBit q.site * 4 + q.unit

/-- What a grant gives its engine. -/
def State.grantTo (s : State) (cl : Nat) (q : ResReq) : State :=
  let held (s : State) : State := s.modCluster cl fun c => { c with inuse := c.inuse + q.units }
  match q.unit with
  | 0 => match s.matCtx q.site with
    | some x =>
      if (s.ctx x).cmds.head?.any fun c => !c.consumed && !c.granted then
        (held (s.modCtx x fun t => { t with cmds := match t.cmds with
          | c :: cs => { c with granted := true } :: cs
          | [] => [] })).post (.matrixStep q.site)
      else s
    | none => s
  | 1 =>
    (held s).modTile q.site fun t =>
      { t with vecGrant := true
               rampEnd := if t.vecAsleep then some ((s.cluster cl).edges + if (s.cluster cl).vec then 16 else 0) else t.rampEnd }
  | _ => (held (s.modTile q.site fun t => { t with copyGrant := true })).post (.copyChunk q.site)

/-- Grants in order until a request does not fit. -/
def State.grantAll (s : State) (cl : Nat) : Nat → State
  | 0 => s
  | n + 1 =>
    let c := s.cluster cl
    match (sortOn ResReq.rank c.waiting).head? with
    | none => s
    | some q =>
      if c.inuse + q.units ≤ c.budget then
        ((s.modCluster cl fun c => { c with waiting := c.waiting.erase q }).grantTo cl q).grantAll cl n
      else s

/-- RESERVATION_GRANT (R419). -/
def execReservationGrant (cl : Nat) (s : State) : Host.Outcome State Fault Refusal :=
  .next (s.grantAll cl (s.cluster cl).waiting.length)

end Sys2Proof.Machine
end

