-- ==== Sys2Proof/Machine/MatrixOps.lean ====
section
/-! DEFINITION. Accumulators and their owners (R207, R296 to R298), operand tags and shapes (R302, R304), the elements a
matrix command reads and writes (R146), and the products of a step (R303). -/

namespace Sys2Proof.Machine

open Sys2Proof

/-! Accumulators. -/

def accValid (own : W64) (i : Nat) : Bool := bitAt own (4 * i + 2)
def accSlot (own : W64) (i : Nat) : Nat := own.toNat / 2 ^ (4 * i) % 4
/-- SLOTi := s, VALIDi := 1. -/
def accClaim (own : W64) (i s : Nat) : W64 :=
  (own &&& ~~~ (BitVec.ofNat 64 (7 * 2 ^ (4 * i)))) ||| BitVec.ofNat 64 ((s + 4) * 2 ^ (4 * i))
def accClear (own : W64) (i : Nat) : W64 := own &&& ~~~ (BitVec.ofNat 64 (4 * 2 ^ (4 * i)))

/-- The accumulators as lists of 1,024 words; the empty list is all zeros. -/
def canonAcc (l : List (BitVec 32)) : List (BitVec 32) := if l.all (· == 0#32) then [] else l
def Tile.accAt (t : Tile) (i : Nat) : List (BitVec 32) := tget [] t.acc i
def Tile.setAcc (t : Tile) (i : Nat) (l : List (BitVec 32)) : Tile := { t with acc := tput [] i (canonAcc l) t.acc }
def accWord (l : List (BitVec 32)) (i j : Nat) : W32 := l.getD (32 * i + j) 0#32

/-- A write of ACCOWN; an accumulator whose VALID it clears is zeroed (R207). -/
def Tile.writeAccown (t : Tile) (v : W64) : Tile :=
  let v := v &&& 0x7777#64
  let t' := (List.range 4).foldl (fun (u : Tile) i => if accValid t.accown i && !accValid v i then u.setAcc i [] else u) t
  { t' with accown := v }

/-- Whether slot s owns accumulator i. -/
def Tile.ownsAcc (t : Tile) (s i : Nat) : Bool := accValid t.accown i && accSlot t.accown i == s

/-! Operands. -/

/-- What an operand's tag means to the command. -/
def MOperand.kind (o : MOperand) : Option Kind := kindOf (List.replicate 8 o.fmt) o.tag

/-- The format register a custom tag names. -/
def State.fmtOf (s : State) (tag : Byte) : W64 :=
  if 0x20 ≤ tag.toNat ∧ tag.toNat ≤ 0x27 then tget 0#64 s.my.f (tag.toNat - 0x20) else 0#64

/-- The tags of the A and B operands (R302): 16-bit floats only where wide. -/
def mmaTag (wide : Bool) (tag : Byte) (k : Option Kind) : Bool :=
  match tag.toNat with
  | 0x03 => wide
  | 0x04 => wide
  | 0x05 => true | 0x06 => true | 0x07 => true | 0x10 => true | 0x11 => true | 0x18 => true | 0x19 => true
  | n => decide (0x20 ≤ n) && decide (n ≤ 0x27) && k.isSome

def scaleTag (tag : Byte) : Bool := tag == 0x08#8 || tag == 0x06#8 || tag == 0x05#8

/-- The recorded container of a custom handle fits the format (R246). -/
def containerFits (t : Handle) (k : Option Kind) : Bool :=
  if 0x20 ≤ t.tag.toNat ∧ t.tag.toNat ≤ 0x27 then k.any fun x => x.width == t.ebits else true

/-- Element (r, c) of a handle (R146). -/
def Handle.elem (t : Handle) (r c : Nat) : Nat :=
  tread t.bytes (t.bitOf r c / 8) ((t.ebits + 7) / 8) / 2 ^ (t.bitOf r c % 8) % 2 ^ t.ebits

/-- Element (r, c) := x, other bits as they were; a word that elements wholly cover is whole again (R386). -/
def Handle.putElem (t : Handle) (r c x : Nat) : Handle :=
  let a := t.bitOf r c / 8
  let sh := t.bitOf r c % 8
  let n := (t.ebits + 7) / 8
  let old := tread t.bytes a n
  { t with bytes := twrite t.bytes a n (old - old / 2 ^ sh % 2 ^ t.ebits * 2 ^ sh + x % 2 ^ t.ebits * 2 ^ sh) }

/-- Writes the 32 × 32 block at row 0, column 0. -/
def Handle.putBlock (t : Handle) (f : Nat → Nat → Nat) : Handle :=
  let t := (List.range 1024).foldl (fun (t : Handle) i => t.putElem (i / 32) (i % 32) (f (i / 32) (i % 32))) t
  let row := 4 * t.ebits
  { t with bad := t.bad.filter fun w => !(decide (8 * w % t.pitch + 8 ≤ row) && decide (8 * w / t.pitch < 32)) }

/-- Bytes lo to hi − 1 that hold rows [0, rows) and columns [0, cols): the range of a scoreboard entry (R157). -/
def Handle.span (t : Handle) (rows cols : Nat) : Nat := (rows - 1) * t.pitch + ceilDiv (cols * t.ebits) 8

/-- The first uncorrectable word in rows [r0, r1) and columns [c0, c1); a word is 8 bytes (log entry 86). -/
def Handle.badBlock (t : Handle) (r0 r1 c0 c1 : Nat) : Option Nat :=
  (t.bad.filter fun w =>
    (List.range (r1 - r0)).any fun r =>
      let lo := t.bitOf (r0 + r) c0 / 8
      let hi := ceilDiv (t.bitOf (r0 + r) c1) 8
      decide (8 * w < hi) && decide (lo < 8 * w + 8)).min?

/-! What a command needs of its handles. -/

/-- A handle a command uses: operand, rows and columns it needs, and whether it is written. -/
structure Use where
  h : Nat
  rows : Nat
  cols : Nat
  write : Bool := false
  deriving DecidableEq, Repr

def MOperand.use (o : MOperand) (rows cols : Nat) : List Use := if o.vt.isSome then [] else [{ h := o.h, rows := rows, cols := cols }]

/-- The local handles in the order R300 lists them. -/
def MatKind.uses : MatKind → List Use
  | .mma a b k _ => a.use 32 k ++ b.use k 32
  | .mmas a b sa sb k _ _ _ bs => a.use 32 k ++ b.use k 32 ++ sa.use 32 (k / bs) ++ sb.use (k / bs) 32
  | .mlda h => [{ h := h, rows := 32, cols := 32 }]
  | .msta h => [{ h := h, rows := 32, cols := 32, write := true }]
  | .mzero => []
  | .mtrn d h => [{ h := h, rows := 32, cols := 32 }, { h := d, rows := 32, cols := 32, write := true }]
  | .mcvt h _ _ _ => [{ h := h, rows := 32, cols := 32, write := true }]

/-- The remote operands. -/
def MatKind.remotes : MatKind → List (MOperand × Nat × Nat)
  | .mma a b k _ => ([(a, 32, k), (b, k, 32)]).filter fun o => o.1.vt.isSome
  | .mmas a b _ _ k _ _ _ _ => ([(a, 32, k), (b, k, 32)]).filter fun o => o.1.vt.isSome
  | _ => []

/-- Elements of K of one step, and K (R286). -/
def MatKind.stepLen : MatKind → Nat × Nat
  | .mma _ _ k _ => (32, k)
  | .mmas _ _ _ _ k _ _ _ bs => (16 * bs, k)
  | _ => (1, 1)

/-- An operand of context x as it stands now (R158). -/
def MOperand.freeze (o : MOperand) (s : State) (x : Nat) : MOperand :=
  if o.vt.isSome then o else { o with bytes := (s.handle x o.h).bytes }

/-- A command at its acceptance, with the bytes its local operands then hold (R158). -/
def MatKind.freeze (k : MatKind) (s : State) (x : Nat) : MatKind :=
  match k with
  | .mma a b n za => .mma (a.freeze s x) (b.freeze s x) n za
  | .mmas a b sa sb n za ta tb bs => .mmas (a.freeze s x) (b.freeze s x) (sa.freeze s x) (sb.freeze s x) n za ta tb bs
  | k => k

/-- The bytes of the handle an MLDA or MTRN reads (R158). -/
def MatKind.source (k : MatKind) (s : State) (x : Nat) : Tbl Byte :=
  match k with
  | .mlda h => (s.handle x h).bytes
  | .mtrn _ h => (s.handle x h).bytes
  | _ => []

/-- The scoreboard entries of a command (R157). -/
def MatKind.entries (s : State) (x : Nat) (k : MatKind) : List Entry :=
  k.uses.map fun u => { ctx := x, h := u.h, lo := 0, hi := (s.handle x u.h).span u.rows u.cols, writes := u.write, kind := 0 }

/-- An entry of another command that conflicts with one of these (R301). -/
def State.conflicts (s : State) (es : List Entry) : Bool :=
  es.any fun e => (s.overlaps e.ctx e.h e.lo e.hi).any fun o => o.writes || e.writes

/-! Products. -/

/-- An operand's handle and kind as a step reads them: a local one as it stood at acceptance, a remote one as it stands (R158,
R283). -/
def State.operand (s : State) (x : Nat) (o : MOperand) : Handle × Option Kind :=
  match o.vt with
  | some vt =>
    let t := s.handle (ctxKey (ctxRegion x) vt) o.h
    (t, kindOf [] t.tag)
  | none => ({ s.handle x o.h with bytes := o.bytes }, o.kind)

/-- The value of element (r, c) of an operand. -/
def valueAt (t : Handle × Option Kind) (r c : Nat) : Val :=
  match t.2 with
  | some k => k.value (t.1.elem r c % 2 ^ k.bits)
  | none => .nan

/-- Weighted MACs per MAC: the rate class follows the wider element (R280, R405). -/
def macClass (ea eb : Nat) : Nat := if 16 ≤ max ea eb then 4 else if 5 ≤ max ea eb then 2 else 1

/-- The terms of element (i, j) over k in [k0, k1) (R303). -/
def mmaTerms (a b : Handle × Option Kind) (i j k0 k1 : Nat) : List Val :=
  (List.range (k1 - k0)).map fun k => (valueAt a i (k0 + k)).mul (valueAt b (k0 + k) j)

/-- The block terms of MMAS over k in [k0, k1) (R253, R303). -/
def mmasTerms (a b sa sb : Handle × Option Kind) (ta tb : W32) (bs i j k0 k1 : Nat) : List Val :=
  (List.range ((k1 - k0) / bs)).map fun n =>
    let q := k0 / bs + n
    blockTerm (mmaTerms a b i j (q * bs) (q * bs + bs))
      [valueAt sa i q, valueAt sb q j, decodeFloat fp32 ta.toNat, decodeFloat fp32 tb.toNat]

end Sys2Proof.Machine
end

