-- ==== Sys2Proof/Machine/VecMath.lean ====
section
/-! DEFINITION. The element functions of the vector minors on exact values (R266, R267). The exponential and the logarithm
are cut far below every format's last place (log entry 10). -/

namespace Sys2Proof.Machine

open Sys2Proof

/-- Fraction bits of the fixed-point work below. -/
def fixBits : Nat := 320
/-- ln 2 in units of 2^−320. -/
def ln2Fix : Nat :=
  1480553391661173448385607439722553250922680800745876974795605978609098082859138712941075737848984

/-- The partial sums of e^y, y in units of 2^−320 below 1: Horner's rule over n terms. -/
def expFix (y : Nat) : Nat → Nat → Nat
  | 0, acc => acc
  | n + 1, acc => expFix y n (2 ^ fixBits + y * acc / 2 ^ fixBits / (n + 1))

/-- 2^a of a finite a, cut (R266). -/
def exp2Fin (neg : Bool) (m : Nat) (e : Int) : Val :=
  if m = 0 then .fin false 1 0 false
  else if log2Of m e ≥ 16 then .fin false 1 (if neg then -65536 else 65536) true
  else if log2Of m e < -250 then
    (if neg then .fin false (2 ^ 200 - 1) (-200) true else .fin false (2 ^ 200) (-200) true)
  else
    let c := cut m e (-(fixBits : Int))
    let v : Int := if neg then -(c.1 : Int) else c.1
    let n : Int := v / 2 ^ fixBits
    let f := (v % 2 ^ fixBits).toNat
    if f = 0 && c.2.1 = 0 then .fin false 1 n false
    else .fin false (expFix (f * ln2Fix / 2 ^ fixBits) 90 (2 ^ fixBits) / 2 ^ 40) (n - (fixBits - 40)) true

/-- Bits of log2 z by repeated squaring, z in units of 2^−320 within [1, 2). -/
def logBits : Nat → Nat → Nat → Nat
  | 0, _, acc => acc
  | n + 1, z, acc =>
    let q := z * z / 2 ^ fixBits
    if q ≥ 2 ^ (fixBits + 1) then logBits n (q / 2) (2 * acc + 1) else logBits n q (2 * acc)

/-- log2 of a positive magnitude m × 2^e, cut (R266). -/
def log2Fin (m : Nat) (e : Int) : Val :=
  let l := log2Of m e
  if m = 2 ^ Nat.log2 m then .ofInt l
  else
    let v : Int := l * 2 ^ 256 + (logBits 256 (m * 2 ^ (fixBits - Nat.log2 m)) 0 : Nat)
    if 0 ≤ v then .fin false v.toNat (-256) true else .fin true (v.natAbs - 1) (-256) true

/-- Minors with two or three operands (R266). -/
inductive VBin where
  | add | sub | mul | fma | fms | min | max | div
  deriving DecidableEq, Repr
inductive VUn where
  | sqrt | rcp | rsq | exp2 | log2 | abs | neg
  deriving DecidableEq, Repr

def divVal (a b : Val) : Val × Flags :=
  match a, b with
  | .nan, _ => (.nan, 0#6)
  | _, .nan => (.nan, 0#6)
  | .inf _, .inf _ => (.nan, 0#6)
  | .inf n, .fin k _ _ _ => (.inf (n != k), 0#6)
  | .fin n _ _ _, .inf k => (.zero (n != k), 0#6)
  | .fin n m1 e1 _, .fin k m2 e2 _ =>
    if m2 = 0 then (if m1 = 0 then (.nan, 0#6) else (.inf (n != k), flDZ))
    else if m1 = 0 then (.zero (n != k), 0#6)
    else (divFin (n != k) m1 e1 m2 e2, 0#6)

def vbinVal (op : VBin) (mode : Vrm) (a b d : Val) : Val × Flags :=
  match op with
  | .add => (a.add mode b, 0#6)
  | .sub => (a.add mode b.negate, 0#6)
  | .mul => (a.mul b, 0#6)
  | .fma => ((a.mul b).add mode d, 0#6)
  | .fms => (d.add mode (a.mul b).negate, 0#6)
  | .min => (a.minOf b, 0#6)
  | .max => (a.maxOf b, 0#6)
  | .div => divVal a b

def vunVal (op : VUn) (a : Val) : Val × Flags :=
  match op, a with
  | .abs, _ => (a.abs, 0#6)
  | .neg, _ => (a.negate, 0#6)
  | _, .nan => (.nan, 0#6)
  | .sqrt, .inf n => (if n then .nan else .inf false, 0#6)
  | .sqrt, .fin n m e _ => (if m = 0 then .zero n else if n then .nan else sqrtFin m e, 0#6)
  | .rcp, .inf n => (.zero n, 0#6)
  | .rcp, .fin n m e _ => if m = 0 then (.inf n, flDZ) else (divFin n 1 0 m e, 0#6)
  | .rsq, .inf n => (if n then .nan else .zero false, 0#6)
  | .rsq, .fin n m e _ => if m = 0 then (.inf n, flDZ) else (if n then .nan else rsqrtFin m e, 0#6)
  | .exp2, .inf n => (if n then .zero false else .inf false, 0#6)
  | .exp2, .fin n m e _ => (exp2Fin n m e, 0#6)
  | .log2, .inf n => (if n then .nan else .inf false, 0#6)
  | .log2, .fin n m e _ => if m = 0 then (.inf true, flDZ) else (if n then .nan else log2Fin m e, 0#6)

/-- Integer minors, modulo 2^w by their caller; a division has none. -/
def vbinInt (op : VBin) (a b d : Int) : Int :=
  match op with
  | .add => a + b
  | .sub => a - b
  | .mul => a * b
  | .fma => a * b + d
  | .fms => d - a * b
  | .min => if b < a then b else a
  | .max => if a < b then b else a
  | .div => 0

/-- A result of a float minor rounded into the operand format (R262). -/
def roundVal (f : Fmt) (mode : Vrm) (draw : Nat) (r : Val × Flags) : Nat × Flags :=
  let c := roundTo f mode false draw r.1
  (c.1, c.2 ||| r.2)

/-- Element(i) of a two-operand minor (R266). -/
def vbinElem (op : VBin) (k : Kind) (mode : Vrm) (a b d draw : Nat) : Nat × Flags :=
  match k with
  | .float f _ => roundVal f mode draw (vbinVal op mode (decodeFloat f a) (decodeFloat f b) (decodeFloat f d))
  | .int w g => (intCode w (vbinInt op (decodeInt w g a) (decodeInt w g b) (decodeInt w g d)), 0#6)
  | _ => (0, 0#6)

/-- Element(i) of a unary minor; VABS and VNEG on floats change the sign bit alone (R266). -/
def vunElem (op : VUn) (k : Kind) (mode : Vrm) (a draw : Nat) : Nat × Flags :=
  match op, k with
  | .abs, .float f _ => (a % 2 ^ (f.w - 1), 0#6)
  | .neg, .float f _ => (a ^^^ 2 ^ (f.w - 1), 0#6)
  | .abs, .int w g => (intCode w (if g then ((decodeInt w g a).natAbs : Int) else decodeInt w g a), 0#6)
  | .neg, .int w g => (intCode w (-(decodeInt w g a)), 0#6)
  | _, .float f _ => roundVal f mode draw (vunVal op (decodeFloat f a))
  | _, _ => (0, 0#6)

/-- The minors that step the generator under SR (R252). -/
def VBin.draws (op : VBin) : Bool := match op with | .min => false | .max => false | _ => true
def VUn.draws (op : VUn) : Bool := match op with | .abs => false | .neg => false | _ => true

end Sys2Proof.Machine
end

