-- ==== Sys2Proof/Machine/VecArith.lean ====
section
/-! DEFINITION. Vector arithmetic, major 0x20 (R265 to R267). -/

namespace Sys2Proof.Machine

open Sys2Proof

def State.vrm (s : State) : Vrm := (s.ctx s.me).rm

/-- The tags a minor accepts (R265): a division takes the arithmetic floats alone. -/
def arithTag (k : Kind) (floatsOnly : Bool) : Bool := if floatsOnly then k.isArith else k.sums
/-- The generator steps under SR for a floating result (R252). -/
def State.stepsSR (s : State) (k : Kind) (draws : Bool) : Bool := draws && k.isFloat && s.vrm == .sr

/-- A minor with operands v(VA), v(VB) and, for the fused ones, v(VD) (R265, R266). -/
def vbin (op : VBin) (m : Option Mask) (d a b : Reg) (s : State) : Host.Outcome State Fault Refusal :=
  let fused := op == .fma || op == .fms
  vecOp 4 [] ([d, a, b] ++ maskRegs m)
    (fun s =>
      let t := (s.vr a).tag
      s.maskOk m && t == (s.vr b).tag && (!fused || (s.vr d).tag == t) &&
        (s.kind t).any (fun k => arithTag k (op == .div)) && s.keepOk m d t)
    (fun s => (s.kind (s.vr a).tag).elim 0 fun k => macWeight k fused * s.enabledCount m k.count)
    (fun s => match s.kind (s.vr a).tag with
      | some k =>
        let w := k.width
        s.vectorWrite m d (s.vr a).tag w k.count (s.stepsSR k op.draws) fun i r =>
          vbinElem op k s.vrm (elemOf (s.vbits a) w i) (elemOf (s.vbits b) w i) (elemOf (s.vbits d) w i) r
      | none => s) s

/-- A unary minor (R265, R266). -/
def vun (op : VUn) (m : Option Mask) (d a : Reg) (s : State) : Host.Outcome State Fault Refusal :=
  let floats := op != .abs && op != .neg
  vecOp 4 [] ([d, a] ++ maskRegs m)
    (fun s =>
      let t := (s.vr a).tag
      s.maskOk m && (s.kind t).any (fun k => arithTag k floats) && s.keepOk m d t)
    (fun s => (s.kind (s.vr a).tag).elim 0 fun k => macWeight k false * s.enabledCount m k.count)
    (fun s => match s.kind (s.vr a).tag with
      | some k => s.vectorWrite m d (s.vr a).tag k.width k.count (s.stepsSR k op.draws) fun i r =>
          vunElem op k s.vrm (elemOf (s.vbits a) k.width i) r
      | none => s) s

def execVadd (m : Option Mask) (d a b : Reg) (s : State) : Host.Outcome State Fault Refusal := vbin .add m d a b s
def execVsub (m : Option Mask) (d a b : Reg) (s : State) : Host.Outcome State Fault Refusal := vbin .sub m d a b s
def execVmul (m : Option Mask) (d a b : Reg) (s : State) : Host.Outcome State Fault Refusal := vbin .mul m d a b s
def execVfma (m : Option Mask) (d a b : Reg) (s : State) : Host.Outcome State Fault Refusal := vbin .fma m d a b s
def execVfms (m : Option Mask) (d a b : Reg) (s : State) : Host.Outcome State Fault Refusal := vbin .fms m d a b s
def execVmin (m : Option Mask) (d a b : Reg) (s : State) : Host.Outcome State Fault Refusal := vbin .min m d a b s
def execVmax (m : Option Mask) (d a b : Reg) (s : State) : Host.Outcome State Fault Refusal := vbin .max m d a b s
def execVdiv (m : Option Mask) (d a b : Reg) (s : State) : Host.Outcome State Fault Refusal := vbin .div m d a b s
def execVsqrt (m : Option Mask) (d a : Reg) (s : State) : Host.Outcome State Fault Refusal := vun .sqrt m d a s
def execVrcp (m : Option Mask) (d a : Reg) (s : State) : Host.Outcome State Fault Refusal := vun .rcp m d a s
def execVrsq (m : Option Mask) (d a : Reg) (s : State) : Host.Outcome State Fault Refusal := vun .rsq m d a s
def execVexp2 (m : Option Mask) (d a : Reg) (s : State) : Host.Outcome State Fault Refusal := vun .exp2 m d a s
def execVlog2 (m : Option Mask) (d a : Reg) (s : State) : Host.Outcome State Fault Refusal := vun .log2 m d a s
def execVabs (m : Option Mask) (d a : Reg) (s : State) : Host.Outcome State Fault Refusal := vun .abs m d a s
def execVneg (m : Option Mask) (d a : Reg) (s : State) : Host.Outcome State Fault Refusal := vun .neg m d a s

end Sys2Proof.Machine
end

