-- ==== Sys2Proof/Machine/VecPerm.lean ====
section
/-! DEFINITION. Vector permutes, moves, reductions and scans, major 0x23 (R272 to R274). -/

namespace Sys2Proof.Machine

open Sys2Proof

/-- A permute of v(VA) under a second register's check: Element(i) from its kind, count and index (R273). -/
def vperm (m : Option Mask) (d a b : Reg) (ok : Kind → Kind → Bool) (pick : State → Kind → Kind → Nat → Option Nat) (s : State) :
    Host.Outcome State Fault Refusal :=
  vecOp 4 [] ([d, a, b] ++ maskRegs m)
    (fun s =>
      let t := (s.vr a).tag
      s.maskOk m && (match s.kind t, s.kind (s.vr b).tag with
        | some k, some j => k.typed && j.isInt && ok k j
        | _, _ => false) && s.keepOk m d t)
    noMacs
    (fun s => match s.kind (s.vr a).tag, s.kind (s.vr b).tag with
      | some k, some j => s.vectorWrite m d (s.vr a).tag k.width k.count false
          (plain fun i => (pick s k j i).elim 0 fun x => k.elem (s.vbits a) x)
      | _, _ => s) s

/-- Element 0 of the amount register, by its signedness (R273). -/
def amount (s : State) (j : Kind) (b : Reg) : Int := decodeInt j.width j.signedInt (elemOf (s.vbits b) j.width 0)

def execVshuf (m : Option Mask) (d a b : Reg) (s : State) : Host.Outcome State Fault Refusal :=
  vperm m d a b (fun k j => decide (8 ≤ k.width) && k.width == j.width)
    (fun s k j i => some (elemOf (s.vbits b) j.width i % k.count)) s
def execVrot (m : Option Mask) (d a b : Reg) (s : State) : Host.Outcome State Fault Refusal :=
  vperm m d a b (fun _ _ => true) (fun s k j i => some (((i : Int) + amount s j b) % (k.count : Int)).toNat) s
def execVslide (m : Option Mask) (d a b : Reg) (s : State) : Host.Outcome State Fault Refusal :=
  vperm m d a b (fun _ _ => true) (fun s k j i =>
    let x : Int := i - amount s j b
    if 0 ≤ x ∧ x < k.count then some x.toNat else none) s

/-- VBCAST (R273). -/
def execVbcast (m : Option Mask) (d a : Reg) (s : State) : Host.Outcome State Fault Refusal :=
  vecOp 4 [a] (d :: maskRegs m)
    (fun s => s.maskOk m && (s.kind (s.vr d).tag).any (·.typed)) noMacs
    (fun s => match s.kind (s.vr d).tag with
      | some k => s.vectorWrite m d (s.vr d).tag k.width k.count false (plain fun _ => (s.rd a).toNat % 2 ^ k.bits)
      | none => s) s

/-- VEXT (R273): VD names a c register. -/
def execVext (d a b : Reg) (s : State) : Host.Outcome State Fault Refusal :=
  vecOp 4 [d, b] [a] (fun s => (s.kind (s.vr a).tag).any (·.typed)) noMacs
    (fun s => match s.kind (s.vr a).tag with
      | some k =>
        let x := k.elem (s.vbits a) ((s.rd b).toNat % k.count)
        s.wd d (BitVec.ofInt 64 (decodeInt k.width k.signedInt x))
      | none => s) s

/-- VINS (R273): one element, the others and the tag unchanged. -/
def execVins (d a b : Reg) (s : State) : Host.Outcome State Fault Refusal :=
  vecOp 4 [a, b] [d] (fun s => (s.kind (s.vr d).tag).any (·.typed)) noMacs
    (fun s => match s.kind (s.vr d).tag with
      | some k =>
        let i := (s.rd b).toNat % k.count
        let old := elemOf (s.vbits d) k.width i
        let x := (s.rd a).toNat % 2 ^ k.bits
        s.setV d (s.vbits d - old * 2 ^ (k.width * i) + x * 2 ^ (k.width * i)) (s.vr d).tag
      | none => s) s

/-- VMOV (R273): without a mask all bits and the tag are copied. -/
def execVmov (m : Option Mask) (d a : Reg) (s : State) : Host.Outcome State Fault Refusal :=
  vecOp 4 [] ([d, a] ++ maskRegs m)
    (fun s =>
      let t := (s.vr a).tag
      s.maskOk m && (s.kind t).any (fun k => m.isNone || k.typed) && s.keepOk m d t) noMacs
    (fun s => match m, s.kind (s.vr a).tag with
      | some _, some k => s.vectorWrite m d (s.vr a).tag k.width k.count false (plain fun i => k.elem (s.vbits a) i)
      | _, _ => s.setV d (s.vbits a) (s.vr a).tag) s

/-! Reductions and scans (R274). -/

inductive VRed where
  | add | min | max
  deriving DecidableEq, Repr

/-- The exact sum, or the extreme, of float terms (R274). -/
def redVal (op : VRed) (mode : Vrm) : List Val → Val
  | [] => .zero false
  | t :: ts => ts.foldl (fun x y => match op with | .add => x.add mode y | .min => x.minOf y | .max => x.maxOf y) t

def redInt (op : VRed) : List Int → Int
  | [] => 0
  | t :: ts => ts.foldl (fun x y => match op with | .add => x + y | .min => min x y | .max => max x y) t

/-- The result of a reduction of the codes ts (R274). -/
def redElem (op : VRed) (k : Kind) (mode : Vrm) (draw : Nat) (ts : List Nat) : Nat × Flags :=
  match k with
  | .float f _ => roundTo f mode false draw (redVal op mode (ts.map (decodeFloat f)))
  | .int w g => (intCode w (redInt op (ts.map (decodeInt w g))), 0#6)
  | _ => (0, 0#6)

/-- The enabled elements of v(VA) below n, in ascending index. -/
def liveElems (s : State) (m : Option Mask) (k : Kind) (a : Reg) (n : Nat) : List Nat :=
  ((List.range n).filter fun i => s.enabled m i).map fun i => elemOf (s.vbits a) k.width i

/-- A reduction: its terms are VB[0] and the enabled elements of VA, its one result element 0 (R274). -/
def vred (op : VRed) (mr : Option (BitVec 2)) (d a b : Reg) (s : State) : Host.Outcome State Fault Refusal :=
  let m := srcMask mr
  vecOp 4 [] ([d, a, b] ++ srcRegs mr)
    (fun s =>
      let t := (s.vr a).tag
      s.maskOk m && t == (s.vr b).tag && (s.kind t).any (·.sums))
    (fun s => (s.kind (s.vr a).tag).elim 0 fun k => macWeight k false * s.enabledCount m k.count)
    (fun s => match s.kind (s.vr a).tag with
      | some k =>
        let ts := elemOf (s.vbits b) k.width 0 :: liveElems s m k a k.count
        let run := vecElems k.width (fun _ => true) false 0 (s.stepsSR k (op == .add))
          (fun _ r => redElem op k s.vrm r ts) 1 0 { lo := s.my.seedLo, hi := s.my.seedHi }
        ((s.modMy fun c => { c with seedLo := run.lo, seedHi := run.hi }).setV d run.bits (s.vr a).tag).raiseFlags run.flags
      | none => s) s

def execVredadd (mr : Option (BitVec 2)) (d a b : Reg) (s : State) : Host.Outcome State Fault Refusal := vred .add mr d a b s
def execVredmin (mr : Option (BitVec 2)) (d a b : Reg) (s : State) : Host.Outcome State Fault Refusal := vred .min mr d a b s
def execVredmax (mr : Option (BitVec 2)) (d a b : Reg) (s : State) : Host.Outcome State Fault Refusal := vred .max mr d a b s

/-- VSCAN (R274): Element(i) is the sum of the enabled elements of index at most i. -/
def execVscan (m : Option Mask) (d a : Reg) (s : State) : Host.Outcome State Fault Refusal :=
  vecOp 4 [] ([d, a] ++ maskRegs m)
    (fun s =>
      let t := (s.vr a).tag
      s.maskOk m && (s.kind t).any (·.sums) && s.keepOk m d t)
    (fun s => (s.kind (s.vr a).tag).elim 0 fun k => macWeight k false * s.enabledCount m k.count)
    (fun s => match s.kind (s.vr a).tag with
      | some k => s.vectorWrite m d (s.vr a).tag k.width k.count (s.stepsSR k true) fun i r =>
          redElem .add k s.vrm r (liveElems s m k a (i + 1))
      | none => s) s

end Sys2Proof.Machine
end

