-- ==== Sys2Proof/Machine/VecConv.lean ====
section
/-! DEFINITION. Vector conversions, tags and VDOT, major 0x24 (R275 to R279). -/

namespace Sys2Proof.Machine

open Sys2Proof

/-- A value into E8M0 (R276): the power of two that the mode chooses, then its code. Infinities follow R248 (log entry 56). -/
def toScale (mode : Vrm) (sat : Bool) (draw : Nat) (x : Val) : Nat × Flags :=
  match x with
  | .nan => (0xFF, flNV)
  | .inf neg => if neg then (0xFF, flNV) else if sat then (0xFE, flSAT) else (0xFF, flNV)
  | .fin neg m e more =>
    if neg || m = 0 then (0xFF, flNV)
    else
      let l := log2Of m e
      -- x lies between 2^l, code l + 127, and 2^(l + 1)
      let c := cut m e l
      let exact := c.2.1 == 0 && !more
      let up := roundsUp mode false ((l + 127) % 2 == 1) c.2.1 c.2.2 more draw
      let code := l + 127 + (bit01 (up && !exact) : Nat)
      let fl := if exact then 0#6 else flNX
      if code < 0 then (0x00, flUF ||| flNX)
      else if 0xFE < code then
        let inf := match mode with | .rz => false | .rdn => false | _ => true
        if sat then (0xFE, fl ||| flOF ||| flNX ||| flSAT)
        else if inf then (0xFF, fl ||| flOF ||| flNX ||| flNV)
        else (0xFE, fl ||| flOF ||| flNX)
      else (code.toNat, fl)

/-- A custom destination's SATIN stands for SAT (R276). -/
def satFor (tag : Byte) (f : Fmt) (sat : Bool) : Bool := if 0x20 ≤ tag.toNat && tag.toNat ≤ 0x27 then f.satin else sat

/-- One element converted from kind a into kind k, named by tag (R276). Only a narrowing of integers clamps: a widening extends by the
source's signedness, and equal widths keep the bits (R250; log entry 69). -/
def convElem (tag : Byte) (a k : Kind) (mode : Vrm) (sat : Bool) (draw code : Nat) : Nat × Flags :=
  match k with
  | .float f _ => roundTo f mode (satFor tag f sat) draw (a.value code)
  | .int w g => match a with
    | .int v h => narrowInt w g (sat && decide (w < v)) (decodeInt v h code)
    | _ => toInt w g mode draw (a.value code)
  | .scale => toScale mode sat draw (a.value code)
  | _ => (0, 0#6)

/-- VCVT (R276). -/
def execVcvt (tag : Byte) (rm : Vrm) (sat : Bool) (m : Option Mask) (d a : Reg) (s : State) : Host.Outcome State Fault Refusal :=
  vecOp 12 [] ([d, a] ++ maskRegs m)
    (fun s => s.maskOk m && (s.kind (s.vr a).tag).any (·.typed) && (s.kind tag).isSome && s.keepOk m d tag) noMacs
    (fun s => match s.kind (s.vr a).tag, s.kind tag with
      | some j, some k =>
        s.vectorWrite m d tag k.width (1024 / max j.width k.width) (rm == .sr) fun i r =>
          convElem tag j k rm sat r (elemOf (s.vbits a) j.width i)
      | _, _ => s) s

/-- VPACK (R276): v(VA)'s elements, then v(VB)'s, at half the width. -/
def execVpack (tag : Byte) (rm : Vrm) (sat : Bool) (m : Option Mask) (d a b : Reg) (s : State) : Host.Outcome State Fault Refusal :=
  vecOp 12 [] ([d, a, b] ++ maskRegs m)
    (fun s => s.maskOk m && (s.vr a).tag == (s.vr b).tag && (match s.kind (s.vr a).tag, s.kind tag with
      | some j, some k => j.typed && j.width == 2 * k.width
      | _, _ => false) && s.keepOk m d tag) noMacs
    (fun s => match s.kind (s.vr a).tag, s.kind tag with
      | some j, some k =>
        let n := j.count
        s.vectorWrite m d tag k.width k.count (rm == .sr) fun i r =>
          convElem tag j k rm sat r (if i < n then elemOf (s.vbits a) j.width i else elemOf (s.vbits b) j.width (i - n))
      | _, _ => s) s

/-- VUNPK (R276): v(VA)'s elements at twice the width, over the pair v(D), v(D + 1). -/
def execVunpk (tag : Byte) (rm : Vrm) (sat : Bool) (m : Option Mask) (d a : Reg) (s : State) : Host.Outcome State Fault Refusal :=
  let d1 := d + 1#5
  vecOp 12 [] ([d, d1, a] ++ maskRegs m)
    (fun s => s.maskOk m && (match s.kind (s.vr a).tag, s.kind tag with
      | some j, some k => j.typed && k.width == 2 * j.width
      | _, _ => false) && s.keepOk m d tag && s.keepOk m d1 tag) noMacs
    (fun s => match s.kind (s.vr a).tag, s.kind tag with
      | some j, some k =>
        let run := vecElems k.width (s.enabled m) (agnosticOf m) (s.vbits d + s.vbits d1 * 2 ^ 1024) (rm == .sr)
          (fun i r => convElem tag j k rm sat r (elemOf (s.vbits a) j.width i)) j.count 0 { lo := s.my.seedLo, hi := s.my.seedHi }
        (((s.modMy fun c => { c with seedLo := run.lo, seedHi := run.hi }).setV d (run.bits % 2 ^ 1024) tag).setV d1
          (run.bits / 2 ^ 1024) tag).raiseFlags run.flags
      | _, _ => s) s

/-- The bounds a range tag gives (R277). -/
def satBounds (k : Kind) : Val × Val :=
  match k with
  | .float f _ =>
    let top := decodeFloat f f.maxMag
    (if f.s = 1 then top.negate else .zero false, top)
  | .scale => (.fin false 1 (-127) false, .fin false 1 127 false)
  | .int w g => (.ofInt (intMin w g), .ofInt (intMax w g))
  | _ => (.nan, .nan)

/-- A bound in the operand's own format, taken by RZ (R277). -/
def boundCode (k : Kind) (b : Val) : Nat :=
  match k with
  | .float f _ => (roundTo f .rz false 0 b).1
  | .int w g => (toInt w g .rz 0 b).1
  | _ => 0

/-- One element of VSAT (R277); a bound that RZ makes 0 is met by either zero (log entry 85). -/
def vsatElem (k range : Kind) (code : Nat) : Nat × Flags :=
  let b := satBounds range
  let lo := boundCode k b.1
  let hi := boundCode k b.2
  let x := k.value code
  match k with
  | .float f _ =>
    if x.isNan then (f.nanCode.getD 0, flNV)
    else if x.lt (k.value lo) then (lo, flSAT) else if (k.value hi).lt x then (hi, flSAT) else (code, 0#6)
  | _ => if x.lt (k.value lo) then (lo, flSAT) else if (k.value hi).lt x then (hi, flSAT) else (code, 0#6)

/-- VSAT (R277). -/
def execVsat (tag : Byte) (m : Option Mask) (d a : Reg) (s : State) : Host.Outcome State Fault Refusal :=
  vecOp 12 [] ([d, a] ++ maskRegs m)
    (fun s => s.maskOk m && (s.kind (s.vr a).tag).any (·.sums) && (s.kind tag).isSome && s.keepOk m d (s.vr a).tag) noMacs
    (fun s => match s.kind (s.vr a).tag, s.kind tag with
      | some k, some g => s.vectorWrite m d (s.vr a).tag k.width k.count false fun i _ => vsatElem k g (elemOf (s.vbits a) k.width i)
      | _, _ => s) s

/-- VTAG (R278). -/
def execVtag (tag : Byte) (d a : Reg) (s : State) : Host.Outcome State Fault Refusal :=
  vecOp 12 [] [d, a] (fun s => (s.kind tag).isSome) noMacs (fun s => s.setV d (s.vbits a) tag) s
/-- VTAGQ (R278): D names a c register. -/
def execVtagq (d a : Reg) (s : State) : Host.Outcome State Fault Refusal :=
  vecOp 4 [d] [a] (fun _ => true) noMacs (fun s => s.wd d ((s.vr a).tag.zeroExtend 64)) s

/-- The operand tags VDOT accepts (R279). -/
def vdotOk (s : State) (d a b : Reg) : Bool :=
  match s.kind (s.vr a).tag, s.kind (s.vr b).tag with
  | some j, some k => j.width == k.width && decide (j.width ≤ 32) &&
      ((j.isFloat && k.isFloat && (s.vr d).tag == 0x01#8) || (j.isInt && k.isInt && (s.vr d).tag == 0x14#8))
  | _, _ => false

/-- Weighted MACs of one product (R405). -/
def dotWeight (j k : Kind) : Nat :=
  let w := max j.bits k.bits
  if 16 ≤ w then 4 else if 5 ≤ w then 2 else 1

/-- One lane of VDOT (R279). -/
def vdotElem (j k : Kind) (a b d i : Nat) : Nat :=
  let p := 32 / j.width
  let at_ (q : Kind) (x t : Nat) : Nat := elemOf x q.width (p * i + t)
  match j with
  | .int w g => intCode 32 ((List.range p).foldl (fun n t =>
      n + decodeInt w g (at_ j a t) * (match k with | .int v h => decodeInt v h (at_ k b t) | _ => 0)) (decodeInt 32 true (elemOf d 32 i)))
  | _ => groupSum (decodeFloat fp32 (elemOf d 32 i) :: (List.range p).map fun t => (j.value (at_ j a t)).mul (k.value (at_ k b t)))

/-- VDOT (R279). -/
def execVdot (m : Option Mask) (d a b : Reg) (s : State) : Host.Outcome State Fault Refusal :=
  vecOp 4 [] ([d, a, b] ++ maskRegs m)
    (fun s => s.maskOk m && vdotOk s d a b)
    (fun s => match s.kind (s.vr a).tag, s.kind (s.vr b).tag with
      | some j, some k => s.enabledCount m 32 * (32 / j.width) * dotWeight j k
      | _, _ => 0)
    (fun s => match s.kind (s.vr a).tag, s.kind (s.vr b).tag with
      | some j, some k => s.vectorWrite m d (s.vr d).tag 32 32 false (plain fun i => vdotElem j k (s.vbits a) (s.vbits b) (s.vbits d) i)
      | _, _ => s) s

end Sys2Proof.Machine
end

