-- ==== Sys2Proof/Machine/Matrix.lean ====
section
/-! DEFINITION. Matrix commands, major 0x2C (R299 to R304): issue, acceptance (R289, R301), steps (R286), retirement and
remote operands (R283 to R285). -/

namespace Sys2Proof.Machine

open Sys2Proof

/-! Acceptance. -/

/-- How an attempt to accept a command ends: accepted, still waiting, or ACC_FIRST_USE for an accumulator that another slot owns or
that a swap has saved (R289, R296, R298). -/
inductive Accept where
  | ok (s : State)
  | wait
  | firstUse (i : Nat)

/-- A firing that lets a command of the table start, or a table no term holds (R331). -/
def State.tableFree (s : State) (x : Nat) : Bool :=
  let c := s.ctx x
  !(s.tile c.site).heldBy 2 0 c.slot || decide (0 < c.matCredits)

/-- The waits of R289 in their order for core k, with the conflict wait of R301. -/
def acceptMatrix (s : State) (k : Nat) (c : MatCmd) : Accept :=
  let x := coreCtx k
  let t := s.ctx x
  let has (i : Nat) : Bool := t.cmds.any fun m => m.id == i
  let es := c.kind.entries s x
  let pair := pairOf t.site
  if has c.p0 || has c.p1 || has c.id || decide (16 ≤ t.cmds.length) || s.conflicts es then .wait
  else match s.addEntries es with
    | none => .wait
    | some (ids, s') =>
      if (s.pair pair).lic.holder != some (requester t.site t.slot) then .wait
      else
        let own := (s.tile t.site).accown
        match c.acc.filter fun i => (accValid own i && accSlot own i != t.slot) || t.saved.contains i with
        | some i => .firstUse i
        | none =>
          let s := match c.acc with
            | some i => if accValid own i then s' else
                s'.modTile t.site fun u => { u.setAcc i [] with accown := accClaim own i t.slot }
            | none => s'
          let s := if (s.tile t.site).matGlide || (s.tile t.site).matHeld.isSome then
            (s.modTile t.site fun u => { u with matGlide := false, matHeld := none }).releaseUnits (clusterOf t.site) 8 else s
          let c := { c with kind := c.kind.freeze s x, src := c.kind.source s x, entries := ids, seg := (s.core k).seg }
          .ok ((s.modCtx x fun t => { t with cmds := t.cmds ++ [c] }).post (.matrixStep t.site))

/-- The trap of the first use after a swap is raised once: accumulator i of a context is no longer marked saved (R298; log entry
24). -/
def State.unsave (s : State) (x i : Nat) : State := s.modCtx x fun c => { c with saved := c.saved.filter fun j => j != i }

/-- A command at its issue: accepted, stalled, or trapped (R289). -/
def offerMatrix (s : State) (c : MatCmd) : Act :=
  match acceptMatrix s s.myKey c with
  | .ok s => (s, .retire)
  | .firstUse i => (if s.pendingReqs then s else s.unsave s.me i, .trap .accFirstUse 0 i)
  | .wait => ((s.modMy fun k => { k with stall := .matrix c }).licStep (pairOf s.focus.site), .done)

/-- MATRIX_ACCEPT: the waits of a stalled command have ended, or it meets ACC_FIRST_USE at its PC (R289, R296). -/
def execMatrixAccept (k : Nat) (s : State) : Host.Outcome State Fault Refusal :=
  .next (match (s.core k).stall with
    | .matrix c =>
      let s := s.licStep (pairOf (s.ctx (coreCtx k)).site)
      match acceptMatrix s k c with
      | .ok s => s.modCore k fun t => { t with stall := .none, prog := { t.prog with step := 1 } }
      | .wait => s
      | .firstUse i =>
        let w := (s.core k).prog.words.headD 0#32
        ((s.unsave (coreCtx k) i).modCore k fun t => { t with stall := .none }).asCore k fun s =>
          s.takeTrap Cause.accFirstUse.code 0 i (s.core k).pc w false false
    | _ => s)

/-! Issue (R300). -/

/-- The tags of a command are accepted (R302, R304). -/
def tagsOk (s : State) (k : MatKind) : Bool :=
  let x := s.me
  let fits (o : MOperand) : Bool := o.vt.isSome || containerFits (s.handle x o.h) o.kind
  let ab (wide : Bool) (o : MOperand) : Bool := o.vt.isSome || (mmaTag wide o.tag o.kind && fits o)
  let tagAt (h : Nat) : Byte := (s.handle x h).tag
  let own (h : Nat) : Bool := containerFits (s.handle x h) (s.kind (tagAt h))
  match k with
  | .mma a b _ _ => ab true a && ab true b
  | .mmas a b sa sb _ _ _ _ _ => ab false a && ab false b && scaleTag sa.tag && scaleTag sb.tag
  | .mlda h => tagAt h == 0x01#8
  | .msta h => tagAt h == 0x01#8
  | .mzero => true
  | .mtrn d h => tagAt d == tagAt h && own d && own h
  | .mcvt h _ _ _ => !(tagAt h == 0x00#8 || tagAt h == 0x40#8 || tagAt h == 0x08#8) && own h

/-- The first handle whose shape is too small, with the offset past the last byte the command would touch (R300). -/
def shapeFail (s : State) (k : MatKind) : Option (Nat × Nat) :=
  (k.uses.find? fun u => decide ((s.handle s.me u.h).rows < u.rows) || decide ((s.handle s.me u.h).cols < u.cols)).map fun u =>
    (u.h, (s.handle s.me u.h).span u.rows u.cols)

/-- CheckHandle over the handles of a command, then k (R161). -/
def withHandles (s : State) : List Use → (Unit → Act) → Act
  | [], k => k ()
  | u :: us, k => withHandle s (BitVec.ofNat 5 u.h) true 0 fun _ => withHandles s us k

/-- IssueMatrix (R300). cr are the c registers it reads; len is its length in bytes. -/
def issueMatrix (len : Nat) (t : MTags) (cr : List Reg) (acc : Option (BitVec 2)) (kind : State → MatKind) (s : State) :
    Host.Outcome State Fault Refusal :=
  issue { len := len, computeOnly := true, cr := cr, waitAll := true } (fun s =>
    let k := kind s
    if s.my.prog.step = 1 then (s, .retire)
    else if t.semV && !s.semOk t.sem.toNat then (s, .trap .privilege 0 0)
    else if t.evV && !s.evOk t.ev.toNat then (s, .trap .privilege 0 0)
    else withHandles s k.uses fun _ =>
      if !tagsOk s k then (s, .trap .format 0 0)
      else match shapeFail s k with
        | some (h, off) => (s, .trap .handleBounds (off % 2 ^ 56) (handleInfo h 0))
        | none => match k.uses.find? fun u => u.write && (s.handle s.me u.h).st == 2 with
          | some u => (s, .trap .handleExported 0 (handleInfo u.h 0))
          | none => offerMatrix s
              { id := t.id.toNat, p0 := t.p0.toNat, p1 := t.p1.toNat, acc := acc.map (·.toNat), kind := k
                sem := if t.semV then some t.sem.toNat else none
                ev := if t.evV then some t.ev.toNat else none }) s

/-- An operand handle, with the format its tag names (R246); r holds a remote operand's virtual tile (R282). -/
def State.mOperand (s : State) (h : Reg) (r : Option Reg) : MOperand :=
  let tag := (s.handle s.me h.toNat).tag
  match r with
  | some c => { h := h.toNat, vt := some ((s.rd c).toNat % 2 ^ 24) }
  | none => { h := h.toNat, tag := tag, fmt := s.fmtOf tag }

/-- MMA (R302, R303). -/
def execMma (x : MmaArgs) (s : State) : Host.Outcome State Fault Refusal :=
  issueMatrix 12 x.tags (x.ra.toList ++ x.rb.toList) (some x.acc)
    (fun s => .mma (s.mOperand x.a x.ra) (s.mOperand x.b x.rb) (16 * x.k16.toNat) x.za) s

/-- A tensor scale: 1.0 where the field is 0 (R254). -/
def tensorScale (s : State) (r : Reg) : W32 := if r = 0#5 then 0x3F800000#32 else (s.rd r).truncate 32
def BlockSize.count (b : BlockSize) : Nat := match b with | .b8 => 8 | .b16 => 16 | .b32 => 32

/-- MMAS (R302, R303). -/
def execMmas (x : MmaArgs) (y : MmasArgs) (s : State) : Host.Outcome State Fault Refusal :=
  issueMatrix 20 x.tags (x.ra.toList ++ x.rb.toList ++ [y.ta, y.tb]) (some x.acc)
    (fun s => .mmas (s.mOperand x.a x.ra) (s.mOperand x.b x.rb) (s.mOperand y.sa none) (s.mOperand y.sb none) (16 * x.k16.toNat)
      x.za (tensorScale s y.ta) (tensorScale s y.tb) (BlockSize.count y.bs)) s

/-- MLDA, MSTA, MZERO, MTRN, MCVT (R304). -/
def execMlda (t : MTags) (acc : BitVec 2) (h : Reg) (s : State) : Host.Outcome State Fault Refusal :=
  issueMatrix 12 t [] (some acc) (fun _ => .mlda h.toNat) s
def execMsta (t : MTags) (h : Reg) (acc : BitVec 2) (s : State) : Host.Outcome State Fault Refusal :=
  issueMatrix 12 t [] (some acc) (fun _ => .msta h.toNat) s
def execMzero (t : MTags) (acc : BitVec 2) (s : State) : Host.Outcome State Fault Refusal :=
  issueMatrix 12 t [] (some acc) (fun _ => .mzero) s
def execMtrn (t : MTags) (d h : Reg) (s : State) : Host.Outcome State Fault Refusal :=
  issueMatrix 12 t [] none (fun _ => .mtrn d.toNat h.toNat) s
def execMcvt (t : MTags) (rm : Vrm) (sat : Bool) (h : Reg) (acc : BitVec 2) (s : State) : Host.Outcome State Fault Refusal :=
  issueMatrix 12 t [] (some acc) (fun s => .mcvt h.toNat rm sat (s.fmtOf (s.handle s.me h.toNat).tag)) s

/-! Steps (R286). -/

/-- Changes the head command of a context's table. -/
def State.setMat (s : State) (x : Nat) (f : MatCmd → MatCmd) : State :=
  s.modCtx x fun t => { t with cmds := match t.cmds with
    | c :: cs => f c :: cs
    | [] => [] }

/-- Adds a deferred trap to the context's compute core. -/
def State.pendTrap (s : State) (x : Nat) (cause va info : Nat) : State :=
  s.modCore (coreKey x true) fun c => { c with pend := c.pend ++ [{ cause := cause, va := va, info := info }] }

/-- Discards the head command, and completes an instruction that waits for it as a predecessor, though a trap has set it aside
(R284, R285). -/
def State.discardHead (s : State) (x : Nat) : State :=
  match (s.ctx x).cmds.head? with
  | none => s
  | some c =>
    let k := coreKey x true
    let named (p : Nat × Nat) : Bool := p.1 == c.id || p.2 == c.id
    let skip (g : Progress) : Progress := if g.preds.any named then { g with step := 1 } else g
    let s := s.discardMats x fun d => d.id == c.id
    let s := s.modCore k fun t => match t.stall with
      | .matrix d => if named (d.p0, d.p1) then { t with stall := .none, prog := { t.prog with step := 1 } } else t
      | _ => { t with prog := skip t.prog }
    let m := s.mcore (s.coreId k)
    if m.mode && m.trapCtx == some x then s.modMcore (s.coreId k) fun m => { m with kept := skip m.kept } else s

/-- The uncorrectable word a step of the command meets, as handle and word number (R285): A's before B's before SA's before SB's (log entry 86). -/
def badStep (s : State) (x : Nat) (c : MatCmd) (k0 k1 : Nat) : Option (Nat × Nat) :=
  let look (o : MOperand) (r0 r1 c0 c1 : Nat) : Option (Nat × Nat) :=
    if o.vt.isSome then none else ((s.handle x o.h).badBlock r0 r1 c0 c1).map fun w => (o.h, w)
  match c.kind with
  | .mma a b _ _ => (look a 0 32 k0 k1).or (look b k0 k1 0 32)
  | .mmas a b sa sb _ _ _ _ bs =>
    (look a 0 32 k0 k1).or ((look b k0 k1 0 32).or ((look sa 0 32 (k0 / bs) (k1 / bs)).or (look sb (k0 / bs) (k1 / bs) 0 32)))
  | .mlda h => look { h := h } 0 32 0 32
  | .mtrn _ h => look { h := h } 0 32 0 32
  | _ => none

/-- The elements of MCVT with its generator (R248, R250, R252, R304); sat is SAT, or SATIN of a custom tag. -/
def mcvtElems (k : Kind) (rm : Vrm) (sat : Bool) (acc : List W32) : Nat → Nat → VecRun → List Nat × VecRun
  | 0, _, a => ([], a)
  | n + 1, i, a =>
    let g := if rm == .sr then nextSR a.lo a.hi else (a.lo, a.hi, 0#64)
    let v := decodeFloat fp32 (acc.getD i 0#32).toNat
    let code := match k with
      | .int w sg => (toInt w sg rm (g.2.2.toNat / 2 ^ 32) v).1
      | .float f _ => (roundTo f rm sat (g.2.2.toNat / 2 ^ 32) v).1
      | _ => 0
    let r := mcvtElems k rm sat acc n (i + 1) { a with lo := g.1, hi := g.2.1 }
    (code :: r.1, r.2)

/-- The results of a step over k in [k0, k1) (R303, R304). -/
def stepResult (s : State) (x : Nat) (c : MatCmd) (k0 k1 : Nat) : State :=
  let site := (s.ctx x).site
  let old := (s.tile site).accAt (c.acc.getD 0)
  let setAcc (f : Nat → Nat → Nat) : State := s.modTile site fun t =>
    t.setAcc (c.acc.getD 0) ((List.range 1024).map fun i => BitVec.ofNat 32 (f (i / 32) (i % 32)))
  let x0 (za : Bool) (i j : Nat) : Nat := if za && c.done == 0 then 0 else (accWord old i j).toNat
  match c.kind with
  | .mma a b _ za => setAcc fun i j => dot (x0 za i j) (mmaTerms (s.operand x a) (s.operand x b) i j k0 k1)
  | .mmas a b sa sb _ za ta tb bs => setAcc fun i j =>
      dot (x0 za i j) (mmasTerms (s.operand x a) (s.operand x b) (s.operand x sa) (s.operand x sb) ta tb bs i j k0 k1)
  | .mlda h => setAcc fun i j => { s.handle x h with bytes := c.src }.elem i j
  | .msta h => s.modHandle x h fun t => t.putBlock fun i j => (accWord old i j).toNat
  | .mzero => s.modTile site fun t => t.setAcc (c.acc.getD 0) []
  | .mtrn d h =>
    let src : Handle := { s.handle x h with bytes := c.src }
    s.modHandle x d fun t => t.putBlock fun i j => src.elem j i
  | .mcvt h rm sat fmt => match kindOf (List.replicate 8 fmt) (s.handle x h).tag with
    | none => s
    | some k =>
      let key := coreKey x true
      let sat := match k with
        | .float f _ => satFor (s.handle x h).tag f sat
        | _ => sat
      let r := mcvtElems k rm sat old 1024 0 { lo := (s.core key).seedLo, hi := (s.core key).seedHi }
      (s.modHandle x h fun t => t.putBlock fun i j => r.1.getD (32 * i + j) 0).modCore key fun t =>
        { t with seedLo := r.2.lo, seedHi := r.2.hi }

/-- Weighted MACs of a step (R405). -/
def stepMacs (s : State) (x : Nat) (c : MatCmd) (n : Nat) : Nat :=
  let w (a b : MOperand) : Nat := macClass (s.operand x a).1.ebits (s.operand x b).1.ebits
  match c.kind with
  | .mma a b _ _ => 1024 * n * w a b
  | .mmas a b _ _ _ _ _ _ _ => 1024 * n * w a b
  | _ => 0

/-- Operands-consumed: the entries of what it read retire, and its semaphore is raised (R157, R290). -/
def State.consume (s : State) (x : Nat) (c : MatCmd) : State :=
  let (wr, rd) := c.entries.partition fun e => (tget none (s.tile e.1).board e.2).any (·.writes)
  ((s.freeEntries rd).setMat x fun c => { c with consumed := true, entries := wr }).postSemEv (s.ctx x).site c.sem none

/-- One step of the head command with its reservation held (R286, R287). -/
def State.runStep (s : State) (x : Nat) (c : MatCmd) : State :=
  let site := (s.ctx x).site
  let l := c.kind.stepLen
  let k0 := l.1 * c.done
  let k1 := min l.2 (k0 + l.1)
  match badStep s x c k0 k1 with
  | some (h, w) =>
    (s.discardHead x).pendTrap x Cause.uncorrectable.code (8 * w) (16 * (h % 32))
  | none =>
    let s := (s.chargeOps x c.seg (stepMacs s x c (k1 - k0))).noteBudgets
    let s := stepResult s x c k0 k1
    let s := (s.setMat x fun c => { c with done := c.done + 1, granted := false, requested := false, served := false }).releaseUnits
      (clusterOf site) 8
    if l.2 ≤ k1 then (s.consume x c).post (.matrixRetire site) else s

/-- ACC_FIRST_USE of a resumed step is already pending or being handled (R296). -/
def State.firstUsePending (s : State) (x : Nat) : Bool :=
  (s.core (coreKey x true)).pend.any (fun p => p.cause == Cause.accFirstUse.code) ||
    (let m := (s.tile (s.ctx x).site).compute
     m.mode && m.cause == Cause.accFirstUse.code && m.trapCtx == some x)

/-- MATRIX_STEP: the head command of the holder's table runs one step, once a firing, its accumulator, current and its
remote operands allow; a step whose region stops before its first read gives its units back, and none begins in an odd cycle of halved
issue (R423); a stopped one that lost its accumulator waits for the return from its trap (R286, R291, R296, R297, R325,
R331). -/
def execMatrixStep (site : Nat) (s : State) : Host.Outcome State Fault Refusal :=
  .next (
    let s := s.licStep (pairOf site)
    match s.matCtx site with
    | none => s
    | some x => match (s.ctx x).cmds.head? with
      | none => s
      | some c =>
        let slot := (s.ctx x).slot
        let cl := clusterOf site
        let stops := !c.requested && !s.regionRuns (ctxRegion x)
        if c.granted && stops then (s.setMat x fun c => { c with granted := false }).releaseUnits cl 8
        else if c.consumed || stops || (!c.started && !s.tableFree x) || (!c.requested && s.oddCycle site) then s
        else if c.stopped && (s.firstUsePending x || c.acc.any fun i => !(s.tile site).ownsAcc slot i) then
          (if s.firstUsePending x then s else (s.unsave x (c.acc.getD 0)).pendTrap x Cause.accFirstUse.code 0 (c.acc.getD 0 + 4))
        else
          let s := if c.started || !(s.tile site).heldBy 2 0 slot then s else s.modCtx x fun t => { t with matCredits := t.matCredits - 1 }
          let s := s.setMat x fun c => { c with started := true, stopped := false }
          let u := s.cluster cl
          if !c.granted && !u.grants 8 then
            if u.waiting.any fun q => q.site == site && q.unit == 0 then s
            else
              let q : ResReq := { site := site, unit := 0, units := 8, prio := s.prio (ctxRegion x), arrival := s.tick }
              (s.modCluster cl fun u => { u with waiting := u.waiting ++ [q] }).post (.reservationGrant cl)
          else
            let s := if c.granted then s else
              (s.modCluster cl fun u => { u with inuse := u.inuse + 8 }).setMat x fun c => { c with granted := true }
            if !c.kind.remotes.isEmpty && !c.served then
              if c.requested then s else (s.setMat x fun c => { c with requested := true }).post (.remoteOperandRequest site)
            else s.runStep x { c with started := true, stopped := false, granted := true })

/-- MATRIX_RETIRE: the last result is written; the entries of destinations, the ID and the table entry are freed and the
event is pulsed (R290). -/
def execMatrixRetire (site : Nat) (s : State) : Host.Outcome State Fault Refusal :=
  .next (match (List.range 4).findSome? fun i => (tget none (s.tile site).slots i).bind fun x =>
      ((s.ctx x).cmds.find? (·.consumed)).map fun c => (x, c) with
    | none => s
    | some (x, c) =>
      let s := (s.freeEntries c.entries).modCtx x fun t => { t with cmds := t.cmds.filter fun d => d.id != c.id }
      ((s.postSemEv site none c.ev).licStep (pairOf site)).post (.matrixStep site))

/-! Remote operands (R282 to R284). -/

/-- The exporting tile refuses a request: the target, the export, the tag, the shape or the words it holds do not serve. -/
def refusesRemote (s : State) (x : Nat) (wide : Bool) (o : MOperand) (rows cols k0 k1 : Nat) (isA : Bool) : Bool :=
  let vt := o.vt.getD 0
  let y := ctxKey (ctxRegion x) vt
  let t := s.handle y o.h
  decide (s.gridSize (ctxRegion x) ≤ vt) || (s.ctx y).st != 1 || clusterOf (s.ctx y).site != clusterOf (s.ctx x).site || t.st != 2 ||
    !mmaTag wide t.tag none || decide (t.rows < rows) || decide (t.cols < cols) ||
    (if isA then t.badBlock 0 32 k0 k1 else t.badBlock k0 k1 0 32).isSome

/-- REMOTE_OPERAND_REQUEST: the exporters of a step's remote operands serve it, or one refuses and the command ends with
HANDLE_INVALID reason 6 pending (R284), A's where both are refused (log entry 86). -/
def execRemoteOperandRequest (site : Nat) (s : State) : Host.Outcome State Fault Refusal :=
  .next (match s.matCtx site with
    | none => s
    | some x => match (s.ctx x).cmds.head? with
      | none => s
      | some c =>
        if !c.requested || c.served then s
        else
          let l := c.kind.stepLen
          let k0 := l.1 * c.done
          let k1 := min l.2 (k0 + l.1)
          let wide := match c.kind with
            | .mma _ _ _ _ => true
            | _ => false
          let bad (o : MOperand × Nat × Nat) : Bool := refusesRemote s x wide o.1 o.2.1 o.2.2 k0 k1 (o.2.1 == 32 && o.2.2 == l.2)
          let s := c.kind.remotes.foldl (fun s o => s.cacheEntry x (ctxKey (ctxRegion x) (o.1.vt.getD 0))) s
          match c.kind.remotes.find? bad with
          | some o => (s.discardHead x).pendTrap x Cause.handleInvalid.code 0 (handleInfo o.1.h 6)
          | none => (s.setMat x fun c => { c with served := true }).post (.matrixStep site))

/-! Waits, spills, queries: major 0x2D (R305 to R309). -/

/-- The commands an ID of MWAIT or MCONS names (R306). -/
def State.namedMats (s : State) (id : BitVec 6) : List MatCmd := (s.ctx s.me).cmds.filter fun c => id == 63#6 || c.id == id.toNat

/-- The steps of an MWAIT and an MCONS that wait (log entry 13). -/
def mwaitStep : Nat := 9
def mconsStep : Nat := 10

/-- A wait on the command table: for no command named to hold an entry, or for each to have passed operands-consumed. It notes what
it waits for, so that its end comes before a deferred trap (R284, R306). -/
def waitMats (s : State) (id : BitVec 6) (step : Nat) : Act :=
  if (s.namedMats id).all fun c => c.consumed && step == mconsStep then (s, .retire)
  else (s.modMy fun c => { c with prog := { c.prog with step := step, value := id.toNat, waits := true } }, .stay)

/-- The wait of an MWAIT or MCONS of core k has ended (R306). -/
def State.matWaitOver (s : State) (k : Nat) : Bool :=
  let g := (s.core k).prog
  let cs := (s.ctx (coreCtx k)).cmds.filter fun c => g.value == 63 || c.id == g.value
  g.waits && ((g.step == mwaitStep && cs.isEmpty) || (g.step == mconsStep && cs.all (·.consumed)))

/-- MWAIT (R306). -/
def execMwait (id : BitVec 6) (s : State) : Host.Outcome State Fault Refusal :=
  issue { mon := true } (fun s => waitMats s id mwaitStep) s

/-- MCONS (R306). -/
def execMcons (id : BitVec 6) (s : State) : Host.Outcome State Fault Refusal :=
  issue { mon := true } (fun s => waitMats s id mconsStep) s

/-- Bytes of a context's save block with its accumulator save area first: 16 KiB of accumulators, the fixed block, vector registers, 192
granules, trail buffers, places and held messages, and the deque (R297, R363, R375; log entry 32). -/
def saveBytes : Nat := 16384 + 8192 + 32 * 128 + 192 * 16384 + 2 * 32 * bufferRoom + 128 * (32 + 2 * 16 + 512)
/-- Frames of that block. -/
def saveFrames : Nat := (saveBytes + 65535) / 65536

/-- The rim address of byte o of a context's save block (R363). -/
def State.saveAt (s : State) (x o : Nat) : Nat :=
  let fs := (s.ctx x).trailFrames
  fs.getD (fs.length - saveFrames + o / 65536) 0 + o % 65536

/-- The rim address of a context's accumulator save area (R297, R363). -/
def State.saveAddr (s : State) (x i : Nat) : Nat := s.saveAt x (4096 * i)

/-- Traffic of the save area, charged to the context's region for each of its runs (R307, R391). -/
def State.saveTouch (s : State) (x i : Nat) (write : Bool) : State :=
  if (s.ctx x).trailFrames.isEmpty then s else s.areaTouch x write (s.saveAddr x i) 4096

/-- A command of the tile writes accumulator i in a step that is on the unit (R307). -/
def State.accBusy (s : State) (site i : Nat) : Bool :=
  (List.range 4).any fun j => (tget none (s.tile site).slots j).any fun x =>
    (s.ctx x).cmds.any fun c => c.acc == some i && (c.granted || c.consumed) && match c.kind with
      | .msta _ => false
      | .mcvt _ _ _ _ => false
      | _ => true

/-- MSPILL (R307). -/
def execMspill (acc slot : BitVec 2) (s : State) : Host.Outcome State Fault Refusal :=
  issue { monOnly := true, computeOnly := true } (fun s =>
    let site := s.focus.site
    let i := acc.toNat
    match tget none (s.tile site).slots slot.toNat with
    | none => (s, .trap .illegal 0 0)
    | some x =>
      if s.accBusy site i then (s, .stay)
      else ((s.modCtx x fun c => { c with save := tput [] i ((s.tile site).accAt i) c.save, saveBad := c.saveBad.filter (· != i) }).saveTouch x i true,
            .retire)) s

/-- MFILL (R307). -/
def execMfill (acc slot : BitVec 2) (s : State) : Host.Outcome State Fault Refusal :=
  issue { monOnly := true, computeOnly := true } (fun s =>
    let site := s.focus.site
    let i := acc.toNat
    match tget none (s.tile site).slots slot.toNat with
    | none => (s, .trap .illegal 0 0)
    | some x =>
      if s.accBusy site i then (s, .stay)
      else if (s.ctx x).saveBad.contains i then (s, .trap .uncorrectable 0 2)
      else ((s.modTile site fun t => t.setAcc i (tget [] (s.ctx x).save i)).saveTouch x i false, .retire)) s

/-- The values of ACCQ (R309). -/
def accFigure (s : State) (sel : Nat) : Nat :=
  let own := (s.tile s.focus.site).accown
  let cs := (s.ctx s.me).cmds
  match sel with
  | 0 => ((List.range 4).map fun i => bit01 (accValid own i && accSlot own i == s.mySlot) * 2 ^ i + bit01 (accValid own i) * 2 ^ (4 + i) +
      bit01 (cs.any fun c => c.acc == some i) * 2 ^ (8 + i)).sum
  | 1 => (cs.map fun c => 2 ^ c.id).sum
  | _ => cs.length

/-- ACCQ (R309). -/
def execAccq (d : Reg) (sel : BitVec 2) (s : State) : Host.Outcome State Fault Refusal :=
  issue { mon := true, cr := [d] } (fun s => retireWith s d (BitVec.ofNat 64 (accFigure s sel.toNat))) s

/-- ACCOWN_WRITE: a monitor write at the tile (R207). -/
def execAccownWrite (site : Nat) (v : W64) (s : State) : Host.Outcome State Fault Refusal :=
  .next (s.modTile site fun t => t.writeAccown v)

/-! Format registers, major 0x2E (R310, R311). -/

/-- FMTSET (R311). -/
def execFmtset (f : BitVec 3) (a : Reg) (s : State) : Host.Outcome State Fault Refusal :=
  issue { mon := true, cr := [a] } (fun s =>
    let x := s.rd a
    if x = 0#64 ∨ (customFmt x).isSome then (s.modMy fun c => { c with f := tput 0#64 f.toNat x c.f }, .retire)
    else (s, .trap .format 0 0)) s

/-- FMTGET (R311). -/
def execFmtget (d : Reg) (f : BitVec 3) (s : State) : Host.Outcome State Fault Refusal :=
  issue { mon := true, cr := [d] } (fun s => retireWith s d (tget 0#64 s.my.f f.toNat)) s

end Sys2Proof.Machine
end

