-- ==== Sys2Proof/Machine/Handler.lean ====
section
/-! DEFINITION. Handlers and activations: reads the device makes for a region, the handler table (R316, R454) and header
(R45), messages at their NI (R315, R317, R369), the deque and the run queue (R318 to R321), and the start and restart of
activations (R312 to R314, R118). -/

namespace Sys2Proof.Machine

open Sys2Proof

/-! Device reads. -/

/-- n bytes at va with an access and a view, none for the newest version, line by line; fuel bounds the lines. -/
def readMem (s : State) (p reg : Nat) (acc : Access) (v : Option Stamp) (who : Asker) : (fuel va n : Nat) → ReadEnd × State
  | 0, _, _ => (.ok 0, s)
  | f + 1, va, n =>
    if n = 0 then (.ok 0, s)
    else
      let m := min n (64 - va % 64)
      match translate s p va acc reg (v.getD (mkStamp (s.tick + 1) 0)) who with
      | (.fault k, s) => (.fault k va, s)
      | (.wait, s) => (.wait, s)
      | (.ok pa, s) => match s.readPa p (s.homeOf p va) pa m (devHalf va) reg v with
        | (none, s) => (.poison va, s)
        | (some y, s) => match readMem s p reg acc v who f (va + m) (n - m) with
          | (.ok z, s) => (.ok (y.1 + z * 256 ^ m), s)
          | r => r

/-- n bytes at their newest version. -/
def readNewest (s : State) (p reg : Nat) (who : Asker) (va n : Nat) : ReadEnd × State :=
  match readMem s p reg .load none who (n / 64 + 2) va n with
  | (.wait, t) => (.wait, t.unmoved s p)
  | r => r

/-! Handler table and header. -/

/-- A handler entry (R316). -/
structure HEntry where
  off : Nat
  valid : Bool
  compute : Bool
  cls : Nat
  deriving DecidableEq, Repr

def parseEntry (x : Nat) : HEntry :=
  { off := x % 2 ^ 32, valid := x / 2 ^ 32 % 2 == 1, compute := x / 2 ^ 33 % 2 == 1, cls := x / 2 ^ 34 % 4 }

/-- A handler header (R45). -/
structure Header where
  magic : Nat
  ver : Nat
  compute : Bool
  vregs : Nat
  handles : Nat
  codeLen : Nat
  sigOff : Nat
  sigCount : Nat
  entry : Nat
  mask : Nat
  rsv : Bool
  deriving DecidableEq, Repr

def parseHeader (x : Nat) : Header :=
  { magic := x % 2 ^ 16, ver := x / 2 ^ 16 % 2 ^ 8, compute := x / 2 ^ 24 % 2 == 1, vregs := x / 2 ^ 25 % 64
    handles := x / 2 ^ 32 % 64, codeLen := x / 2 ^ 64 % 2 ^ 32, sigOff := x / 2 ^ 96 % 2 ^ 32, sigCount := x / 2 ^ 128 % 2 ^ 32
    entry := x / 2 ^ 192 % 2 ^ 32, mask := x / 2 ^ 224 % 2 ^ 32
    rsv := x / 2 ^ 31 % 2 != 0 || x / 2 ^ 38 % 2 ^ 26 != 0 || x / 2 ^ 160 % 2 ^ 32 != 0 || x / 2 ^ 256 % 2 ^ 256 != 0 }

/-- How a read on behalf of a core ended: a value, a trap of the core with its cause, FAULTVA and FAULTINFO, or a wait. -/
inductive Fetched1 (α : Type) where
  | ok (x : α)
  | abort (c : Cause) (va info : Nat)
  | wait

def fetched1 {α : Type} (acc : Access) (f : Nat → α) : ReadEnd → Fetched1 α
  | .ok x => .ok (f x)
  | .fault k va => .abort .pageFault va (pfInfo k acc)
  | .poison va => .abort .uncorrectable va 1
  | .wait => .wait

/-- Entry n of a region's handler table at its newest version (R454). -/
def readEntry (s : State) (r htab : Nat) (who : Asker) (n : Nat) : Fetched1 HEntry × State :=
  let q := readNewest s (s.region r).part r who (htab + 16 * n) 16
  (fetched1 .load parseEntry q.1, q.2)

/-- The header at an offset from the code capability's base, read as fetch reads (R24, R454). -/
def readHeader (s : State) (r : Nat) (code : CReg) (off : Nat) (v : Stamp) : Fetched1 Header × State :=
  let va := code.base + off
  if code.top < va + 64 then (.abort .capBounds va 0, s)
  else if !code.permX || !devHalf va then (.abort .capPerm va 0, s)
  else
    let q := readMem s (s.region r).part r .fetch (some v) .device 2 va 64
    (fetched1 .fetch parseHeader q.1, q.2)

/-! Messages at their NI. -/

/-- Wakes a sleeping core of a tile (R322). -/
def State.wake (s : State) (c : CoreId) : State := if (s.mcore c).asleep then s.post (.coreWake c) else s
def State.wakeKey (s : State) (k : Nat) : State := s.wake (s.coreId k)

/-- Records of a lodge queue (R369). -/
def lodgeRoom : Nat := 512

/-- Parks a message at its target's lodge (R369). -/
def State.park (s : State) (x : Nat) (m : Msg) : State :=
  s.modCtx x fun c => { c with lodge := c.lodge ++ [m], oldest := if c.lodge.isEmpty then m.arrival else c.oldest }

/-- Puts a message into a place of its class (R315). -/
def State.putPlace (s : State) (x : Nat) (m : Msg) (cls : Nat) (compute : Bool) : State :=
  (s.modCtx x fun c => { c with places := c.places ++ [{ msg := m, cls := cls, since := m.arrival, compute := compute }] }).wakeKey
    (coreKey x compute)

/-- What the NI makes of a message's handler entry: its class and role, or none for an empty entry (R315, R316). A read that
faults is met again at dispatch (R454). -/
def State.classOf (s : State) (r : Nat) (m : Msg) : Option (Nat × Bool) × State :=
  match readEntry s r (s.region r).blk.htab .device m.hdl.toNat with
  | (.ok e, s) => (if e.valid then some (e.cls, e.compute) else none, s)
  | (_, s) => (some (0, false), s)

/-- HANDLER_MISSING for a parked message: the region's fault handler is started (R316, R387). -/
def State.missing (s : State) (x : Nat) (m : Msg) : State :=
  s.reportOwn (coreKey x false) Cause.handlerMissing.code 0 m.hdl.toNat

/-- LODGE_DRAIN: parked messages enter places in park order while one is free and the head's entry serves; an empty one
raises HANDLER_MISSING once for its record (R316, R371). fuel bounds the records. -/
def State.drainLodge (s : State) (x : Nat) : Nat → State
  | 0 => s
  | n + 1 =>
    let c := s.ctx x
    match c.lodge with
    | [] => s
    | m :: ms =>
      let popped (s : State) : State := s.modCtx x fun c =>
        { c with lodge := ms, oldest := (ms.head?.map (·.arrival)).getD 0 }
      if c.st != 1 then s
      else match m.kind with
        | .arrive b => ((popped s).modBar x b fun t => t.arrive m.tail).drainLodge x n
        | _ =>
          if 32 ≤ c.places.length then s
          else match s.classOf (ctxRegion x) m with
            | (some (cls, k), s) => ((popped s).putPlace x { m with told := false } cls k).drainLodge x n
            | (none, s) => if m.told then s else
                (s.modCtx x fun c => { c with lodge := { m with told := true } :: ms }).missing x m

def State.drain (s : State) (x : Nat) : State := s.drainLodge x ((s.ctx x).lodge.length)

/-- LODGE_DRAIN (R371). -/
def execLodgeDrain (ctx : Nat) (s : State) : Host.Outcome State Fault Refusal := .next (s.drain ctx)

/-! The deque and the run queue. -/

/-- The 128 bytes of a continuation record (R318). -/
def ContRec.image (e : ContRec) : Nat :=
  let tags := bit01 (e.join.any (·.tag)) + ((List.range 6).map fun i => bit01 ((e.regs.getD i {}).tag) * 2 ^ (i + 1)).sum
  e.hdr % 2 ^ 26 + e.pcw % 2 ^ 26 * 2 ^ 26 + e.regs.length % 8 * 2 ^ 52 + bit01 e.join.isSome * 2 ^ 55 + tags * 2 ^ 56 +
    bit01 e.compute * 2 ^ 63 + e.tailTick % 2 ^ 64 * 2 ^ 64 + ((e.join.map (·.bits.toNat)).getD 0) * 2 ^ 128 +
    ((List.range 6).map fun i => (e.regs.getD i {}).bits.toNat * 2 ^ (256 + 128 * i)).sum

/-- The record that 128 bytes hold (R318). -/
def recordAt (x : Nat) : ContRec :=
  let tag (i : Nat) : Bool := x / 2 ^ (56 + i) % 2 == 1
  let slot (i : Nat) : CReg := { bits := BitVec.ofNat 128 (x / 2 ^ (128 + 128 * i)), tag := tag i }
  { hdr := x % 2 ^ 26, pcw := x / 2 ^ 26 % 2 ^ 26, join := if x / 2 ^ 55 % 2 = 1 then some (slot 0) else none
    regs := (List.range (min 6 (x / 2 ^ 52 % 8))).map fun i => { slot (i + 1) with tag := tag (i + 1) }
    tailTick := x / 2 ^ 64 % 2 ^ 64, compute := x / 2 ^ 63 % 2 == 1 }

/-- The run queue of a region (R321). -/
def State.ring (s : State) (r : Nat) : Ring := tget {} (s.part (s.region r).part).rings (s.region r).blk.runq
def State.modRing (s : State) (p va : Nat) (f : Ring → Ring) : State :=
  s.modPart p fun q => { q with rings := tput {} va (f (tget {} q.rings va)) q.rings }

/-- The VA of the record i places behind the head of a run queue, which is a ring of RQCAP records at RUNQ (R321). -/
def Block.recordVa (b : Block) (q : Ring) (i : Nat) : Nat := b.runq + 128 * ((q.head + i) % b.rqcap)

/-- Room in a run queue (R326). -/
def State.ringRoom (s : State) (p ring cap : Nat) : Bool := decide ((tget {} (s.part p).rings ring).count < cap)
def State.ringFree (s : State) (r : Nat) : Bool := s.ringRoom (s.region r).part (s.region r).blk.runq (s.region r).blk.rqcap

/-- n bytes written at va by the engines of their lines (R108, R321); what lies outside the rim's allocation faults RANGE (R76). fuel
bounds the lines. -/
def engineWrites (s : State) (p r : Nat) : (fuel va n x : Nat) → Option ReqEnd × State
  | 0, _, _, _ => (some (.value 0 false 0), s)
  | f + 1, va, n, x =>
    if n = 0 then (some (.value 0 false 0), s)
    else if !devHalf va then (some (.abort Cause.pageFault.code va (pfInfo .range .atomic)), s)
    else
      let m := min n (64 - va % 64)
      match engineAct s (s.engineOf p va) p r va m (fun _ => some (x % 256 ^ m)) 0 .device with
      | (some (.value _ _ _), s) => engineWrites s p r f (va + m) (n - m) (x / 256 ^ m)
      | e => e

/-- Wakes both cores of a context, and every core of a region. -/
def State.wakeCtx (s : State) (x : Nat) : State := (s.wakeKey (coreKey x false)).wakeKey (coreKey x true)
def State.wakeRegion (s : State) (r : Nat) : State :=
  s.ctxs.foldl (fun s e => if ctxRegion e.1 == r && e.2.st == 1 then s.wakeCtx e.1 else s) s

/-- Appends a record's 128 bytes to a region's run queue, which has room, and wakes its cores; the result is a value, or the abort of
the write (R321, R322; log entry 66). -/
def State.ringPush (s : State) (r x : Nat) : Option ReqEnd × State :=
  let g := s.region r
  let q := s.ring r
  match engineWrites s g.part r 4 (g.blk.recordVa q q.count) 128 x with
  | (some (.value a b c), s) => (some (.value a b c), (s.modRing g.part g.blk.runq fun t => { t with count := t.count + 1 }).wakeRegion r)
  | e => e

/-- The head record of a region's run queue, as it lies in memory (R321, R322). -/
def State.ringHead (s : State) (r : Nat) : Fetched1 ContRec × State :=
  let g := s.region r
  let va := g.blk.recordVa (s.ring r) 0
  if !devHalf va then (.abort .pageFault va (pfInfo .range .load), s)
  else
    let q := readNewest s g.part r .device va 128
    (fetched1 .load recordAt q.1, q.2)

/-- Takes the head of a region's run queue; a record that becomes the head wakes the cores as one pushed does (R321, R322; log
entry 23). -/
def State.ringPop (s : State) (r : Nat) : State :=
  let g := s.region r
  let s := s.modRing g.part g.blk.runq fun t => { head := (t.head + 1) % g.blk.rqcap, count := t.count - 1 }
  if (s.ring r).count = 0 then s else s.wakeRegion r

/-- Push of R319; the deque has room. -/
def State.dequePush (s : State) (x : Nat) (e : ContRec) : State :=
  ((s.modCtx x fun c => { c with deque := c.deque ++ [e], bot := (c.bot + 1) % 2 ^ 32 }).wakeKey (coreKey x false)).wakeKey
    (coreKey x true)

/-- Pop of R319 by a role: the bottom record, if it is of the role. -/
def State.dequePop (s : State) (x : Nat) (compute : Bool) : Option (ContRec × State) :=
  match (s.ctx x).deque.getLast? with
  | some e =>
    if e.compute != compute then none
    else some (e, s.modCtx x fun c =>
      if c.deque.length = 1 then { c with deque := [], top := (c.top + 1) % 2 ^ 32 }
      else { c with deque := c.deque.dropLast, bot := (c.bot + 2 ^ 32 - 1) % 2 ^ 32 })
  | none => none

/-- Steal of R319 by a role: the top record, if it is of the role. -/
def State.dequeSteal (s : State) (x : Nat) (compute : Bool) : Option (ContRec × State) :=
  match (s.ctx x).deque with
  | e :: es => if e.compute != compute then none
    else some (e, s.modCtx x fun c => { c with deque := es, top := (c.top + 1) % 2 ^ 32 })
  | [] => none

/-- How far a spill has come: done, waiting with n records to move, or ended by a fault of the run queue's memory. -/
inductive Spilled where
  | done (s : State)
  | wait (n : Nat) (s : State)
  | abort (c : Cause) (va info : Nat) (s : State)

/-- The cause of an engine's abort. -/
def abortCause (c : Nat) : Cause := if c = Cause.uncorrectable.code then .uncorrectable else .pageFault

/-- Spill(n) (R320): the oldest records of a deque go to the tail of the run queue, each taken as a steal; a full queue makes it wait. -/
def State.spill (s : State) (x : Nat) : Nat → Spilled
  | 0 => .done s
  | n + 1 =>
    match (s.ctx x).deque with
    | [] => .done s
    | e :: _ =>
      if !s.ringFree (ctxRegion x) then .wait (n + 1) s
      else match s.ringPush (ctxRegion x) e.image with
        | (some (.value _ _ _), s) => (s.modCtx x fun c => { c with deque := c.deque.drop 1, top := (c.top + 1) % 2 ^ 32 }).spill x n
        | (some (.abort c a i), s) => .abort (abortCause c) a i s
        | (_, s) => .wait (n + 1) s

/-! Starting an activation (R312, R313). -/

/-- The registers ENTRYMASK names, ascending, c0 skipped. -/
def maskRegsOf (mask : Nat) : List Nat := (List.range 32).filter fun i => i != 0 && mask / 2 ^ i % 2 == 1
/-- F of R318: the lowest register the handler's ENTRYMASK names, or c1. -/
def firstOf (mask : Nat) : Nat := (maskRegsOf mask).headD 1

def putRegs (rs : List Nat) (vs : List CReg) : Tbl CReg := (rs.zip vs).foldl (fun t e => tput {} e.1 e.2 t) []

/-- The remote-source value of R313. -/
def handleRef (h vt : Nat) : CReg := dataReg (BitVec.ofNat 64 (2 ^ 63 + h * 2 ^ 24 + vt))

/-- c registers as a message or record fills them (R313, R318, R337). -/
def fillRegs (mask : Nat) : Trigger → Tbl CReg
  | .message m => match m.kind with
    | .spawn first => putRegs ((List.range m.payload.length).map (first + ·)) m.payload
    | .sendh h => putRegs (maskRegsOf mask) (m.payload ++ [handleRef h m.sender])
    | _ => putRegs (maskRegsOf mask) m.payload
  | .record e => putRegs ((List.range (e.regs.length + 1)).map (firstOf mask + ·)) (e.regs ++ e.join.toList)

/-- The stamp an activation acquires to (R105). -/
def startTarget : Trigger → Stamp
  | .message m => m.tail
  | .record e => mkStamp e.tailTick 0x1FFFF

/-- Banks that an activation with n declared registers powers (R203, R205). -/
def powerBanks (s : State) (x n : Nat) : State :=
  let site := (s.ctx x).site
  let slot := (s.ctx x).slot
  s.modTile site fun t => { t with vbanks := (List.range 8).foldl (fun b i =>
    tput {} (slot * 8 + i) (if 4 * i < n then { powered := true, last := s.edgesAt site } else {}) b) t.vbanks }

/-- A core of region r is inside an activation (R328). -/
def State.anyActive (s : State) (r : Nat) : Bool := s.cores.any fun e => ctxRegion (coreCtx e.1) == r && e.2.act.isSome

/-- The watchdog of a region in which no core was inside an activation counts from here (R328). -/
def State.startWatch (s : State) (r : Nat) : State := if s.anyActive r then s else s.modRegion r fun g => { g with watch := s.tick }

/-- The start of an activation at offset pcOff of the handler's code, after its acquire (R312). VCTL and VFLAGS are the context's, and a start of its
compute core alone zeroes them (R215; log entry 82). -/
def startAct (s : State) (k : Nat) (tr : Trigger) (off : Nat) (h : Header) (pcOff : Nat) : State :=
  let x := coreCtx k
  let r := ctxRegion x
  let code := (s.region r).blk.code.base + off + 64
  let a : Activation := { hdr := off, code := code, codeLen := h.codeLen, mask := BitVec.ofNat 32 h.mask, vregs := h.vregs,
                          handles := h.handles, sigOff := h.sigOff, sigCount := h.sigCount, trigger := tr }
  let s := if coreCompute k then powerBanks (s.modCtx x fun c => { c with v := [], rm := .rne, flags := 0#6 }) x h.vregs else s
  s.modCore k fun c =>
    { c with
      c := fillRegs h.mask tr, f := [], pc := code + pcOff, act := some a, ckpt := none, sig := { block := pcOff }, stall := .none
      prog := {}, killed := .no, atoms := [] }

/-- An activation whose start faulted: it holds its trigger and no checkpoint (R454). -/
def heldAct (tr : Trigger) : Activation :=
  { hdr := 0, code := 0, codeLen := 0, mask := 0#32, vregs := 0, handles := 0, sigOff := 0, sigCount := 0, trigger := tr }

/-- A fault on the reads of a dispatch is taken in the core as a fetch fault is (R454). -/
def startFault (s : State) (k : Nat) (tr : Trigger) (c : Cause) (va info pc : Nat) : State :=
  ((s.startWatch (ctxRegion (coreCtx k))).modCore k fun t =>
    { t with act := some (heldAct tr), ckpt := none, stall := .none, killed := .ready }).asCore k fun s => s.takeAbort c.code va info pc 0#32

/-- The start of an activation from the header at off; pcOff is none for its ENTRY. First comes the starting acquire (R312, R105). -/
def startAt (s : State) (k : Nat) (tr : Trigger) (off : Nat) (pcOff : Option Nat) : State :=
  (s.startWatch (ctxRegion (coreCtx k))).modCore k fun c =>
    { c with
      act := some (heldAct tr), ckpt := none, acq := .start (startTarget tr), stall := .fp (startTarget tr) (.start off pcOff)
      prog := {}, killed := .no, seg := c.seg + 1, atoms := [], assists := c.helping }

/-- A trigger whose header names the other role goes to that core of the context (R312; log entry 71). none is a wait for room. -/
def State.handOver (s : State) (k : Nat) (tr : Trigger) (compute : Bool) : Option State :=
  let x := coreCtx k
  let s := s.modCore k fun c => { c with act := none, stall := .none, acq := .start 0, assists := false }
  match tr with
  | .message m =>
    let q := s.classOf (ctxRegion x) m
    some (q.2.putPlace x m ((q.1.map (·.1)).getD 0) compute)
  | .record e => if (s.ctx x).deque.length < 512 then some (s.dequePush x { e with compute := compute }) else none

/-- The second step of a start, with V at FP: the header is read (R312, R454). none is a wait. -/
def startHeader (s : State) (k : Nat) (tr : Trigger) (off : Nat) (pcOff : Option Nat) : Option State :=
  let code := (s.region (ctxRegion (coreCtx k))).blk.code
  match readHeader s (ctxRegion (coreCtx k)) code off (s.core k).view with
  | (.ok h, s) => if h.compute == coreCompute k then some (startAct s k tr off h (pcOff.getD h.entry)) else s.handOver k tr h.compute
  | (.abort c va info, s) => some (startFault s k tr c va info (code.base + off + 64 + pcOff.getD 0))
  | (.wait, _) => none

/-- What the delivery of a trigger comes to: the core has taken it, or it waits, the host asked where that is what it waits for. -/
inductive Started where
  | took (s : State)
  | wait (s : State)

def Started.state : Started → State
  | .took s => s
  | .wait s => s

/-- A core takes a message: the entry is looked up; an empty one parks it, or leaves it where the lodge is full (R316, R322, R371). -/
def startMessage (s : State) (k : Nat) (m : Msg) : Started :=
  let x := coreCtx k
  let r := ctxRegion x
  match readEntry s r (s.region r).blk.htab (.core k) m.hdl.toNat with
  | (.ok e, s) =>
    if e.valid then .took (startAt s k (.message m) e.off none)
    else if lodgeRoom ≤ (s.ctx x).lodge.length then .wait s
    else .took (((s.modCore k fun c => { c with act := none, killed := .no }).park x { m with told := true }).missing x m)
  | (.abort c va info, s) => .took (startFault s k (.message m) c va info 0)
  | (.wait, s) => .wait s

def startRecord (s : State) (k : Nat) (e : ContRec) : State := startAt s k (.record e) (e.hdr * 64) (some (4 * e.pcw))

/-- Redelivery or rerun of a trigger (R314); the activation is still there, so that the watchdog goes on (R328). -/
def startTrigger (s : State) (k : Nat) : Trigger → Started
  | .message m => startMessage s k m
  | .record e => .took (startRecord s k e)

/-! Restart (R118, R388). -/

/-- How far an instruction is that a checkpoint restarts: nowhere, but a JOIN that has arrived does so once (R340, R388;
log entry 90). -/
def Checkpoint.resumes (p : Checkpoint) : Progress :=
  match p.arrived with
  | some (step, value) => { rel := some 0, step := step, value := value }
  | none => {}

/-- The state a killed segment restarts from: its checkpoint with V := FP, or its trigger (R118, R314), for which it may have to wait. -/
def State.restartCore (s : State) (k : Nat) : State :=
  let c := s.core k
  let x := coreCtx k
  match c.act, c.ckpt with
  | none, _ => s.modCore k fun c => { c with killed := .no }
  | some a, none => (startTrigger s k a.trigger).state
  | some _, some p =>
    let s := (s.setView k (s.fpOf k)).modCore k fun c =>
      { c with c := p.regs, pc := p.pc, sig := p.sig, prog := p.resumes, killed := .no, stall := if c.leaving.isEmpty then .none else .refused }
    if coreCompute k then s.modCtx x fun c => { c with v := [], rm := .rne, flags := 0#6 } else s

/-- FP_WAIT_COMPLETE: FP has reached the target, of a swap-in's acquire first; V := FP, and a start goes on to its header (R103 to
R105, R110, R312). -/
def execFpWaitComplete (k : Nat) (s : State) : Host.Outcome State Fault Refusal :=
  .next (match (s.core k).due, (s.core k).stall with
    | some t, _ => if t ≤ s.fpOf k then ((s.setView k (s.fpOf k)).renewReads k).modCore k fun c => { c with due := none } else s
    | none, .fp t after =>
      if t ≤ s.fpOf k then
        let s := s.setView k (s.fpOf k)
        match after, (s.core k).act with
        | .start off pcOff, some a => (startHeader s k a.trigger off pcOff).getD s
        | _, _ => s.modCore k fun c => { c with stall := .none, prog := { c.prog with step := 1 } }
      else s
    | none, _ => s)

end Sys2Proof.Machine
end

