-- ==== Sys2Proof/Machine/Window.lean ====
section
/-! DEFINITION. The message window of a virtual function towards the host: the device-to-host ring, MSI-X (R428, R429,
R431), and the KweLink routes that stand in for it (R433, R434). -/

namespace Sys2Proof.Machine

open Sys2Proof

/-! Rings (R428). -/

def ringLog (base : W64) : Nat := base.toNat % 16
def ringOn (base : W64) : Bool := decide (4 ≤ ringLog base)
def ringSize (base : W64) : Nat := 2 ^ ringLog base
/-- Host address of entry i of a ring. -/
def ringAt (base : W64) (i : Nat) : Nat := base.toNat / 4096 * 4096 + 128 * i
def Vf.dqFull (v : Vf) : Bool := (v.dqtail + 1) % ringSize v.dqbase == v.dqhead % ringSize v.dqbase

/-- HEAD passes an entry (R430). -/
def Vf.pass (v : Vf) : Vf := { v with hqhead := (v.hqhead + 1) % ringSize v.hqbase, taken := v.taken + 1 }

/-- An entry that came over a route is taken (R433). -/
def Vf.passLink (v : Vf) : Vf := { v with linkIn := v.linkIn.drop 1, taken := v.taken + 1, fromLink := false }

/-- Raises an MSI-X vector, the write of its data to its address, or sets the PBA bit of a masked one (R431, R406). -/
def State.raiseMsix (s : State) (v vec : Nat) : State :=
  let f := s.vf v
  if bitAt f.mask vec then s.modVf v fun f => { f with pba := f.pba ||| BitVec.ofNat 4 (2 ^ vec) }
  else (s.emit (.msix v vec (tget (0#64, 0#32) f.msix vec).1 (tget (0#64, 0#32) f.msix vec).2)).chargeHost f.part f.port 4

/-- The vector of an entry's type (R431). -/
def vectorOf (type : Nat) : Nat := if type = 0xFE then 3 else if type = 0xFF then 1 else 0

/-- The 128 bytes of a device-to-host entry (R429, R337). -/
def dqEntry (m : Msg) : List Byte :=
  let head := leBytes 4 (m.sender % 2 ^ 24) ++ [m.hdl, BitVec.ofNat 8 (m.source % 2), 0#8, 0#8] ++ leBytes 8 (stampTick m.tail)
  let pay := (List.range 4).flatMap fun i => leBytes 16 (m.payload.getD i {}).bits.toNat
  head ++ List.replicate 48 0#8 ++ pay

/-- An entry crosses KweLink, or is held while its port retrains; none where the port holds 64 KiB (R433, R434). -/
def State.postLink (s : State) (v port remote : Nat) (e : List Byte) : Option State :=
  let k := s.kport port
  if k.retrain.isSome || k.down || !k.held.isEmpty then
    (if 65536 < 128 * (k.held.length + 1) then none else some (s.modKport port fun k => { k with held := k.held ++ [(v, e)] }))
  else some (s.emit (.kwelink port remote e))

/-- Writes a message's entry, DQTAIL and the vector; none where the ring is full or disabled (R431). -/
def State.postDq (s : State) (v : Nat) (m : Msg) : Option State :=
  let f := s.vf v
  match f.route with
  | some (port, remote) => s.postLink v port remote (dqEntry m)
  | none =>
    if !ringOn f.dqbase || f.dqFull then none
    else
      let at_ := ringAt f.dqbase (f.dqtail % ringSize f.dqbase)
      let s := { s with host := twrite s.host at_ 128 (leNat (dqEntry m)) }.chargeHost f.part f.port 64
      some ((s.modVf v fun f => { f with dqtail := (f.dqtail + 1) % ringSize f.dqbase }).raiseMsix v (vectorOf m.hdl.toNat))

/-- The window a message to the host reaches: its own for an error entry, else that of its region's root (R403). -/
def State.windowOf (s : State) (m : Msg) : Option Nat := match m.kind with | .host _ => some m.vf | _ => s.vfOf m.region

/-! Messages that wait at their sender (R455). -/

/-- A message is on the fabric from source src. -/
def State.inFlight (s : State) (src : Nat) : Bool := s.flight.any fun e => e.2.any fun m => m.source == src

/-- A message has been taken: it leaves the fabric, and its sender's next one follows; the release completes with the last
(R455). A host entry is passed by HEAD (R430). -/
def State.tookMsg (s : State) (id : Nat) (m : Msg) : State :=
  let s := { s with flight := tput none id none s.flight }
  if m.source < noCore then
    let s := s.modCore m.source fun c => { c with leaving := c.leaving.drop 1 }
    if (s.core m.source).leaving.isEmpty then
      s.modCore m.source fun c => { c with stall := if c.stall = Stall.refused then .none else c.stall }
    else s.sendHead m.source
  else match m.kind with
  | .host _ =>
    if m.toHost then s
    else (s.modVf m.vf fun f => if f.fromLink then f.passLink else f.pass).post (.hqEntryTake m.vf)
  | _ => s

/-- A message its destination cannot take: a core's returns to its NI, any other waits where it is (R455). -/
def State.refuseMsg (s : State) (id : Nat) (m : Msg) : State :=
  if m.source < noCore then { s with flight := tput none id none s.flight } else s

/-- The arrival event of a message. -/
def arrivalOf (id : Nat) (m : Msg) : Instr := match m.kind with | .arrive _ => .barrierArrival id | _ => .messageArrival id

/-- Offers every waiting message again: refused ones of cores, and those of no core that are still on the fabric (R455). -/
def State.reofferAll (s : State) : State :=
  let s := s.cores.foldl (fun s e => if e.2.leaving.isEmpty then s else s.post (.messageReoffer e.1)) s
  s.flight.foldl (fun s e => match e.2 with
    | some m => if m.source < noCore then s else s.post (arrivalOf e.1 m)
    | none => s) s

/-- MESSAGE_REOFFER: the NI offers its first refused message again, once its context is resident (R455). -/
def execMessageReoffer (k : Nat) (s : State) : Host.Outcome State Fault Refusal :=
  .next (if s.inFlight k || (s.ctx (coreCtx k)).st != 1 then s else s.sendHead k)

end Sys2Proof.Machine
end

