-- ==== Sys2Proof/Machine/Net.lean ====
section
/-! DEFINITION. Messages at their destination: arrival, parking and tile faults (R315, R369 to R371), aging (R317), remote
barrier arrivals (R351), and the NI translation cache (R364). -/

namespace Sys2Proof.Machine

open Sys2Proof

/-- Parks an arriving message, a tile fault where its target is not resident; none where the lodge is full (R369 to R371). -/
def State.parkArrival (s : State) (x : Nat) (m : Msg) : Option State :=
  let c := s.ctx x
  if lodgeRoom ≤ c.lodge.length then none
  else
    let s := s.park x m
    some (if c.st == 1 then s else
      s.modPart (s.ctxPart x) fun p => { p with ctr := { p.ctr with tileFaults := p.ctr.tileFaults + 1 } })

/-- A message that reaches context x takes a place, or parks (R315, R369). A target that is no region's any more has no one
to take it. -/
def State.arriveAt (s : State) (x : Nat) (m : Msg) : Option State :=
  let c := s.ctx x
  let g := s.region (ctxRegion x)
  if !g.launched || g.st == 3 then some s
  else if c.st != 1 || !c.lodge.isEmpty then s.parkArrival x m
  else match m.kind with
    | .arrive b => some (s.modBar x b fun t => t.arrive m.tail)
    | _ =>
      if 32 ≤ c.places.length then s.parkArrival x m
      else match s.classOf (ctxRegion x) m with
        | (some (cls, k), s) => some (s.putPlace x m cls k)
        | (none, s) => (s.parkArrival x { m with told := true }).map fun s => s.missing x m

/-- One arrival. A viral cluster's NIs let nothing out (R394). -/
def State.arrival (s : State) (id : Nat) : State :=
  match tget none s.flight id with
  | none => s
  | some m =>
    let m := { m with arrival := s.tick }
    let took : Option State :=
      if m.toHost then match s.windowOf m with
        | some v => s.postDq v m
        | none => some s
      else (if noCore ≤ m.source then s else s.cacheEntry (coreCtx m.source) (ctxKey m.region m.target)).arriveAt (ctxKey m.region m.target) m
    match took with
    | some s => s.tookMsg id m
    | none => s.refuseMsg id m

/-- MESSAGE_ARRIVAL (R315). -/
def execMessageArrival (id : Nat) (s : State) : Host.Outcome State Fault Refusal := .next (s.arrival id)

/-- BARRIER_ARRIVAL (R351). -/
def execBarrierArrival (id : Nat) (s : State) : Host.Outcome State Fault Refusal := .next (s.arrival id)

/-- A place after aging: it moves up one class for each AGE it has waited there (R317). -/
def Place.aged (p : Place) (tick age : Nat) : Place :=
  if p.cls < 3 && age != 0 && decide (p.since + age ≤ tick) then { p with cls := p.cls + 1, since := p.since + age } else p

/-- MESSAGE_AGING (R317). -/
def execMessageAging (ctx : Nat) (s : State) : Host.Outcome State Fault Refusal :=
  let age := (s.inh 9 (ctxRegion ctx)).age
  .next (s.modCtx ctx fun c => { c with places := c.places.map fun p => p.aged s.tick age })

end Sys2Proof.Machine
end

