-- ==== Sys2Proof/Machine/Region.lean ====
section
/-! DEFINITION. Region control blocks (R323, R341), gangs (R365), and the launch of a region. -/

namespace Sys2Proof.Machine

open Sys2Proof

/-! Control blocks (R323). -/

/-- n bytes at offset o of a block read as a number. -/
def blkField (x o n : Nat) : Nat := x / 256 ^ o % 256 ^ n

/-- A block read from its 256 bytes, with the tag of its CODE granule and its gang list. -/
def parseBlock (va x : Nat) (tag : Bool) (gangs : List (Nat × Nat)) : Block :=
  { va := va, ovr := blkField x 8 2, prio := blkField x 10 1 % 16, flags := blkField x 11 1, weight := blkField x 12 2
    quota := blkField x 14 2, opsRate := blkField x 16 8, occRate := blkField x 32 8, refill := blkField x 48 8
    trailsz := blkField x 56 1, gangpol := blkField x 57 1, horizon := blkField x 64 8, age := blkField x 72 8
    watchdog := blkField x 80 8, faulth := blkField x 88 4, code := { bits := BitVec.ofNat 128 (blkField x 96 16), tag := tag }
    htab := blkField x 112 8, runq := blkField x 120 8, rqcap := blkField x 128 4
    width := blkField x 132 4 % 4096 + 1, height := blkField x 132 4 / 65536 % 4096 + 1, gangs := gangs }

/-- Tokens of the two buckets, signed (R323). -/
def blkTok (x o : Nat) : Int := decodeInt 64 true (blkField x o 8)

/-- A reserved byte or bit of a block is set (R323). -/
def blkReserved (x : Nat) : Bool :=
  blkField x 8 2 / 4096 != 0 || blkField x 10 1 / 16 != 0 || blkField x 11 1 / 8 != 0 || blkField x 58 6 != 0 || blkField x 92 4 != 0 ||
    blkField x 132 4 / 4096 % 16 != 0 || blkField x 132 4 / 2 ^ 28 != 0 || blkField x 137 7 != 0 || blkField x 154 102 != 0

/-- Every OVR bit: a root region's (R323). -/
def allOvr : Nat := 0xFFF

/-- A field the block sets is out of its range; a root sets every field (R323, R341). -/
def blkRange (x : Nat) (root : Bool) : Bool :=
  let ovr (b : Nat) : Bool := root || blkField x 8 2 / 2 ^ b % 2 == 1
  let w := blkField x 12 2
  let t := blkField x 56 1
  (ovr 2 && (w == 0 || decide (16 < w))) || (ovr 6 && (decide (t < 16) || decide (22 < t))) ||
    ((ovr 4 || ovr 5) && decide (blkField x 48 8 < 2700))

/-- The gang list's entries from its bytes (R51). -/
def gangList (x : Nat) : Nat → List (Nat × Nat)
  | 0 => []
  | n + 1 => (x % 2 ^ 32, x / 2 ^ 32 % 2 ^ 32) :: gangList (x / 2 ^ 64) n

/-- Entries past the grid, or overlapping (R323). -/
def gangsBad (grid : Nat) : List (Nat × Nat) → Bool
  | [] => false
  | g :: gs => decide (grid < g.1 + g.2) || gs.any (fun h => decide (g.1 < h.1 + h.2) && decide (h.1 < g.1 + g.2)) || gangsBad grid gs

/-- What a template's check needs beside its bytes. -/
structure BlockRead where
  x : Nat
  tag : Bool
  gangs : List (Nat × Nat)
  entry : HEntry

/-- The refusal r of R341, 0 where none applies; depth counts the ancestors it would have, none for a root. -/
def refusedBlock (b : BlockRead) (depth : Nat) : Nat :=
  let k : CReg := { bits := BitVec.ofNat 128 (blkField b.x 96 16), tag := b.tag }
  let grid := (blkField b.x 132 4 % 4096 + 1) * (blkField b.x 132 4 / 65536 % 4096 + 1)
  if blkField b.x 0 8 != 0 then 1
  else if blkReserved b.x || blkRange b.x (depth == 0) || gangsBad grid b.gangs then 2
  else if !k.tag || !k.permX then 3
  else if 8 ≤ depth then 4
  else if !b.entry.valid then 5
  else 0

/-- The region of a block, with its buckets as the block gives them; a root sets every OVR bit (R323, R325). -/
def newRegion (s : State) (p : Nat) (parent : Option Nat) (va : Nat) (b : BlockRead) : Region :=
  let k := parseBlock va b.x b.tag b.gangs
  { launched := true, part := p, parent := parent, blk := if parent.isNone then { k with ovr := allOvr } else k, launch := s.tick
    opsTok := blkTok b.x 24, occTok := blkTok b.x 40, watch := s.tick, firstDue := true }

/-- The live region of a partition whose block lies at va. -/
def State.regionAt (s : State) (p va : Nat) : Option Nat :=
  (s.regions.find? fun e => e.2.launched && e.2.part == p && e.2.blk.va == va && e.2.st != 3).map (·.1)

/-! Gangs (R365). -/

/-- Pool sites of a region's share. -/
def State.shareSites (s : State) (r : Nat) : List Nat := (s.shareOf r).flatMap fun c => (clusterSites c).filter s.good

/-- F, the region's free pool size (R365). -/
def State.poolSize (s : State) (r : Nat) : Nat :=
  let f := min (s.shareSites r).length (s.inh 3 r).quota
  if s.duplex r then f / 2 else f

/-- The gang of a virtual id: its ids in ascending order. -/
def State.gangOf (s : State) (r vt : Nat) : List Nat :=
  let f := (s.region r).pool
  let gs := (s.region r).blk.gangs
  let inside (g : Nat × Nat) (i : Nat) : Bool := decide (g.1 ≤ i) && decide (i < g.1 + g.2)
  if f = 0 then []
  else match gs.find? fun g => inside g vt with
    | some g =>
      let lo := g.1 + (vt - g.1) / f * f
      (List.range (min f (g.1 + g.2 - lo))).map (lo + ·)
    | none =>
      let lo := vt / f * f
      ((List.range (min f (s.gridSize r - lo))).map (lo + ·)).filter fun i => !gs.any fun g => inside g i

/-- The first ids of a region's gangs, ascending; fuel bounds the ids. -/
def State.gangsFrom (s : State) (r : Nat) : (fuel vt : Nat) → List Nat
  | 0, _ => []
  | n + 1, vt =>
    if s.gridSize r ≤ vt then []
    else
      let g := s.gangOf r vt
      if g.head? == some vt then vt :: s.gangsFrom r n (vt + 1) else s.gangsFrom r n (vt + 1)
def State.gangs (s : State) (r : Nat) : List Nat := s.gangsFrom r (s.gridSize r) 0

end Sys2Proof.Machine
end

