-- ==== Sys2Proof/Machine/Task.lean ====
section
/-! DEFINITION. Messages, tasks and the ends of activations, major 0x34 (R334 to R343), with the help a waiting LAUNCH gives
(R326). -/

namespace Sys2Proof.Machine

open Sys2Proof

/-! SEND, SENDH, SPAWN (R335 to R337). -/

/-- Holds a message for the core's next release (R336). -/
def State.holdMsg (s : State) (m : Msg) : State := s.modMy fun c => { c with held := c.held ++ [m] }

/-- The checkpoint of a release of all registers at the instruction itself. -/
def State.ckptHere (s : State) : Checkpoint := s.mkCkpt s.my.pc (2 ^ 32 - 1) s.my.sig

/-- Holds m, after a release where 16 are held already; then next (R336). -/
def holdThen (s : State) (m : Msg) (next : State → Act) : Act :=
  if 16 ≤ s.my.held.length && s.my.prog.rel.isNone then withRelease s (some s.ckptHere) fun s _ => next (s.holdMsg m)
  else next (s.holdMsg m)

/-- The step of SEND.REL after its message is held (log entry 13). -/
def sendHeldStep : Nat := 5

/-- IssueMessage (R336). toHost lets the target name the host; regs are the registers read. A handle is checked once, before a release; the
release of SEND.REL that cannot begin waits at an instruction boundary (R106). -/
def issueMessage (toHost rel : Bool) (a : Reg) (hdl : Byte) (h : Option Reg) (kind : MsgKind) (regs : List Reg) (s : State) :
    Host.Outcome State Fault Refusal :=
  let i : Issue := { len := 12, cr := a :: regs, waitAll := true }
  issue i (fun s =>
    let after (s : State) : Act :=
      let waits (w : Bool) (s : State) : State := s.modMy fun c => { c with prog := { c.prog with waits := w } }
      match withRelease (waits false s) (some (s.mkCkpt (s.my.pc + 12) 0 (s.sigNext i (s.my.pc + 12)))) fun s _ => (s, .retire) with
      | (s, .stay) => (waits true s, .stay)
      | r => r
    let t := (s.rd a).toNat % 2 ^ 24
    let host := toHost && t == 0xFFFFFF
    if s.my.prog.step = sendHeldStep then after s
    else if !host && (t == 0xFFFFFF || decide (s.gridSize s.myRegion ≤ t)) then trapHandle s 0 7 0
    else
      let go (_ : Unit) : Act :=
        let m : Msg := { region := if host then s.rootOf s.myRegion else s.myRegion, target := t, hdl := hdl, kind := kind
                         source := s.myKey, sender := ctxVt s.me, payload := regs.map s.rc, toHost := host }
        holdThen s m fun s =>
          if rel then after (s.modMy fun c => { c with prog := { c.prog with rel := none, compared := false, step := sendHeldStep } }) else (s, .retire)
      match h with
      | some h => if s.my.prog.rel.isSome then go () else withHandle s h true 0 go
      | none => go ()) s

/-- Registers b, b + 1, …, n of them. -/
def regRange (b : Reg) (n : Nat) : List Reg := (List.range n).map fun i => b + BitVec.ofNat 5 i

/-- SEND (R334, R337). -/
def execSend (rel : Bool) (a b : Reg) (hdl : Byte) (npay : BitVec 3) (s : State) : Host.Outcome State Fault Refusal :=
  issueMessage true rel a hdl none .send (regRange b npay.toNat) s

/-- SENDH (R334, R337). -/
def execSendh (rel : Bool) (a b : Reg) (hdl : Byte) (npay : BitVec 3) (h : Reg) (s : State) : Host.Outcome State Fault Refusal :=
  issueMessage false rel a hdl (some h) (.sendh h.toNat) (regRange b npay.toNat) s

/-- SPAWN (R334, R337). -/
def execSpawn (a b : Reg) (hdl : Byte) (nreg : BitVec 6) (s : State) : Host.Outcome State Fault Refusal :=
  issueMessage false false a hdl none (.spawn b.toNat) (regRange b nreg.toNat) s

/-! FORK (R339). -/

/-- The step of a FORK whose spill waits: its value counts the records still to move (log entry 13). -/
def spillStep : Nat := 11

/-- The spill of a FORK that finds its deque full, or goes on with one (R320, R339). -/
def forkSpill (s : State) : Spilled :=
  if s.my.prog.step = spillStep then s.spill s.me s.my.prog.value
  else if (s.ctx s.me).deque.length < 512 then .done s
  else s.spill s.me 256

/-- FORK, JOIN are one act from their release's first commit (R339, R340). -/
def State.inOneAct (s : State) : State := s.modMy fun c => { c with prog := { c.prog with act := true } }

/-- FORK (R339). -/
def execFork (a b : Reg) (off : W32) (nreg : BitVec 3) (s : State) : Host.Outcome State Fault Refusal :=
  let i : Issue := { len := 12, cr := a :: regRange b nreg.toNat, waitAll := true }
  issue i (fun s =>
    match s.my.act with
    | none => (s, .trap .illegal 0 0)
    | some h =>
      let n := nreg.toNat
      let target := branchTo s.my.pc off
      let c := s.rc a
      if b.toNat != firstOf h.mask.toNat || target < h.code || h.code + h.codeLen ≤ target then (s, .trap .illegal 0 0)
      else if a != 0#5 && decide (31 < b.toNat + n) then (s, .trap .illegal 0 0)
      else if a != 0#5 && !c.tag then (s, .trap .capTag c.addr 0)
      else
        match forkSpill s with
        | .wait n s => (s.modMy fun c => { c with prog := { c.prog with step := spillStep, value := n, waits := true } }, .stay)
        | .abort c va info s => (s, .abort c va info)
        | .done s =>
          let next := s.my.pc + 12
          let s := s.modMy fun c => { c with prog := { c.prog with step := 0, value := 0, waits := false } }
          withRelease s.inOneAct (some (s.mkCkpt next (2 ^ 32 - 1) (s.sigNext i next))) fun s _ =>
            (s.dequePush s.me
              { hdr := h.hdr / 64, pcw := (target - h.code) / 4, join := if a = 0#5 then none else some (s.rc a)
                regs := (regRange b n).map s.rc, tailTick := stampTick s.my.tail, compute := s.focus.compute }, .retire)) s

/-! Ends of activations (R342). -/

/-- The activation of the focus core ends (R342). -/
def State.endAct (s : State) (help : Bool) : State :=
  let s := s.retireTrigger s.myKey
  let s := s.modRegion s.myRegion fun g => { g with watch := s.tick }
  s.modMy fun c =>
    { c with
      act := none, ckpt := none, prog := {}, pastStep3 := false, horizonBit := false, pressureBit := false, autorelBit := false
      helping := c.helping || help, assists := false, killed := .no, killLater := none }

/-- The core holds no activation, or has passed step 3 of a HALT (R342). -/
def Core.over (c : Core) : Bool := (c.act.isNone && c.aside.isNone) || c.pastStep3

/-- Entries of the scoreboards that cover handles of a context (R154). -/
def State.ctxEntries (s : State) (x : Nat) : List Entry :=
  ((s.tile (s.ctx x).site).entries ++ (s.tile (twin (s.ctx x).site)).entries).filter fun e => e.ctx == x

/-- Frees every handle whose RETAIN is 0 (R154). -/
def State.freeUnretained (s : State) (x : Nat) : State :=
  (List.range 32).foldl (fun s h =>
    let t := s.handle x h
    if t.st != 0 && !t.retain then s.freeHandle x h else s) s

/-- HALT from its second step on (R342, R154, R294). -/
def haltRest (s : State) (help : Bool) : Act :=
  let x := s.me
  let other := s.core (coreKey x (!s.focus.compute))
  let s := s.modMy fun c => { c with prog := { c.prog with waits := true } }
  if !(s.ctx x).queues.all (fun q => q.cmds.isEmpty) then (s, .stay)
  else if s.my.pastStep3 || !other.over || s.my.aside.isSome then (s.endAct help, .done)
  else if !(s.ctx x).cmds.isEmpty || !(s.ctxEntries x).isEmpty ||
      (List.range 32).any (fun h => (s.handle x h).st == 2 && !(s.handle x h).retain && s.remoteReaders x h) then (s, .stay)
  else
    let s := (s.licRelease (s.ctx x).site (s.ctx x).slot).freeUnretained x
    ((s.modMy fun c => { c with pastStep3 := true }).endAct help, .done)

/-- HALT (R342). -/
def execHalt (s : State) : Host.Outcome State Fault Refusal :=
  issue { ender := true, waitAll := true } (fun s =>
    if s.my.prog.step = 5 then haltRest s false
    else withRelease s (some (s.mkCkpt s.my.pc 0 s.my.sig)) fun s _ =>
      haltRest (s.modMy fun c => { c with prog := { c.prog with step := 5 } }) false) s

/-- YIELD (R343). -/
def execYield (s : State) : Host.Outcome State Fault Refusal :=
  issue { ender := true, waitAll := true } (fun s =>
    ((s.modTile s.focus.site fun t => { t with yielded := true }).post (.sliceEnd s.focus.site), .retire)) s

/-! JOIN (R340). -/

/-- The steps of JOIN once its reply is there: old value 0, 1, or more (log entry 13). -/
def joinZero : Nat := 6
def joinLast : Nat := 7
def joinMore : Nat := 8

/-- JOIN (R340). -/
def execJoin (a b : Reg) (s : State) : Host.Outcome State Fault Refusal :=
  issue { ender := true, cr := [a, b], waitAll := true } (fun s =>
    let st := s.my.prog.step
    let c := s.rc a
    if st = 1 then
      let next := s.my.pc + 4
      (s.modMy fun c => { c with ckpt := c.ckpt.map fun (p : Checkpoint) => { p with pc := next, sig := s.sigAt next, arrived := none } }, .retire)
    else if st = joinZero then (s, .trap .software 0 0x400)
    else if st = joinLast then waitFp s s.my.prog.value .retire
    else if st = joinMore then haltRest s true
    else match checkCap c c.addr 8 8 { l := true, s := true } with
      | some e => trapEa s e c.addr
      | none =>
        withRelease s.inOneAct (some (s.mkCkpt s.my.pc ((s.rd b).toNat % 2 ^ 32) s.my.sig)) fun s carried =>
          match s.freeSlot with
          | none => (s, .stay)
          | some i =>
            let k := s.myKey
            let q : Req := { kind := .atomic 0#5 12 8 0 0 carried, v := s.my.view, va := c.addr, want := [], pc := s.my.pc,
                             word := s.word0 }
            (((s.noteAtom c.addr 0 0 12).modMy fun c => { c with reqs := tput none i (some q) c.reqs, stall := .reply i }).askEngine k i c.addr
              (clusterOf s.focus.site), .done)) s

/-! LAUNCH (R341). -/

/-- A 16-byte granule with its tag as the core reads it (R124). -/
def readCapOwn (s : State) (va : Nat) : Gathered × State :=
  match s.my.forwardEntry (va / 16), readOwn s va 16 with
  | some e, (.ok x _, s) => (.ok x (e.tag && e.mask == BitVec.allOnes 16), s)
  | _, r => r

/-- The gang list and the entry HDL of a template that its own bytes do not refuse; a list that cannot be read leaves a refusal the
bytes decide (R323, R341). -/
def readLists (s : State) (b : BlockRead) (hdl : Byte) (depth : Nat) : Fetched1 BlockRead × State :=
  let n := blkField b.x 152 4 % 65536
  let p := s.corePart s.myKey
  let r0 := refusedBlock b depth
  if r0 = 1 || r0 = 2 then (.ok b, s)
  else
    let g := readNewest s p s.myRegion (.core s.myKey) (blkField b.x 144 8) (8 * n)
    match fetched1 .load (fun y => gangList y n) g.1 with
    | .abort c a i => (if r0 = 0 then .abort c a i else .ok b, g.2)
    | .wait => (if r0 = 0 then .wait else .ok b, g.2)
    | .ok gs =>
      let b := { b with gangs := gs }
      if refusedBlock b depth != 0 then (.ok b, g.2)
      else
        let e := readNewest g.2 p s.myRegion (.core s.myKey) (blkField b.x 112 8 + 16 * hdl.toNat) 16
        match fetched1 .load parseEntry e.1 with
        | .abort c a i => (.abort c a i, e.2)
        | .wait => (.wait, e.2)
        | .ok h => (.ok { b with entry := h }, e.2)

/-- Everything LAUNCH reads: the template at V, its CODE tag, and what readLists adds (R341). -/
def readTemplate (s : State) (va : Nat) (hdl : Byte) (depth : Nat) : Fetched1 BlockRead × State :=
  match readOwn s va 256 with
  | (.abort c a i, s) => (.abort c a i, s)
  | (.wait, s) => (.wait, s)
  | (.ok x _, s) => match readCapOwn s (va + 96) with
    | (.abort c a i, s) => (.abort c a i, s)
    | (.wait, s) => (.wait, s)
    | (.ok _ tag, s) => readLists s { x := x, tag := tag, gangs := [], entry := { off := 0, valid := true, compute := false, cls := 0 } } hdl depth

/-- The child's handler header, whose ENTRY its record names (R341). -/
def childHeader (s : State) (b : BlockRead) : Fetched1 Header × State :=
  readHeader s s.myRegion { bits := BitVec.ofNat 128 (blkField b.x 96 16), tag := b.tag } b.entry.off s.my.view

/-- The act of LAUNCH: PARENT and STATE are written as atomics, the region is made and its entry's record queued; a fault of one of
these leaves all undone (R341). -/
def launchChild (s : State) (va : Nat) (b : BlockRead) (h : Header) (regs : List CReg) (after : Sig) : Act :=
  let p := s.corePart s.myKey
  let r := s.myRegion
  let w (s : State) (a n x : Nat) : Option ReqEnd × State := engineAct s (s.engineOf p a) p r a n (fun _ => some x) 0 (.core s.myKey)
  let id := s.seq
  let next := s.my.pc + 12
  let rec_ : ContRec := { hdr := b.entry.off / 64, pcw := h.entry / 4, join := none, regs := regs,
                          tailTick := stampTick s.my.tail, compute := b.entry.compute }
  let made (s : State) : State :=
    let s := s.bump.modRegion id fun _ => newRegion s p (some r) va b
    s.modRegion id fun g => { g with pool := s.poolSize id }
  match w s va 8 (s.region r).blk.va with
  | (some (.value _ _ _), s1) => match w s1 (va + 136) 1 0 with
    | (some (.value _ _ _), s2) => match (made s2).ringPush id rec_.image with
      | (some (.value _ _ _), s3) =>
        (s3.modMy fun c => { c with ckpt := c.ckpt.map fun (k : Checkpoint) => { k with pc := next, sig := after } }, .retire)
      | (some (.abort c a i), _) => (s, .abort (abortCause c) a i)
      | (_, s3) => (s3, .stay)
    | (some (.abort c a i), _) => (s, .abort (abortCause c) a i)
    | (_, s2) => (s2, .stay)
  | (some (.abort c a i), s1) => (s1, .abort (abortCause c) a i)
  | (_, s1) => (s1, .stay)

/-- LAUNCH (R341). -/
def execLaunch (a b : Reg) (hdl : Byte) (s : State) : Host.Outcome State Fault Refusal :=
  let regs := regRange b 6
  let i : Issue := { len := 12, cr := a :: regs, waitAll := true }
  issue i (fun s =>
    let c := s.rc a
    if 26 < b.toNat then (s, .trap .illegal 0 0)
    else match checkCap c c.addr 256 256 { l := true, s := true } with
      | some e => trapEa s e c.addr
      | none => withRelease s (some s.ckptHere) fun s _ =>
        let depth := (s.ancestors s.myRegion).length
        match readTemplate s c.addr hdl depth with
        | (.abort e va info, s) => (s, .abort e va info)
        | (.wait, s) => (s, .stay)
        | (.ok t, s) =>
          let r := refusedBlock t depth
          if r != 0 then (s, .trap .software 0 (0x410 + r))
          else
            let ring := blkField t.x 120 8
            let cap := blkField t.x 128 4
            if !s.ringRoom (s.corePart s.myKey) ring cap then
              (s.modMy fun c => { c with stall := .launch (s.edgesAt s.focus.site) cap ring }, .done)
            else match childHeader s t with
              | (.abort e va info, s) => (s, .abort e va info)
              | (.wait, s) => (s, .stay)
              | (.ok h, s) =>
                launchChild s c.addr t h (regs.map s.rc) (s.sigNext i (s.my.pc + 12))) s

/-- LAUNCH_HELP_START: room lets the LAUNCH go on; after 256 cycles without it the core releases, sets its activation aside
and helps, unless it helps already (R326). -/
def execLaunchHelpStart (k : Nat) (s : State) : Host.Outcome State Fault Refusal :=
  .next (match (s.core k).stall with
    | .launch since cap ring =>
      let c := s.core k
      if s.ringRoom (s.corePart k) ring cap then s.modCore k fun c => { c with stall := .none }
      else if s.edgesAt (s.ctx (coreCtx k)).site < since + 256 || c.aside.isSome || c.assists then s
      else match c.act with
        | some a =>
          let p : Checkpoint := { pc := c.pc, regs := c.c, sig := c.sig }
          (s.finishRelease k (some p)).modCore k fun c =>
            { c with
              act := none, ckpt := none, prog := {}, helping := true, aside := some { act := a, ckpt := p, cap := cap, ring := ring }
              stall := if c.leaving.isEmpty then .none else .refused }
        | none => s
    | _ => s)

/-- LAUNCH_HELP_RESUME: the queue has room and the core is free and awake; the activation set aside goes on from its checkpoint, with the banks of its own
registers powered (R203, R326). -/
def execLaunchHelpResume (k : Nat) (s : State) : Host.Outcome State Fault Refusal :=
  .next (match (s.core k).aside, (s.core k).act with
    | some d, none =>
      if s.ringRoom (s.corePart k) d.ring d.cap then
        let s := (s.startWatch (ctxRegion (coreCtx k))).modCore k fun c => { c with act := some d.act, ckpt := some d.ckpt, aside := none, assists := false }
        let s := if coreCompute k then powerBanks s (coreCtx k) d.act.vregs else s
        (s.restartCore k).modMcore (s.coreId k) fun m => { m with asleep := false }
      else s
    | _, _ => s)

end Sys2Proof.Machine
end

