-- ==== Sys2Proof/Machine/Duplex.lean ====
section
/-! DEFINITION. Duplex regions (R391 to R393): the comparison of digests and what follows it. -/

namespace Sys2Proof.Machine

open Sys2Proof

/-- What a comparison comes to (R393). -/
inductive Compared where
  | publish | again | mismatch
  deriving DecidableEq, Repr

/-- Two digests publish when equal, a third when it matches either. -/
def compareDigests : List W64 → Compared
  | [a, b] => if a = b then .publish else .again
  | [a, b, c] => if c = a ∨ c = b then .publish else .mismatch
  | _ => .publish

/-- All three runs differ: nothing is published, an unreleased trigger goes back, and the region is faulted with the
primary's digest (R393). -/
def State.duplexFault (s : State) (k : Nat) : State :=
  let x := coreCtx k
  let d := ((s.core k).digests.headD 0#64).toNat
  let s := s.kill k .held
  let s := match (s.core k).act with
    | some a => match a.released, a.trigger with
      | false, .message m =>
        (s.modCore k fun c => { c with act := none, ckpt := none, killed := .no }).modCtx x fun c =>
          { c with lodge := m :: c.lodge, oldest := m.arrival }
      | _, _ => s
    | none => s
  (s.modCore k fun c => { c with digests := [] }).faultRegion k Cause.duplex.code 0 d

/-- The outcome of the digests core k holds; none is leave to publish. Both stay for the third run, which a kill of its own starts
anew (R393, R388). -/
def State.duplexSettle (s : State) (k : Nat) : Option State :=
  match compareDigests (s.core k).digests with
  | .publish => none
  | .again => some ((s.kill k .ready).modCore k fun c => { c with digests := (s.core k).digests })
  | .mismatch => some (s.duplexFault k)

/-- DUPLEX_COMPARE of one core. -/
def State.duplexCompare (s : State) (k : Nat) : State :=
  if (s.core k).stall = Stall.duplex then
    let s := s.modCore k fun c => { c with stall := .none }
    (s.duplexSettle k).getD (s.modCore k fun c => { c with prog := { c.prog with compared := true } })
  else s

/-- DUPLEX_COMPARE (R393). -/
def execDuplexCompare (ctx : Nat) (s : State) : Host.Outcome State Fault Refusal :=
  .next ((s.duplexCompare (coreKey ctx false)).duplexCompare (coreKey ctx true))

end Sys2Proof.Machine
end

