-- ==== Sys2Proof/Machine/System.lean ====
section
/-! DEFINITION. Majors 0x35 (R344 to R348), 0x38 (R349 to R353), 0x39 (R354, R355) and 0x3A (R213 to R216, R356 to R360),
with the queues (R208) and the twin window (R210). -/

namespace Sys2Proof.Machine

open Sys2Proof

/-! Handler table and identity: major 0x35. -/

/-- The status of SETHDL for a header (R345). -/
def headerStatus (h : Header) (code : CReg) (va : Nat) : Nat :=
  if h.magic != 0x4B48 || h.ver != 1 then 1
  else if h.rsv || decide (32 < h.vregs) || decide (32 < h.handles) then 2
  else if !h.compute && h.vregs != 0 then 3
  else if decide (code.top < va + 64 + h.codeLen) || (h.sigCount != 0 && decide (code.top < va + h.sigOff + 8 * h.sigCount)) then 4
  else 0

/-- Writes a handler entry as one act at its home engine; the lodges try their heads again (R345, R387). -/
def writeEntry (s : State) (d : Reg) (n x : Nat) : Act :=
  let r := s.myRegion
  let p := (s.region r).part
  let va := (s.region r).blk.htab + 16 * n
  match engineAct s (s.engineOf p va) p r va 16 (fun _ => some x) 0 (.core s.myKey) with
  | (some (.value _ _ _), s) =>
    let s := s.ctxs.foldl (fun s e => if ctxRegion e.1 == r && e.2.st == 1 && !e.2.lodge.isEmpty then s.post (.lodgeDrain e.1) else s) s
    retireWith s d 0#64
  | (some (.abort c a i), s) => (s, .abort (if c = Cause.uncorrectable.code then .uncorrectable else .pageFault) a i)
  | (_, s) => (s, .stay)

/-- SETHDL (R345). -/
def execSethdl (d a b : Reg) (s : State) : Host.Outcome State Fault Refusal :=
  issue { mon := true, cr := [d, a, b] } (fun s =>
    let x := (s.rd b).toNat
    let n := x % 256
    let c := s.rc a
    if x / 2 ^ 11 != 0 then retireWith s d 5#64
    else if x / 2 ^ 10 % 2 = 0 then writeEntry s d n 0
    else match checkCap c c.addr 64 64 { x := true } with
      | some e => trapEa s e c.addr
      | none =>
        let q := readMem s (s.region s.myRegion).part s.myRegion .fetch (some s.my.view) .device 2 c.addr 64
        match fetched1 .fetch parseHeader q.1 with
        | .abort e va info => (q.2, .abort e va info)
        | .wait => (q.2, .stay)
        | .ok h =>
          let code := q.2.codeCap
          let st := headerStatus h code c.addr
          if st != 0 then retireWith q.2 d (BitVec.ofNat 64 st)
          else writeEntry q.2 d n ((c.addr + 2 ^ 32 - code.base % 2 ^ 32) % 2 ^ 32 + 2 ^ 32 + bit01 h.compute * 2 ^ 33 + x / 2 ^ 8 % 4 * 2 ^ 34)) s

/-- GETHDL (R346). -/
def execGethdl (d b : Reg) (s : State) : Host.Outcome State Fault Refusal :=
  issue { mon := true, cr := [d, b] } (fun s =>
    let r := s.myRegion
    let q := readNewest s (s.region r).part r (.core s.myKey) ((s.region r).blk.htab + 16 * ((s.rd b).toNat % 256)) 8
    match fetched1 .load id q.1 with
    | .ok x => retireWith q.2 d (BitVec.ofNat 64 x)
    | .abort c va info => (q.2, .abort c va info)
    | .wait => (q.2, .stay)) s

/-- MYID (R347). -/
def execMyid (d : Reg) (s : State) : Host.Outcome State Fault Refusal :=
  issue { mon := true, cr := [d] } (fun s =>
    let place := if s.monitor then s.focus.site * 2 ^ 34 + s.mySlot * 2 ^ 48 else 0
    retireWith s d (BitVec.ofNat 64 (ctxVt s.me + bit01 s.focus.compute * 2 ^ 24 + place))) s

/-- The figures of GRIDQ (R347). -/
def gridFigure (s : State) (sel : Nat) : Nat :=
  let b := (s.region s.myRegion).blk
  let vt := ctxVt s.me
  match sel with
  | 0 => b.width
  | 1 => b.height
  | 2 => vt % b.width
  | 3 => vt / b.width
  | 4 => (s.gangOf s.myRegion vt).headD 0
  | 5 => (s.gangOf s.myRegion vt).length
  | _ => s.prio s.myRegion

/-- GRIDQ (R347). -/
def execGridq (d : Reg) (sel : BitVec 3) (s : State) : Host.Outcome State Fault Refusal :=
  issue { mon := true, cr := [d] } (fun s => retireWith s d (BitVec.ofNat 64 (gridFigure s sel.toNat))) s

/-- GANGHINT (R348, R382). -/
def execGanghint (a : Reg) (s : State) : Host.Outcome State Fault Refusal :=
  issue { mon := true, cr := [a] } (fun s =>
    let t := (s.rd a).toNat % 2 ^ 24
    if s.monitor || decide (s.gridSize s.myRegion ≤ t) then (s, .retire)
    else (s.modRegion s.myRegion fun g => { g with hints := g.hints ++ [t] }, .retire)) s

/-! Barriers, semaphores and queue status: major 0x38. -/

/-- BARINIT (R351). -/
def execBarinit (n : BitVec 6) (a : Reg) (s : State) : Host.Outcome State Fault Refusal :=
  issue { cr := [a] } (fun s =>
    let x := (s.rd a).toNat
    if 65535 < x then (s, .trap .illegal 0 0) else (s.modBar s.me n.toNat fun b => b.init x, .retire)) s

/-- BARARR (R351): at once at the own barrier, or held as a message is. -/
def execBararr (n : BitVec 6) (a : Reg) (s : State) : Host.Outcome State Fault Refusal :=
  issue { cr := [a], waitAll := decide (a ≠ 0#5) } (fun s =>
    if a = 0#5 then (s.modBar s.me n.toNat fun b => b.arrive s.my.tail, .retire)
    else
      let t := (s.rd a).toNat % 2 ^ 24
      if t == 0xFFFFFF || decide (s.gridSize s.myRegion ≤ t) then trapHandle s 0 7 0
      else
        holdThen s { region := s.myRegion, target := t, hdl := 0#8, kind := .arrive n.toNat, source := s.myKey, sender := ctxVt s.me,
                     payload := [] } fun s => (s, .retire)) s

/-- The step of a BARWAIT under way: its value notes the barrier's firings as it began (log entry 13). -/
def barStep : Nat := 3

/-- BARWAIT (R351). -/
def execBarwait (n : BitVec 6) (s : State) : Host.Outcome State Fault Refusal :=
  issue {} (fun s =>
    let b := s.bar s.me n.toNat
    let v := s.my.prog.value
    if s.my.prog.step = 1 then (s, .retire)
    else if s.my.prog.step = barStep then
      if b.fires = v % 2 ^ 64 then (s, .stay)
      else if b.arrFires = v / 2 ^ 64 then (s, .retire)
      else waitFp s (b.tailFor s.focus.compute) .retire
    else if !b.armedAny then (s, .retire)
    else ((s.modBar s.me n.toNat fun b => b.waitFrom s.focus.compute).modMy fun c => { c with prog := { c.prog with step := barStep, waits := true, value := b.fires % 2 ^ 64 + b.arrFires * 2 ^ 64 } }, .stay)) s

/-- SEMUP (R352). -/
def execSemup (n : BitVec 4) (s : State) : Host.Outcome State Fault Refusal :=
  issue {} (fun s =>
    if !s.semOk n.toNat then (s, .trap .privilege 0 0) else (s.raiseSem s.focus.site n.toNat, .retire)) s

def State.sem (s : State) (n : Nat) : Nat := tget 0 (s.tile s.focus.site).sem n
def State.lowerSem (s : State) (n : Nat) : State :=
  s.modTile s.focus.site fun t => { t with sem := tput 0 n (tget 0 t.sem n - 1) t.sem }

/-- SEMDN (R352). -/
def execSemdn (n : BitVec 4) (s : State) : Host.Outcome State Fault Refusal :=
  issue {} (fun s =>
    if !s.semOk n.toNat then (s, .trap .privilege 0 0)
    else if s.sem n.toNat = 0 then (s, .stay)
    else (s.lowerSem n.toNat, .retire)) s

/-- SEMTRY (R352). -/
def execSemtry (d : Reg) (n : BitVec 4) (s : State) : Host.Outcome State Fault Refusal :=
  issue { cr := [d] } (fun s =>
    if !s.semOk n.toNat then (s, .trap .privilege 0 0)
    else if s.sem n.toNat = 0 then retireWith s d 0#64
    else retireWith (s.lowerSem n.toNat) d 1#64) s

/-- Places of a queue register (R208). -/
def queueRoom : Nat := 8
/-- The entries of queue k of a context that may be popped (R208). -/
def Ctx.queue (c : Ctx) (k : Nat) : List W64 := tget [] c.q k
/-- Entries of a queue, those pushed in this cycle among them. -/
def Ctx.depth (c : Ctx) (k : Nat) : Nat := (c.queue k).length + (tget [] c.qNew k).length
/-- A push, which a pop may take from the next core cycle on. -/
def State.pushQ (s : State) (x k : Nat) (v : W64) : State :=
  s.modCtx x fun c => { c with qNew := tput [] k (tget [] c.qNew k ++ [v]) c.qNew }
def State.popQ (s : State) (x k : Nat) : State := s.modCtx x fun c => { c with q := tput [] k ((c.queue k).drop 1) c.q }
/-- The pushes of a cycle join their queues (R208). -/
def Ctx.settleQueues (c : Ctx) : Ctx :=
  { c with qNew := [], q := c.qNew.foldl (fun t e => tput [] e.1 (tget [] t e.1 ++ e.2) t) c.q }

/-- QSTAT (R353). -/
def execQstat (d : Reg) (k : BitVec 3) (s : State) : Host.Outcome State Fault Refusal :=
  issue { cr := [d] } (fun s => retireWith s d (BitVec.ofNat 64 ((s.ctx s.me).depth k.toNat))) s

/-! The event crossbar: major 0x39. -/

/-- The counters a descriptor names. -/
def termCounters (d : W64) : List Nat := (List.range 16).filter fun i => d.toNat / 2 ^ i % 2 == 1 || d.toNat / 2 ^ (16 + i) % 2 == 1

/-- EVCFG in activation mode may write the descriptor (R355). -/
def State.termOk (s : State) (d : W64) : Bool :=
  termSlot d == s.mySlot && (termCounters d).all (fun i => s.evOk i) &&
    (if termKind d = 3 then s.evOk (termIdx d) else if termKind d = 4 then s.semOk (termIdx d) else true)

/-- EVCFG (R355). -/
def execEvcfg (t : BitVec 3) (a : Reg) (s : State) : Host.Outcome State Fault Refusal :=
  issue { mon := true, cr := [a] } (fun s =>
    let d := s.rd a
    if 5 ≤ termKind d ∨ d.toNat / 2 ^ 42 % 2 ^ 21 ≠ 0 then (s, .trap .illegal 0 0)
    else if !s.monitor && !s.termOk d then (s, .trap .privilege 0 0)
    else (s.modTile s.focus.site fun u => { u with terms := tput 0#64 t.toNat d u.terms }, .retire)) s

/-- EVPULSE (R355). -/
def execEvpulse (k : BitVec 4) (s : State) : Host.Outcome State Fault Refusal :=
  issue { mon := true } (fun s =>
    if !s.evOk k.toNat then (s, .trap .privilege 0 0) else (s.pulse s.focus.site k.toNat, .retire)) s

/-- EVREAD (R355). -/
def execEvread (d : Reg) (k : BitVec 4) (s : State) : Host.Outcome State Fault Refusal :=
  issue { mon := true, cr := [d] } (fun s =>
    if !s.evOk k.toNat then (s, .trap .privilege 0 0)
    else retireWith s d (BitVec.ofNat 64 (tget 0 (s.tile s.focus.site).evWas k.toNat))) s

/-! System registers (R213 to R216). -/

/-- A named system register. -/
inductive SysReg where
  | viewtick | vieworg | trailtail | tailorg | fronttick | trailst | faultva | faultinfo | trapcause | trappc | trapword | spquota
  | spused | twincap | vctl | vflags | seedlo | seedhi | accown | semmap | evmap | twinvt | ctxinfo | queue (k : Nat) | window (k : Nat)
  | cresv | droopth | droopstat | dbgst
  deriving DecidableEq, Repr

/-- The map of R214. -/
def sysReg (num : Nat) : Option SysReg :=
  match num with
  | 0x000 => some .viewtick | 0x001 => some .vieworg | 0x002 => some .trailtail | 0x003 => some .tailorg
  | 0x004 => some .fronttick | 0x005 => some .trailst | 0x010 => some .faultva | 0x011 => some .faultinfo
  | 0x012 => some .trapcause | 0x013 => some .trappc | 0x014 => some .trapword | 0x020 => some .spquota
  | 0x021 => some .spused | 0x022 => some .twincap | 0x030 => some .vctl | 0x031 => some .vflags
  | 0x032 => some .seedlo | 0x033 => some .seedhi | 0x040 => some .accown | 0x048 => some .semmap
  | 0x049 => some .evmap | 0x050 => some .twinvt | 0x051 => some .ctxinfo | 0x080 => some .cresv
  | 0x081 => some .droopth | 0x082 => some .droopstat | 0x0F0 => some .dbgst
  | n => if 0x60 ≤ n ∧ n < 0x68 then some (.queue (n - 0x60)) else if 0x68 ≤ n ∧ n < 0x70 then some (.window (n - 0x68)) else none

/-- Registers read in monitor mode alone. -/
def SysReg.monRead : SysReg → Bool
  | .faultva => true | .faultinfo => true | .trapcause => true | .trappc => true | .trapword => true | .droopth => true | .dbgst => true
  | _ => false

/-- Registers written in monitor mode alone. -/
def SysReg.monWrite : SysReg → Bool
  | .spquota => true | .spused => true | .twincap => true | .accown => true | .semmap => true | .evmap => true | .cresv => true | .droopstat => true
  | r => r.monRead

/-- The stage core's accesses of the vector registers are illegal, and so is a queue in the wrong direction (R208, R214). -/
def SysReg.refused (r : SysReg) (compute write : Bool) : Bool :=
  match r with
  | .vctl => !compute
  | .vflags => !compute
  | .queue k => (decide (k < 4) != compute) != write
  | _ => false

/-- The twin-window set of a slot is linked: the virtual tile of the partner (R210). -/
def State.linked (s : State) (site slot : Nat) : Option Nat :=
  match tget none (s.tile site).slots slot, tget none (s.tile (twin site)).slots slot with
  | some x, some y => if ctxRegion x == ctxRegion y && s.good site && s.good (twin site) then some (ctxVt y) else none
  | _, _ => none

/-- The window register's key in its pair. -/
def winKey (slot : Nat) (compute : Bool) (k : Nat) : Nat := slot * 16 + bit01 compute * 8 + k

/-- The window set of a slot is zeroed: the context there has changed at one of the twins (R210). -/
def State.zeroWindow (s : State) (site slot : Nat) : State :=
  s.modPair (pairOf site) fun p => { p with win := p.win.filter fun e => e.1 / 16 != slot, winNew := p.winNew.filter fun e => e.1 / 16 != slot }

/-- The window writes of a cycle take effect (R211). -/
def Pair.settleWindow (p : Pair) : Pair := { p with winNew := [], win := p.winNew.foldl (fun t e => tput 0#64 e.1 e.2 t) p.win }

/-- CRESV as read (R420). -/
def Cluster.cresv (c : Cluster) : Nat := c.budget % 65536 + bit01 c.vec * 65536 + c.inuse % 65536 * 2 ^ 32
/-- DROOP_STAT as read (R424). -/
def Cluster.droopStat (c : Cluster) : Nat := bit01 c.alarm + c.alarms % 65536 * 65536 + c.alarmTick % 2 ^ 32 * 2 ^ 32

def Vrm.code (m : Vrm) : Nat := match m with | .rne => 0 | .rz => 1 | .rdn => 2 | .rup => 3 | .sr => 4
def Vrm.ofCode (n : Nat) : Vrm := match n with | 0 => .rne | 1 => .rz | 2 => .rdn | 3 => .rup | _ => .sr

/-- The value of a register that is no queue, for the focus core. -/
def sysRead (s : State) (r : SysReg) : Nat :=
  let c := s.my
  let x := s.ctx s.me
  let m := s.mcore s.focus
  let site := s.focus.site
  let t := s.tile site
  let cl := s.cluster (clusterOf site)
  match r with
  | .viewtick => stampTick c.view
  | .vieworg => stampOrg c.view
  | .trailtail => stampTick c.tail
  | .tailorg => stampOrg c.tail
  | .fronttick => stampTick (s.fpOf s.myKey)
  | .trailst => c.trailst.toNat
  | .faultva => m.faultva.toNat
  | .faultinfo => m.faultinfo.toNat
  | .trapcause => m.cause % 256 + bit01 m.defer * 256 + bit01 m.aborted * 512 + m.act % 4 * 65536
  | .trappc => m.trappc.toNat
  | .trapword => m.trapword.toNat
  | .spquota => x.quota
  | .spused => x.used
  | .twincap => t.twincap
  | .vctl => Vrm.code x.rm
  | .vflags => x.flags.toNat
  | .seedlo => c.seedLo.toNat
  | .seedhi => c.seedHi.toNat
  | .accown => t.accown.toNat
  | .semmap => t.semmap.toNat
  | .evmap => t.evmap.toNat
  | .twinvt => match s.linked site s.mySlot with
    | some vt => vt + bit01 s.focus.compute * 2 ^ 24 + 2 ^ 63
    | none => bit01 s.focus.compute * 2 ^ 24
  | .ctxinfo =>
    let a := c.act
    (a.map (·.vregs)).getD 0 + (a.map (·.handles)).getD 0 * 256 + bit01 s.focus.compute * 65536 + bit01 s.monitor * 2 ^ 17
  | .window k => if (s.linked site s.mySlot).isSome then (tget 0#64 (s.pair (pairOf site)).win (winKey s.mySlot s.focus.compute k)).toNat else 0
  | .cresv => cl.cresv
  | .droopth => cl.th
  | .droopstat => cl.droopStat
  | .dbgst => bit01 m.gated
  | .queue _ => 0

/-- A value outside a field's stated range (R213). -/
def sysBad (r : SysReg) (v : W64) : Bool :=
  match r with
  | .vctl => decide (5 ≤ v.toNat % 8)
  | .cresv => decide (v.toNat % 65536 < 8)
  | .trapcause => v.toNat / 65536 % 4 == 3
  | _ => false

/-- A write of a register that is no queue; RO fields are left (R6, R213). -/
def sysWrite (s : State) (r : SysReg) (v : W64) : State :=
  let site := s.focus.site
  let cl := clusterOf site
  let tile (f : Tile → Tile) : State := s.modTile site f
  let mon (f : MCore → MCore) : State := s.modMcore s.focus f
  match r with
  | .trailst => s.modMy fun c => c.writeTrailst v
  | .faultva => mon fun m => { m with faultva := v.truncate 56 }
  | .faultinfo => mon fun m => { m with faultinfo := v }
  | .trapcause => mon fun m => { m with act := v.toNat / 65536 % 4 }
  | .trappc => mon fun m => { m with trappc := v }
  | .spquota => s.modCtx s.me fun c => { c with quota := v.toNat % 512 }
  | .twincap => tile fun t => { t with twincap := v.toNat % 256 }
  | .vctl => s.modCtx s.me fun c => { c with rm := Vrm.ofCode (v.toNat % 8) }
  | .vflags => s.modCtx s.me fun c => { c with flags := w1c c.flags v }
  | .seedlo => s.modMy fun c => { c with seedLo := v }
  | .seedhi => s.modMy fun c => { c with seedHi := v }
  | .accown => tile fun t => t.writeAccown v
  | .semmap => tile fun t => { t with semmap := v &&& 0x7777777777777777#64 }
  | .evmap => tile fun t => { t with evmap := v &&& 0x7777777777777777#64 }
  | .window k =>
    if (s.linked site s.mySlot).isSome then
      s.modPair (pairOf site) fun p => { p with winNew := p.winNew.filter (fun e => e.1 != winKey s.mySlot s.focus.compute k) ++
        [(winKey s.mySlot s.focus.compute k, v)] }
    else s
  | .cresv =>
    let s := s.modCluster cl fun c => { c with budget := v.toNat % 65536, vec := bitAt v 16 }
    if (s.cluster cl).waiting.isEmpty then s else s.post (.reservationGrant cl)
  | .droopth => s.modCluster cl fun c => { c with th := v.toNat % 256 }
  | .droopstat => s.modCluster cl fun c => { c with alarm := w1cBit c.alarm v 0, alarms := v.toNat / 65536 % 65536 }
  | .dbgst => mon fun m => { m with gated := w1cBit m.gated v 0 }
  | _ => s

/-- The checks of R213 before an access: NUM, mode, then what the register refuses. -/
def sysCheck (s : State) (num : BitVec 10) (write : Bool) (k : SysReg → Act) : Act :=
  match sysReg num.toNat with
  | none => (s, .trap .illegal 0 0)
  | some r =>
    if !s.monitor && (if write then r.monWrite else r.monRead) then (s, .trap .privilege 0 0)
    else if r.refused s.focus.compute write then (s, .trap .illegal 0 0)
    else k r

/-- SRD (R208, R213). -/
def execSrd (d : Reg) (num : BitVec 10) (s : State) : Host.Outcome State Fault Refusal :=
  issue { mon := true, cr := [d] } (fun s =>
    if s.my.prog.step = 1 && !s.monitor then (s, .retire)
    else sysCheck s num false fun r => match r with
      | .queue k => match (s.ctx s.me).queue k with
        | x :: _ => retireWith (s.popQ s.me k) d x
        | [] => if s.monitor then (s, .stay) else (s.modMy fun c => { c with stall := .pop k d }, .done)
      | r => retireWith s d (BitVec.ofNat 64 (sysRead s r))) s

/-- SWR (R208, R213). -/
def execSwr (num : BitVec 10) (a : Reg) (s : State) : Host.Outcome State Fault Refusal :=
  issue { mon := true, cr := [a] } (fun s =>
    if s.my.prog.step = 1 && !s.monitor then (s, .retire)
    else sysCheck s num true fun r =>
      let v := s.rd a
      match r with
      | .queue k =>
        if (s.ctx s.me).depth k < queueRoom then (s.pushQ s.me k v, .retire)
        else if s.monitor then (s, .stay) else (s.modMy fun c => { c with stall := .push k v }, .done)
      | r => if sysBad r v then (s, .trap .illegal 0 0) else (sysWrite s r v, .retire)) s

/-- The end of a stall on a queue: the access has been made (log entry 13). -/
def State.queueDone (s : State) (k : Nat) : State :=
  s.modCore k fun c => { c with stall := .none, prog := { c.prog with step := 1 } }

/-- QUEUE_PUSH (R208). -/
def execQueuePush (k : Nat) (s : State) : Host.Outcome State Fault Refusal :=
  .next (match (s.core k).stall with
    | .push q x =>
      if (s.ctx (coreCtx k)).depth q < queueRoom then (s.pushQ (coreCtx k) q x).queueDone k else s
    | _ => s)

/-- QUEUE_POP (R208). -/
def execQueuePop (k : Nat) (s : State) : Host.Outcome State Fault Refusal :=
  .next (match (s.core k).stall with
    | .pop q d => match (s.ctx (coreCtx k)).queue q with
      | x :: _ => ((s.popQ (coreCtx k) q).wcOf k d (dataReg x)).queueDone k
      | [] => s
    | _ => s)

/-! Time and traps (R356 to R360). -/

/-- TSTAMP (R357). -/
def execTstamp (d : Reg) (s : State) : Host.Outcome State Fault Refusal :=
  issue { mon := true, cr := [d] } (fun s => retireWith s d (BitVec.ofNat 64 s.tick)) s

/-- CSTAMP (R357). -/
def execCstamp (d : Reg) (s : State) : Host.Outcome State Fault Refusal :=
  issue { mon := true, cr := [d] } (fun s => retireWith s d (BitVec.ofNat 64 (s.edgesAt s.focus.site))) s

/-- TRAP and BRK end a block: the checker goes on behind them (R46, R358). -/
def leaveBlock (s : State) : State :=
  match s.my.act with
  | some a => s.modMy fun c => { c with sig := { c.sig with left := some (codeOffset a (c.pc + 4)) } }
  | none => s

/-- TRAP (R358); in monitor mode fatal (R356). -/
def execTrap (code : BitVec 10) (s : State) : Host.Outcome State Fault Refusal :=
  issue { ender := true, trapEnds := true } (fun s => (leaveBlock s, .trap .software 0 code.toNat)) s

/-- BRK (R358). -/
def execBrk (code : BitVec 10) (s : State) : Host.Outcome State Fault Refusal :=
  issue { ender := true, trapEnds := true } (fun s => (leaveBlock s, .trap .breakpoint 0 code.toNat)) s

/-- SIGCHK (R360). -/
def execSigchk (s : State) : Host.Outcome State Fault Refusal := issue { ender := true, mon := true } (fun s => (s, .retire)) s

/-- NOP (R360). -/
def execNop (s : State) : Host.Outcome State Fault Refusal := issue { mon := true } (fun s => (s, .retire)) s

/-! RFT (R385). -/

/-- Restarts the commands of a context's FAULTED queues at their faulting chunks (R181, R385). -/
def State.restartCopies (s : State) (x : Nat) : State :=
  (List.range 4).foldl (fun s q => s.modQueue x q fun t => { t with faulted := false }) s

/-- ACT as RFT takes it: a page fault of a kind that does not wait faults the region (R71, R385). -/
def rftAct (m : MCore) : Nat :=
  if m.act = 0 ∧ m.cause = Cause.pageFault.code ∧ m.faultinfo.toNat % 16 ≠ 0 ∧ m.faultinfo.toNat % 16 ≠ 7 then 2
  else if m.act = 0 ∧ m.cause = Cause.uncorrectable.code ∧ m.faultinfo.toNat % 4 = 1 ∧ m.aborted then 2
  else m.act

/-- RFT of a core in monitor mode (R385); the restart itself comes by RESTART. From TRAIL_FULL it makes the automatic release of R107
at the store; a fault of that release is taken as any release's is (R70, R92). -/
def rftBody (s : State) : Act :=
  let m := s.mcore s.focus
  let k := s.myKey
  let leave (s : State) : State := (s.modCore k fun c => { c with prog := {} }).modMcore s.focus fun m => { m with mode := false }
  let act := rftAct m
  if act = 0 then
    if m.cause = Cause.trailFull.code && !m.aborted && s.my.prog.rel.isNone then
      let ck := s.mkCkpt m.trappc.toNat (2 ^ 32 - 1) s.my.sig
      let ds := s.my.digests
      let judged : State × Option State :=
        if s.duplex s.myRegion then
          let s := s.formDigests k
          (s, s.duplexSettle k)
        else (s, none)
      if !s.releaseReady k then (s, .stay)
      else match judged with
      | (_, some s) => (leave s, .done)
      | (s, none) => match s.beginRelease k (some ck) .plain with
        | (.empty, s) => (leave ((s.finishRelease k (some ck)).modMy fun c => { c with pc := m.trappc.toNat, autorelBit := true }), .done)
        | (.started _ _, s) => (leave (s.modMy fun c => { c with pc := m.trappc.toNat, autorelBit := true }), .done)
        | (.wait, s) => (s.modCore k fun c => { c with digests := ds }, .stay)
        | (.fault f va a, s) => ((leave s).takeAbort Cause.pageFault.code va (pfInfo f a) m.trappc.toNat m.trapword, .done)
    else
      let s := if m.cause = Cause.copyFault.code then s.restartCopies s.me else s
      let again := m.defer && m.trappc.toNat == s.my.pc
      let s := leave (if m.aborted then s else s.modMy fun c => { c with pc := m.trappc.toNat })
      (if again then s.modCore k fun c => { c with prog := m.kept } else s, .done)
  else if act = 1 then
    (leave (s.killNow k (if s.my.killed = .held then .held else .ready)), .done)
  else (leave ((s.killNow k .held).faultRegion k m.cause m.faultva.toNat m.faultinfo.toNat), .done)

/-- RFT (R359, R385). -/
def execRft (s : State) : Host.Outcome State Fault Refusal := issue { monOnly := true } rftBody s

end Sys2Proof.Machine
end

