-- ==== Sys2Proof/Machine/Sched.lean ====
section
/-! DEFINITION. The hardware that schedules a tile: dispatch (R322), stealing (R324), slots and slices (R329, R330), buckets
(R325), the event crossbar (R331, R332). -/

namespace Sys2Proof.Machine

open Sys2Proof

/-! Stealing (R324). -/

/-- NextSteal. -/
def nextSteal (x : W32) : W32 :=
  let x := x ^^^ (x <<< 13)
  let x := x ^^^ (x >>> 17)
  x ^^^ (x <<< 5)

/-- The generator of a core: its seed at module reset until it has drawn. -/
def State.stealState (s : State) (c : CoreId) : W32 := ((s.mcore c).steal).getD (BitVec.ofNat 32 (c.site * 2 + bit01 c.compute + 1))

/-- V: the resident contexts of the thief's region but its own, in ascending virtual id. -/
def State.victims (s : State) (x : Nat) : List Nat :=
  s.ctxs.filterMap fun e => if ctxRegion e.1 == ctxRegion x && e.1 != x && e.2.st == 1 then some e.1 else none
/-- L: those in the thief's cluster. -/
def State.nearVictims (s : State) (x : Nat) : List Nat :=
  (s.victims x).filter fun y => clusterOf (s.ctx y).site == clusterOf (s.ctx x).site

/-- The victim of try n of a round for a drawn number. -/
def victimOf (near all : List Nat) (n : Nat) (x : W32) : Nat :=
  let l := if n < 4 && !near.isEmpty then near else all
  l.getD (x.toNat % l.length) 0

/-- Tries n to 4 of a round: the first record stolen, if any. -/
def State.stealRound (s : State) (c : CoreId) (x n : Nat) : (fuel : Nat) → Option ContRec × State
  | 0 => (none, s)
  | f + 1 =>
    let r := nextSteal (s.stealState c)
    let s := s.modMcore c fun m => { m with steal := some r }
    match s.dequeSteal (victimOf (s.nearVictims x) (s.victims x) n r) c.compute with
    | some (e, s) => (some e, s)
    | none => s.stealRound c x (n + 1) f

/-! Dispatch (R322). -/

/-- What a step of R322 comes to: nothing, a wait for a read, or an activation started. -/
inductive Found where
  | none (s : State)
  | wait (s : State)
  | took (s : State)

/-- The message a role takes next: highest class, then oldest arrival (R317). -/
def Ctx.nextPlace (c : Ctx) (compute : Bool) : Option Place :=
  (sortOn (fun (p : Place) => (3 - p.cls) * 2 ^ 64 + p.msg.arrival) (c.places.filter fun p => p.compute == compute)).head?

/-- Step 1: the context's messages. -/
def takeMessage (s : State) (k : Nat) : Found :=
  let x := coreCtx k
  match (s.ctx x).nextPlace (coreCompute k) with
  | none => .none s
  | some p =>
    match startMessage s k p.msg with
    | .wait s => .wait s
    | .took t =>
      let t := t.modCtx x fun c => { c with places := c.places.erase p }
      .took (if (s.ctx x).lodge.isEmpty then t else t.post (.lodgeDrain x))

/-- Step 2: Pop; a record that becomes the bottom wakes its core (log entry 23). -/
def takeDeque (s : State) (k : Nat) : Found :=
  let x := coreCtx k
  match s.dequePop x (coreCompute k) with
  | some (e, s) => .took (startRecord (if (s.ctx x).deque.isEmpty then s else s.wakeCtx x) k e)
  | none => .none s

/-- Step 3: the head of the run queue; a fault of its memory is taken in the core as one of the reads of a dispatch is (R454; log entry
66). -/
def takeRing (s : State) (k : Nat) : Found :=
  let r := ctxRegion (coreCtx k)
  if (s.ring r).count = 0 then .none s
  else match s.ringHead r with
    | (.ok e, s) => if e.compute == coreCompute k then .took (startRecord (s.ringPop r) k e) else .none s
    | (.abort c va info, s) => .took (s.asCore k fun s => s.takeAbort c.code va info 0 0#32)
    | (.wait, s) => .wait s

/-- Step 4: a round of stealing, after which the core backs off for 64 cycles. -/
def takeSteal (s : State) (k : Nat) : Found :=
  let x := coreCtx k
  let c := s.coreId k
  if (s.victims x).isEmpty then .none s
  else match s.stealRound c x 1 4 with
    | (some e, s) => .took (startRecord s k e)
    | (none, s) => .none (s.modMcore c fun m => { m with backoff := some (s.edgesAt c.site + 64) })

/-- Takes steps in order until one yields work. -/
def firstFound (k : Nat) : List (State → Nat → Found) → State → Found
  | [], s => .none s
  | f :: fs, s => match f s k with
    | .none s => firstFound k fs s
    | r => r

/-- The idle core of a resident context chooses its work; one that has helped looks for messages last (R322). -/
def State.dispatch (s : State) (k : Nat) : State :=
  let tasks := [takeDeque, takeRing, takeSteal]
  let sleep (s : State) : State :=
    (s.modCore k fun c => { c with helping := false }).modMcore (s.coreId k) fun m => { m with asleep := true }
  if (s.core k).helping then
    match firstFound k tasks s with
    | .took s => s
    | .wait s => s
    | .none s => match takeMessage (s.modCore k fun c => { c with helping := false }) k with
      | .took s => s
      | .wait s => s
      | .none s => sleep s
  else match firstFound k (takeMessage :: tasks) s with
    | .took s => s
    | .wait s => s
    | .none s => sleep s

/-- A core is idle: its slot is switched in, its region running, and it has no activation (R322). -/
def State.idle (s : State) (c : CoreId) : Bool :=
  !(s.mcore c).mode && (s.running c.site).any fun x =>
    let t := s.core (coreKey x c.compute)
    (s.ctx x).st == 1 && s.regionRuns (ctxRegion x) && t.act.isNone && decide (t.stall = Stall.none) && !(s.mcore c).asleep

/-- CORE_DISPATCH (R322). -/
def execCoreDispatch (c : CoreId) (s : State) : Host.Outcome State Fault Refusal :=
  .next (match s.running c.site with
    | some x => if s.idle c then s.dispatch (coreKey x c.compute) else s
    | none => s)

/-- CORE_WAKE: a message or a record ends a core's sleep (R322). -/
def execCoreWake (c : CoreId) (s : State) : Host.Outcome State Fault Refusal :=
  .next (s.modMcore c fun m => { m with asleep := false, backoff := none })

/-- STEAL_BACKOFF_END: 64 cycles of back-off end, and the core starts again at step 1 (R324). -/
def execStealBackoffEnd (c : CoreId) (s : State) : Host.Outcome State Fault Refusal :=
  .next (if (s.mcore c).backoff.any fun e => decide (e ≤ s.edgesAt c.site) then
    s.modMcore c fun m => { m with asleep := false, backoff := none } else s)

/-! Slots (R329). -/

/-- A context has work that R322 would find for either core. -/
def State.findable (s : State) (x : Nat) : Bool :=
  let c := s.ctx x
  !c.places.isEmpty || !c.deque.isEmpty || (s.ring (ctxRegion x)).count != 0 || (s.victims x).any fun y => !(s.ctx y).deque.isEmpty

/-- A slot is ready (R329). -/
def State.slotReady (s : State) (site j : Nat) : Bool :=
  match tget none (s.tile site).slots j with
  | none => false
  | some x =>
    (s.ctx x).st == 1 && s.regionRuns (ctxRegion x) &&
      ((s.core (coreKey x false)).act.isSome || (s.core (coreKey x true)).act.isSome || (s.core (coreKey x false)).aside.isSome ||
        (s.core (coreKey x true)).aside.isSome || s.findable x)

/-- The next ready slot after j, wrapping. -/
def State.nextReady (s : State) (site j : Nat) : Option Nat := ((List.range 3).map fun i => (j + 1 + i) % 4).find? (s.slotReady site)

/-- The slice of a slot in reference ticks (R329). -/
def Tile.sliceOf (t : Tile) (j : Nat) : Nat := tget 270000 t.slice j

/-- A core of a context has requests outstanding, which a slot switch and a trap wait for (R121). -/
def State.outstanding (s : State) (x : Nat) : Bool := [false, true].any fun c => (s.core (coreKey x c)).reqs.any fun e => e.2.isSome

/-- Between the two parts of a PHASE, where no boundary falls (R104). -/
def Core.joining (c : Core) : Bool := c.prog.joined && c.prog.rel.isSome && decide (c.stall = .none)

/-- A core of the tile is in monitor mode, has requests outstanding, or is not at a boundary: no switch is taken (R389, R121, R104). -/
def State.pinnedTile (s : State) (site : Nat) : Bool :=
  (s.tile site).stage.mode || (s.tile site).compute.mode || (s.running site).any fun x =>
    s.outstanding x || (s.core (coreKey x false)).joining || (s.core (coreKey x true)).joining

/-- The tile switches to slot j: matrix steps of the slot left stop at their boundary, a parked licence goes to an owner that
comes in, and both cores look for work (R287, R293, R329). -/
def State.switchTo (s : State) (site j : Nat) : State :=
  let old := (s.tile site).run
  let s := match s.running site with
    | some x => s.stopMats x
    | none => s
  let s := s.modTile site fun t =>
    { t with
      run := j, sliceStart := s.tick, yielded := false, idle := false
      stage := { t.stage with asleep := false, backoff := none }
      compute := { t.compute with asleep := false, backoff := none } }
  (s.licSwitchIn site j).licSliceEnd site old

/-- The running slot's slice is over, it has yielded, or it stopped being ready (R329, R343). -/
def State.sliceDue (s : State) (site : Nat) : Bool :=
  let t := s.tile site
  t.yielded || t.idle || decide (t.sliceStart + t.sliceOf t.run ≤ s.tick) || !s.slotReady site t.run

/-- SLICE_END: the tile goes to the next ready slot, or the running one starts a new slice; with none ready it idles, until the first
slot to be ready comes in with a slice of its own (R329, R389). -/
def execSliceEnd (site : Nat) (s : State) : Host.Outcome State Fault Refusal :=
  .next (
    if !s.sliceDue site || s.pinnedTile site then s
    else match s.nextReady site (s.tile site).run with
      | some j => s.switchTo site j
      | none => (s.modTile site fun t => { t with sliceStart := s.tick, yielded := false, idle := !s.slotReady site t.run }).licSliceEnd site
          (s.tile site).run)

/-! Buckets (R325). -/

/-- A refill of the bucket with rate a at tokens t. -/
def refilled (t : Int) (a : Nat) : Int := min (t + a) (2 * a)

/-- A refill of region r falls at this tick, counted from its own launch; a region with a bucket gives its own REFILL, under OVR bit 4 or 5
(R323, R325; log entry 70). -/
def State.refillDue (s : State) (r : Nat) : Bool :=
  let g := s.region r
  let n := g.blk.refill
  g.launched && (g.blk.ovr / 2 ^ 4 % 2 == 1 || g.blk.ovr / 2 ^ 5 % 2 == 1) && n != 0 && decide (g.launch < s.tick) &&
    (s.tick - g.launch) % n == 0

/-- BUCKET_REFILL (R325). -/
def execBucketRefill (r : Nat) (s : State) : Host.Outcome State Fault Refusal :=
  .next (if s.refillDue r then
    (s.modRegion r fun g =>
      { g with
        opsTok := if g.blk.ovr / 2 ^ 4 % 2 == 1 then refilled g.opsTok g.blk.opsRate else g.opsTok
        occTok := if g.blk.ovr / 2 ^ 5 % 2 == 1 then refilled g.occTok g.blk.occRate else g.occTok }).noteBudgets
  else s)

/-! The event crossbar (R331, R332). -/

/-- All the counters of a product are nonzero; an empty product is false. -/
def Tile.product (t : Tile) (mask : Nat) : Bool :=
  mask != 0 && (List.range 16).all fun i => mask / 2 ^ i % 2 == 0 || decide (0 < tget 0 t.ev i)

/-- The product of a term that is true, P0 before P1. -/
def Tile.trueProduct (t : Tile) (d : W64) : Option Nat :=
  let p0 := d.toNat % 2 ^ 16
  let p1 := d.toNat / 2 ^ 16 % 2 ^ 16
  if !termOn d then none else if t.product p0 then some p0 else if t.product p1 then some p1 else none

/-- Each counter of a mask falls by one. -/
def Tile.takeCounts (t : Tile) (mask : Nat) : Tile :=
  { t with ev := (List.range 16).foldl (fun e i => if mask / 2 ^ i % 2 == 1 then tput 0 i (tget 0 e i - 1) e else e) t.ev }

/-- The effect of a term's KIND; a start that finds no command waiting is lost (R331, R332). -/
def State.applyTerm (s : State) (site : Nat) (d : W64) : State :=
  let i := termIdx d
  match termKind d, tget none (s.tile site).slots (termSlot d) with
  | 1, some x => s.modQueue x (i % 4) fun t =>
      if t.credits < (t.cmds.filter fun c => !c.started).length then { t with credits := t.credits + 1 } else t
  | 2, some x =>
    let s := s.modCtx x fun c => if c.matCredits < (c.cmds.filter fun m => !m.started).length then { c with matCredits := c.matCredits + 1 } else c
    s.post (.matrixStep site)
  | 3, _ => s.pulse site i
  | 4, _ => s.raiseSem site i
  | _, _ => s

/-- EVENT_TERM_FIRE (R332). -/
def execEventTermFire (site : Nat) (term : Nat) (s : State) : Host.Outcome State Fault Refusal :=
  .next (let d := tget 0#64 (s.tile site).terms term
    match (s.tile site).trueProduct d with
    | some m => (s.modTile site fun t => t.takeCounts m).applyTerm site d
    | none => s)

/-! Deferred traps (R383, R330). -/

/-- The pending deferred trap with the lowest code. -/
def lowestPending (ps : List Pending) : Option Pending := (sortOn (fun (p : Pending) => p.cause) ps).head?

/-- A deferred trap may be taken during this stall: it is at the boundary before its instruction, or in the wait of an acquire (R106,
R330, R383). -/
def Stall.idle : Stall → Bool
  | .copy _ => true
  | .matrix _ => true
  | .scratch _ => true
  | .trail _ => true
  | .push _ _ => true
  | .pop _ _ => true
  | .fp _ .retire => true
  | .none => true
  | _ => false

/-- DEFERRED_TRAP: the lowest pending trap is taken at an instruction boundary, with no request outstanding (R121, R383). -/
def execDeferredTrap (c : CoreId) (s : State) : Host.Outcome State Fault Refusal :=
  .next (match s.running c.site with
    | none => s
    | some x =>
      let k := coreKey x c.compute
      match lowestPending (s.core k).pend with
      | none => s
      | some p =>
        if (s.mcore c).mode || !(s.core k).stall.idle || (s.core k).reqs.any fun e => e.2.isSome then s
        else (s.modCore k fun t => { t with pend := t.pend.erase p }).asCore k fun s =>
          s.takeTrap p.cause p.va p.info s.my.pc 0#32 true false)

end Sys2Proof.Machine
end

