-- ==== Sys2Proof/Machine/Context.lean ====
section
/-! DEFINITION. Contexts as wholes: what they hold at a tile, the end of a region's contexts, drain receipts (R395), the
watchdog and partition reset (R396), kills, restarts, faults and viral clusters (R381, R388, R394). -/

namespace Sys2Proof.Machine

open Sys2Proof

/-! What a context holds at its tile. -/

/-- VALID of the 4-bit fields of an assignment map that name a slot is cleared (R212). -/
def clearSlot (map : W64) (slot : Nat) : W64 :=
  BitVec.ofNat 64 (((List.range 16).map fun i =>
    let f := map.toNat / 16 ^ i % 16
    (if f / 4 % 2 == 1 && f % 4 == slot then f - 4 else f) * 16 ^ i).sum)

/-- The accumulators of a tile that a slot owns (R207). -/
def Tile.owned (t : Tile) (slot : Nat) : List Nat := (List.range 4).filter fun i => t.ownsAcc slot i

/-- Clears VALID of accumulators, which zeroes them (R207). -/
def Tile.dropAccs (t : Tile) (is : List Nat) : Tile :=
  is.foldl (fun t i => { t.setAcc i [] with accown := BitVec.ofNat 64 (t.accown.toNat -
    (if accValid t.accown i then 2 ^ (4 * i + 2) else 0)) }) t

/-- A context leaves its tile: accumulators, assignments, terms, vector banks, granules, scoreboard entries and the slot itself are free,
and the slot's window set is zeroed (R154, R210, R212, R332). -/
def State.vacate (s : State) (x : Nat) : State :=
  let c := s.ctx x
  let clean (t : Tile) : Tile :=
    let t := t.dropAccs (t.owned c.slot)
    { t with
      slots := tput none c.slot none t.slots
      semmap := clearSlot t.semmap c.slot
      evmap := clearSlot t.evmap c.slot
      terms := t.terms.map fun (e : Nat × W64) => if termSlot e.2 = c.slot then (e.1, BitVec.ofNat 64 (e.2.toNat % 2 ^ 63)) else e
      vbanks := t.vbanks.filter fun e => e.1 / 8 ≠ c.slot
      board := t.board.filter fun e => !e.2.any fun (b : Entry) => b.ctx == x }
  let s := ((s.zeroWindow c.site c.slot).modTile c.site clean).modTile (twin c.site) fun t => { t with board := t.board.filter fun e => !e.2.any fun (b : Entry) => b.ctx == x }
  s.modCtx x fun c => { c with
    dequeGranules := []
    handles := c.handles.map fun (e : Nat × Handle) => (e.1, { e.2 with granules := [] }) }

/-- A context's work is dropped and its tile freed; its swap frames stay its own until its region ends (R363, R394). -/
def State.dropCtx (s : State) (x : Nat) : State :=
  let c := s.ctx x
  let s := (s.discardMats x fun _ => true).refuseDests x
  let s := if c.st == 1 || (c.st == 3 && !c.coming) then (s.licRelease c.site c.slot).vacate x else if c.coming then s.vacate x else s
  let s := s.dropHeld (s.ctxPart x) fun h => coreCtx h.core == x && h.pub.isNone
  let s := s.invalidateNi (s.ctxPart x) [x]
  { s with ctxs := tput {} x { trailFrames := c.trailFrames } s.ctxs
           cores := tput {} (coreKey x false) {} (tput {} (coreKey x true) {} s.cores) }

/-- A context is made no more, and its swap frames return to the pool (R363, R387). -/
def State.freeCtx (s : State) (x : Nat) : State :=
  let fs := (s.ctx x).trailFrames
  ((s.dropCtx x).modPart (s.ctxPart x) fun q => { q with swap := q.swap ++ fs }).modCtx x fun _ => {}

/-- The contexts that f holds of. -/
def State.ctxsOf (s : State) (f : Nat → Bool) : List Nat := (s.ctxs.map (·.1)).filter f

/-- Kills without restart every activation of contexts (R394, R396). -/
def State.killAll (s : State) (xs : List Nat) : State :=
  xs.foldl (fun s x => (s.killDead (coreKey x false)).killDead (coreKey x true)) s

/-! Drain receipts (R395). -/

/-- The contexts a receipt is for. -/
def State.drainSet (s : State) : DrainFor → Nat → Bool
  | .endRegion r, x => ctxRegion x == r
  | .partition p, x => s.ctxPart x == p
  | .cluster cl, x => (s.ctx x).st != 0 && clusterOf (s.ctx x).site == cl
  | .cluMove p _ _, x => s.ctxPart x == p
  | .disable p, x => s.ctxPart x == p
  | .checkpoint, _ => true
  | .ctx y _ _, x => x == y
  | .release p _ _, x => s.ctxPart x == p

/-- The contexts that f names have a region whose commands wait at a pseudo-channel. -/
def State.atRim (s : State) (f : Nat → Bool) : Bool :=
  s.chans.any fun e => e.2.queue.any fun q => q.region.any fun r => s.ctxs.any fun x => ctxRegion x.1 == r && f x.1

/-- No work of contexts is in flight: no publication that is not published, chunk, atomic, request or message of theirs, and no
act that a kill waits for (R395). -/
def State.drained (s : State) (f : Nat → Bool) : Bool :=
  s.pubs.all (fun e => e.2.all fun p => p.published || !f (coreCtx p.core)) &&
    s.flying.all (fun e => e.2.all fun c => !f c.ctx) &&
    s.cores.all (fun e => !f (coreCtx e.1) || (e.2.reqs.all (fun q => q.2.isNone) && !s.actBusy e.1)) &&
    s.clusters.all (fun e => e.2.engQ.all fun q => !f (coreCtx q.who)) &&
    s.flight.all fun e => e.2.all fun m => noCore ≤ m.source || !f (coreCtx m.source)

/-- Every committed segment of a partition has folded (R396). -/
def State.folded (s : State) (p : Nat) : Bool := s.pubs.all fun e => e.2.all fun q => q.part != p

/-- Asks for a drain receipt, whose completion is an event of its own. -/
def State.askDrain (s : State) (d : DrainFor) : State :=
  ({ s with drains := tput none s.seq (some d) s.drains }.post (.drainReceipt s.seq)).bump

/-- Frees the contexts of an ended region with its swap area, and empties a run queue no other region uses. -/
def State.freeRegion (s : State) (r : Nat) : State :=
  let s := (s.ctxsOf fun x => ctxRegion x == r).foldl State.freeCtx s
  let g := s.region r
  let shared := s.regions.any fun e => e.1 != r && e.2.launched && e.2.st != 3 && e.2.part == g.part && e.2.blk.runq == g.blk.runq
  let s := (s.modPart g.part fun q => { q with swap := q.swap ++ g.area }).modRegion r fun g => { g with area := [] }
  if shared then s else s.modRing g.part g.blk.runq fun _ => {}

/-- Ends a region: STATE 3, its activations killed (R387, R396). -/
def State.endRegionNow (s : State) (r : Nat) : State :=
  (s.killAll (s.ctxsOf fun x => ctxRegion x == r)).modRegion r fun g => { g with st := 3 }

/-- R80 on one cluster: line caches, translation buffers, version stores and the engine's lines are empty. -/
def State.clearCluster (s : State) (cl : Nat) : State :=
  let s := (List.range 4).foldl (fun s i => s.modSlice (4 * cl + i) fun l => { l with stb := [], chains := [], hostAtoms := [], full := false }) s
  s.modCluster cl fun c => { c with engQ := [], engLines := [] }

/-- The licences of a cluster's pairs are FREE (R292). -/
def State.freeLicences (s : State) (cl : Nat) : State :=
  { s with pairs := s.pairs.map fun (e : Nat × Pair) => if clusterOf e.1 = cl then (e.1, { e.2 with lic := {} }) else e }

/-- The device restarts a VF's host queue behind the last recorded fence (R396, R430). -/
def State.replayVf (s : State) (v : Nat) : State :=
  let s := s.modVf v fun f =>
    { f with hqhead := f.lastFence, waiting := [], fences := []
             taken := f.taken - (f.hqhead + ringSize f.hqbase - f.lastFence) % ringSize f.hqbase }
  { s with flight := s.flight.filter fun e => !e.2.any fun (m : Msg) => m.source == noCore + 2 + v }.post (.hqEntryTake v)

/-- Partition reset, before its drain receipt (R396). -/
def State.partitionReset (s : State) (p : Nat) : State :=
  let s := s.killAll (s.ctxsOf fun x => s.ctxPart x == p)
  let s := { s with regions := s.regions.map fun (e : Nat × Region) =>
    if e.2.part == p && e.2.launched then (e.1, { e.2 with st := 3 }) else e }
  s.askDrain (.partition p)

/-- Partition reset, once nothing is in flight. -/
def State.resetDone (s : State) (p : Nat) : State :=
  let rs := s.regions.filterMap fun e => if e.2.part == p then some e.1 else none
  let s := rs.foldl State.freeRegion s
  let s := (s.part p).clusters.foldl State.clearCluster s
  s.vfs.foldl (fun s e => if e.2.part == p && e.2.en then s.replayVf e.1 else s) s

/-! The watchdog (R328, R396). -/

/-- A region's watchdog has expired. -/
def State.watchdogDue (s : State) (r : Nat) : Bool :=
  let g := s.region r
  let n := (s.inh 10 r).watchdog
  g.launched && g.st == 0 && n != 0 && s.anyActive r && decide (g.watch + n ≤ s.tick)

/-- WATCHDOG (R396). -/
def execWatchdog (r : Nat) (s : State) : Host.Outcome State Fault Refusal :=
  .next (if !s.watchdogDue r then s
    else
      let ks := s.cores.filterMap fun e => if ctxRegion (coreCtx e.1) == r && e.2.act.isSome then some e.1 else none
      let s := s.faultRegion (ks.headD (coreKey (ctxKey r 0) false)) Cause.watchdog.code 0 0
      let s := ks.foldl State.killDead s
      if (s.region r).parent.isNone then s.partitionReset (s.region r).part else s)

/-! Kills and restarts (R388). -/

/-- KILL: a core's current segment is killed, and restarts (R388). -/
def execKill (k : Nat) (s : State) : Host.Outcome State Fault Refusal := .next (s.kill k .ready)

/-- A killed core may restart: resident in its region's running state, out of monitor mode, nothing to wait for. -/
def State.mayRestart (s : State) (k : Nat) : Bool :=
  let c := s.core k
  let m := s.mcore (s.coreId k)
  (s.ctx (coreCtx k)).st == 1 && s.regionRuns (ctxRegion (coreCtx k)) && !(m.mode && m.trapCtx == some (coreCtx k)) &&
    (c.stall == .none || c.stall == .refused) && c.waitPage.isNone

/-- RESTART: from the checkpoint or the trigger, once the page named is resident (R388, R118); a kill without restart ends
the activation. -/
def execRestart (k : Nat) (s : State) : Host.Outcome State Fault Refusal :=
  .next (match (s.core k).killed with
    | .ready => if s.mayRestart k then s.restartCore k else s
    | .dead => s.modCore k fun c => { c with act := none, ckpt := none, killed := .no }
    | _ => s)

/-! Faults of the hardware (R381, R386). -/

/-- DETECTED_FAULT: counted, its data dropped, what it could reach killed; one in a run of a duplex segment shows in that run's
digest (R381, R393; log entry 20). -/
def execDetectedFault (f : FaultSite) (s : State) : Host.Outcome State Fault Refusal :=
  let count (s : State) (p : Nat) : State := s.modPart p fun q => { q with ctr := { q.ctr with detected := q.ctr.detected + 1 } }
  .next (match f with
    | .scratch x h w => (count s (s.ctxPart x)).modHandle x h fun t => if t.bad.contains w then t else { t with bad := t.bad ++ [w] }
    | .rimLine pa => match s.parts.find? fun e => e.2.enabled && e.2.pclist.contains (pa / 2 ^ 28) with
      | some e => { count s e.1 with poison := tput false (pa / 64) true s.poison }
      | none => { s with poison := tput false (pa / 64) true s.poison }
    | .saveArea x i => (count s (s.ctxPart x)).modCtx x fun c => if c.saveBad.contains i then c else { c with saveBad := c.saveBad ++ [i] }
    | .tileState site => (count s (s.partOf site)).clusterViral (clusterOf site)
    | .link cl => match (s.cluster cl).part with
      | some p => (count s p).clusterViral cl
      | none => s.clusterViral cl
    | .sliceOrEngine cl => match (s.cluster cl).part with
      | some p => (count s p).partitionReset p
      | none => s
    | .digest k run d => (count s (s.corePart k)).modCore k fun c =>
        if c.stall = Stall.duplex then { c with digests := c.digests.set run d } else c)

/-- MASKED_FAULT: corrected and counted (R381). -/
def execMaskedFault (p : Nat) (s : State) : Host.Outcome State Fault Refusal :=
  .next (s.modPart p fun q => { q with ctr := { q.ctr with masked := q.ctr.masked + 1 } })

/-- MONITOR_TIMEOUT: 2^20 cycles in monitor mode are a fatal error of the cluster (R382). -/
def execMonitorTimeout (c : CoreId) (s : State) : Host.Outcome State Fault Refusal :=
  .next (if (s.mcore c).mode && decide ((s.mcore c).entered + 2 ^ 20 ≤ s.edgesAt c.site) then s.clusterViral (clusterOf c.site) else s)

/-- VIRAL_CLUSTER_RESET: asks for the receipt that must come first (R394). -/
def execViralClusterReset (cl : Nat) (s : State) : Host.Outcome State Fault Refusal :=
  .next (if (s.cluster cl).viral then s.askDrain (.cluster cl) else s)

/-- What a core's tile keeps of it through a reset of the tile: the monitor's c file, the steal generator and the last stamp (R90, R324,
R437). -/
def MCore.restarted (m : MCore) : MCore := { c := m.c, steal := m.steal, stampTick := m.stampTick }

/-- A tile whose cores and scratchpad start anew, or that is powered down: its slices, monitor store and counts of R390 stay. -/
def Tile.restarted (t : Tile) : Tile :=
  { slice := t.slice, store := t.store, loaded := t.loaded, storeHash := t.storeHash, mismatches := t.mismatches
    stage := t.stage.restarted, compute := t.compute.restarted }

/-- Every tile of a cluster starts anew. -/
def State.restartTiles (s : State) (cl : Nat) : State :=
  { s with tiles := s.tiles.map fun (e : Nat × Tile) => if clusterOf e.1 = cl then (e.1, e.2.restarted) else e }.modCluster cl
    fun c => { c with inuse := 0, waiting := [] }

/-- A viral cluster is reset: the state of the contexts with a place there is gone, and it tests itself again (R394, R437). -/
def State.resetCluster (s : State) (cl : Nat) : State :=
  let xs := s.holders fun i => clusterOf i == cl
  let s := xs.foldl (fun s x =>
    let l := (s.ctx x).lodge
    let o := (s.ctx x).oldest
    (s.dropCtx x).modCtx x fun c => { c with lodge := l, oldest := o }) s
  let s := s.modCluster cl fun c => { c with viral := false, ready := 3, alarm := false, stretch := 0, halved := 0 }
  { s.restartTiles cl with pairs := s.pairs.filter fun e => clusterOf e.1 ≠ cl }

/-! Regions (R387). -/

/-- RESUME_REGION: a faulted region runs again and each killed activation restarts (R387). -/
def execResumeRegion (r : Nat) (s : State) : Host.Outcome State Fault Refusal :=
  .next (if (s.region r).launched && (s.region r).st == 2 then
    let s := s.modRegion r fun g => { g with st := 0 }
    { s with cores := s.cores.map fun (e : Nat × Core) =>
        if ctxRegion (coreCtx e.1) == r && e.2.killed == .held then (e.1, { e.2 with killed := .ready }) else e }
  else s.emit (.pfRefused r))

/-- END_REGION: STATE 3; the contexts are freed after a drain receipt (R387). -/
def execEndRegion (r : Nat) (s : State) : Host.Outcome State Fault Refusal :=
  .next (if (s.region r).launched && (s.region r).st == 2 then (s.endRegionNow r).askDrain (.endRegion r) else s.emit (.pfRefused r))

end Sys2Proof.Machine
end

