-- ==== Sys2Proof/Machine/Chairlift.lean ====
section
/-! DEFINITION. The chairlift: placement (R366, R367, R391), summoning and eviction (R372, R373), the swap (R374 to R376) and
the remap of a shrunken pool (R379). -/

namespace Sys2Proof.Machine

open Sys2Proof

/-! Gang policy (R368). -/

def State.policy (s : State) (r : Nat) : Nat := (s.inh 7 r).gangpol
/-- T, or 2^26 ticks where age never summons (R368, R372, R373). -/
def State.gangT (s : State) (r : Nat) : Nat := let a := s.policy r % 16; if a = 15 then 2 ^ 26 else 2 ^ (a + 12)
def State.gangN (s : State) (r : Nat) : Nat := 2 ^ (s.policy r / 16 % 8 + 2)

/-- Context x is of the region and the gang it was placed with. -/
def State.inGang (s : State) (r g x : Nat) : Bool := ctxRegion x == r && (s.ctx x).gang == g
/-- Contexts of a gang that hold a position. -/
def State.placed (s : State) (r g : Nat) : List Nat := s.ctxsOf fun x => s.inGang r g x && ((s.ctx x).st == 1 || (s.ctx x).st == 3)
/-- Contexts of a region that hold a position, a duplex region's twice (R391). -/
def State.residentCount (s : State) (r : Nat) : Nat :=
  (s.ctxsOf fun x => ctxRegion x == r && ((s.ctx x).st == 1 || (s.ctx x).st == 3)).length * (if s.duplex r then 2 else 1)

/-! Positions (R366, R367). -/

/-- A slot holds no context, is nobody's to come, no shadow's, and no receipt for a context that left it is outstanding (R395). -/
def State.slotFree (s : State) (site j : Nat) : Bool :=
  (tget none (s.tile site).slots j).isNone &&
    s.ctxs.all (fun e => !(e.2.coming && e.2.site == site && e.2.slot == j) && e.2.shadow != some (4 * site + j)) &&
    s.drains.all fun e => match e.2 with
      | some (.ctx _ i n) => !(i == site && n == j)
      | _ => true

/-- The slot at a site in which region r holds a position, a shadow's among them (R366, R391). -/
def State.heldSlot (s : State) (r site : Nat) : Option Nat :=
  s.ctxs.findSome? fun e =>
    if ctxRegion e.1 != r then none
    else if (e.2.st == 1 || e.2.st == 3) && e.2.site == site then some e.2.slot
    else e.2.shadow.bind fun n => if n / 4 == site then some (n % 4) else none
def State.siteTaken (s : State) (r site : Nat) : Bool := (s.heldSlot r site).isSome

/-- The slot a context of region r gets at a site: its twin's number where that is free, else the lowest. -/
def State.slotAt (s : State) (r site : Nat) : Option Nat :=
  match s.heldSlot r (twin site) with
  | some j => if s.slotFree site j then some j else (List.range 4).find? (s.slotFree site)
  | none => (List.range 4).find? (s.slotFree site)

/-- A site can take a new context of region r at all. -/
def State.siteOpen (s : State) (r site : Nat) : Bool :=
  s.good site && !(s.cluster (clusterOf site)).viral && (s.cluster (clusterOf site)).ready == 1 && !s.siteTaken r site

/-- Scratchpad has room for the context's handles (R367). -/
def State.roomAt (s : State) (x site : Nat) : Bool :=
  let c := s.ctx x
  let n := c.needs true
  decide (c.needs false ≤ s.granuleRoom site) &&
    (n == 0 || (s.good (twin site) && decide (n ≤ s.granuleRoom (twin site)) &&
      decide (s.twinHeld (twin site) + n ≤ min (s.tile (twin site)).twincap 192)))

/-- The sites of a region's share in placement order. -/
def State.order (s : State) (r : Nat) : List Nat := (sortOn id (s.shareOf r)).flatMap clusterSites

/-- The first position for a context, as (site, slot). -/
def State.findPos (s : State) (r x : Nat) : List Nat → Option (Nat × Nat)
  | [] => none
  | i :: is =>
    if s.siteOpen r i && s.roomAt x i then
      match s.slotAt r i with
      | some j => some (i, j)
      | none => s.findPos r x is
    else s.findPos r x is

/-- The next position after a primary's on another pair, with room for the same handles (R367, R391). -/
def State.findShadow (s : State) (r x site : Nat) : List Nat → Option Nat
  | [] => none
  | i :: is =>
    if s.siteOpen r i && pairOf i != pairOf site && s.roomAt x i then
      match s.slotAt r i with
      | some j => some (4 * i + j)
      | none => s.findShadow r x site is
    else s.findShadow r x site is

/-- Gives a placed context its granules: the deque's, then each handle's. -/
def State.giveGranules (s : State) (x : Nat) : State :=
  let c := s.ctx x
  let s := s.modCtx x fun t => { t with dequeGranules := (s.granulesFree c.site).take 4 }
  c.handles.foldl (fun s e =>
    if e.2.st = 0 then s
    else s.modHandle x e.1 fun t => { t with granules := (s.granulesFree (s.handleSite x e.1)).take t.size }) s

/-- Frames of a context: its trail area and its save block (R88, R363; log entry 32). -/
def State.areaFrames (s : State) (r : Nat) : Nat := s.trailArea r / 65536 + saveFrames

/-- Frames a region takes at its first gang: its translation table, 16 bytes an id, and a lodge queue of 64 KiB for each id (R363; log
entry 32). -/
def State.tableFrames (s : State) (r : Nat) : Nat := (16 * s.gridSize r + 65535) / 65536 + s.gridSize r

/-- The region's own frames are taken, where it has none yet. -/
def State.takeArea (s : State) (r : Nat) : State :=
  if (s.region r).area.isEmpty then
    let p := (s.region r).part
    let n := s.tableFrames r
    (s.modRegion r fun g => { g with area := (s.part p).swap.take n }).modPart p fun q => { q with swap := q.swap.drop n }
  else s

/-- Frames the pool lacks for tiles of a region to be made (R363). -/
def State.framesShort (s : State) (r : Nat) (vts : List Nat) : Bool :=
  let fresh := (vts.filter fun vt => (s.ctx (ctxKey r vt)).trailFrames.isEmpty).length
  decide ((s.part (s.region r).part).swap.length < fresh * s.areaFrames r + (if (s.region r).area.isEmpty then s.tableFrames r else 0))

/-- Places one context: STATE 3 with its new SITE and SLOT, and for a new one its frames; none where no position serves. -/
def State.place (s : State) (r g vt : Nat) : Option State :=
  let x := ctxKey r vt
  let p := (s.region r).part
  let n := s.areaFrames r
  let fresh := (s.ctx x).trailFrames.isEmpty
  let sites := s.order r
  match s.findPos r x sites with
  | none => none
  | some (i, j) =>
    let fs := if fresh then (s.part p).swap.take n else (s.ctx x).trailFrames
    let s := if fresh then s.modPart p fun q => { q with swap := q.swap.drop n } else s
    let s := (s.modCtx x fun c => { c with st := 3, coming := true, site := i, slot := j, gang := g, trailFrames := fs }).giveGranules x
    if !s.duplex r then some s
    else (s.findShadow r x i ((sites.dropWhile (· != i)).drop 1)).map fun n => s.modCtx x fun c => { c with shadow := some n }

/-- Places the tiles of a gang in ascending id; none where one does not fit. -/
def State.placeAll (s : State) (r g : Nat) : List Nat → Option State
  | [] => some s
  | vt :: vts => (s.place r g vt).bind fun s => s.placeAll r g vts

/-- The tiles of a gang that hold no position. -/
def State.gangAway (s : State) (r g : Nat) : List Nat := (s.gangOf r g).filter fun vt => (s.ctx (ctxKey r vt)).st == 0 || (s.ctx (ctxKey r vt)).st == 2

/-- A due gang is made resident where positions and QUOTA allow, as far as its tiles are not already; the caller has seen that the pool
has frames (R373). -/
def State.makeResident (s : State) (r g : Nat) : Option State :=
  let vts := s.gangAway r g
  if vts.isEmpty || decide ((s.inh 3 r).quota < s.residentCount r + vts.length * (if s.duplex r then 2 else 1)) then none
  else (s.takeArea r).placeAll r g vts

/-! Summoning (R372). -/

/-- A gang is not resident, and none of its tiles is on its way. -/
def State.awayGang (s : State) (r g : Nat) : Bool :=
  !(s.gangAway r g).isEmpty && (s.gangOf r g).all fun vt => (s.ctx (ctxKey r vt)).st != 3

/-- A region has a resident gang (R372). -/
def State.anyResident (s : State) (r : Nat) : Bool := s.ctxs.any fun e => ctxRegion e.1 == r && e.2.st == 1

/-- A gang that is not resident is due. -/
def State.gangDue (s : State) (r g : Nat) : Bool :=
  let t := s.gangT r
  let aged := s.policy r % 16 != 15
  let cs := (s.gangOf r g).map fun vt => s.ctx (ctxKey r vt)
  s.awayGang r g &&
    (cs.any (fun c => decide (s.gangN r < c.lodge.length) || decide (lodgeRoom ≤ c.lodge.length) ||
        (aged && !c.lodge.isEmpty && decide (t < (s.tick - c.oldest) % 2 ^ 40)) || (c.live && decide (c.away + t ≤ s.tick))) ||
      (s.policy r / 128 % 2 == 1 && (s.region r).hints.any fun vt => (s.gangOf r g).contains vt) ||
      ((s.gangOf r 0).head? == some g &&
        ((s.region r).firstDue || (!s.anyResident r && (s.ring r).count != 0))))

/-- The gangs of a region that could be due: those with contexts or hints, and the first. -/
def State.candidates (s : State) (r : Nat) : List Nat :=
  let vts := (s.ctxs.filterMap fun e => if ctxRegion e.1 == r then some (ctxVt e.1) else none) ++ (s.region r).hints ++ [0]
  (vts.filterMap fun vt => (s.gangOf r vt).head?).dedup

/-- The order in which due gangs are served: PRIO, OLDEST, GANG, block VA. -/
def State.dueRank (s : State) (r g : Nat) : Nat :=
  let olds := (s.gangOf r g).filterMap fun vt => let c := s.ctx (ctxKey r vt); if c.lodge.isEmpty then none else some c.oldest
  (((15 - s.prio r) * 2 ^ 48 + (olds.min?.getD (2 ^ 40)) % 2 ^ 48) * 2 ^ 24 + g) * 2 ^ 64 + (s.region r).blk.va

def State.dueGangs (s : State) (p : Nat) : List (Nat × Nat) :=
  let rs := s.regions.filterMap fun e => if e.2.launched && e.2.part == p && e.2.st != 3 && !e.2.remap then some e.1 else none
  sortOn (fun e => s.dueRank e.1 e.2) (rs.flatMap fun r => ((s.candidates r).filter (s.gangDue r)).map (r, ·))

/-! Eviction (R373). -/

/-- Gangs of a partition all of whose contexts are resident, as (region, GANG), outside viral clusters (R378). -/
def State.residentGangs (s : State) (p : Nat) : List (Nat × Nat) :=
  ((s.ctxs.filterMap fun e => if e.2.st == 1 && s.ctxPart e.1 == p then some (ctxRegion e.1, e.2.gang) else none).dedup).filter fun e =>
    (s.placed e.1 e.2).all fun x => (s.ctx x).st == 1 && !(s.cluster (clusterOf (s.ctx x).site)).viral

/-- A gang is a better one to evict than another. -/
def State.evictBefore (s : State) (a b : Nat × Nat) : Bool :=
  let w (e : Nat × Nat) : Nat := (s.inh 2 e.1).weight
  let since (e : Nat × Nat) : Nat := (((s.placed e.1 e.2).map fun x => (s.ctx x).since).max?).getD 0
  let l := s.residentCount a.1 * w b
  let r := s.residentCount b.1 * w a
  if l != r then decide (r < l)
  else if since a != since b then decide (since a < since b)
  else if (s.region a.1).blk.va != (s.region b.1).blk.va then decide ((s.region a.1).blk.va < (s.region b.1).blk.va)
  else decide (a.2 < b.2)

/-- The gang evicted for a due gang of region r. -/
def State.evictFor (s : State) (p r : Nat) : Option (Nat × Nat) :=
  let ok (e : Nat × Nat) : Bool :=
    decide (s.prio e.1 ≤ s.prio r) && (s.placed e.1 e.2).all fun x => decide ((s.ctx x).since + s.gangT e.1 ≤ s.tick)
  ((s.residentGangs p).filter ok).foldl (fun m e => match m with
    | some b => if s.evictBefore e b then some e else some b
    | none => some e) none

/-- Serves due gangs in order; one for which the pool lacks frames waits, and at the first without room one gang may be evicted (R363,
R372, R373). -/
def State.serve (s : State) (p : Nat) (tried : Bool) : List (Nat × Nat) → State
  | [] => s
  | (r, g) :: rest => if s.framesShort r (s.gangAway r g) then s.serve p tried rest else match s.makeResident r g with
    | some s => ((s.modRegion r fun t => { t with firstDue := t.firstDue && (s.gangOf r 0).head? != some g }).post (.gangSwapIn r g)).serve
        p tried rest
    | none =>
      if tried then s.serve p true rest
      else match s.evictFor p r with
        | some e => (s.post (.gangSwapOut e.1 e.2)).serve p true rest
        | none => s.serve p true rest

/-- A region whose pool changed: its gangs are sent away, and once they are, F is taken afresh (R379). -/
def State.remapRegion (s : State) (r : Nat) : State :=
  let gs := (s.ctxs.filterMap fun e => if ctxRegion e.1 == r && (e.2.st == 1 || e.2.st == 3) then some e.2.gang else none).dedup
  if gs.isEmpty then s.modRegion r fun g => { g with remap := false, pool := s.poolSize r }
  else gs.foldl (fun s g => s.post (.gangSwapOut r g)) s

/-- CHAIRLIFT_EVALUATION (R371, R372, R379, R387, R455); a checkpoint under way lets no gang in (R436). -/
def execChairliftEvaluation (p : Nat) (s : State) : Host.Outcome State Fault Refusal :=
  .next (
    let rs := s.regions.filterMap fun e => if e.2.launched && e.2.part == p && e.2.st != 3 then some e.1 else none
    let s := (rs.filter fun r => (s.region r).remap).foldl State.remapRegion s
    let s := s.ctxs.foldl (fun s e => if e.2.st == 1 && s.ctxPart e.1 == p && !e.2.lodge.isEmpty then s.post (.lodgeDrain e.1) else s) s
    let s := s.reofferAll
    let held := s.drains.any fun e => e.2 == some .checkpoint
    let s := if held then s else s.serve p false (s.dueGangs p)
    rs.foldl (fun s r => s.modRegion r fun g => { g with hints := [] }) s)

/-! Swap-out (R374). -/

/-- An uncommitted release is withdrawn: its entries are the unsealed segment again (R94). -/
def State.unsealCore (s : State) (k : Nat) : State :=
  match (s.core k).stall with
  | .release id =>
    if (s.pub id).any (·.committed) then s
    else
      let back := ((s.core k).sealedSegs.filter fun g => g.pub == id).flatMap (·.entries)
      let s := s.withdrawPub id
      let s := { s with held := s.held.map fun (h : Held) => if h.pub == some id then { h with pub := none } else h }
      s.modCore k fun c =>
        { c with stall := .none, trail := trailAddAll back c.trail, sealedSegs := c.sealedSegs.filter fun (g : SealedSeg) => g.pub != id }
  | .fp _ .retire => s.modCore k fun c => { c with stall := .none }
  | .ramp => s.modCore k fun c => { c with stall := .none }
  | .launch _ _ _ => s.modCore k fun c => { c with stall := .none }
  | _ => s

/-- Nothing of a context is under way on its tile: no release, request, chunk, matrix step, zero fill, act or monitor. -/
def State.quiet (s : State) (x : Nat) : Bool :=
  let c := s.ctx x
  let t := s.tile c.site
  !t.stage.mode && !t.compute.mode &&
    [false, true].all (fun r =>
      let k := s.core (coreKey x r)
      k.reqs.all (fun q => q.2.isNone) && !(s.actBusy (coreKey x r)) && match k.stall with
        | .release _ => false
        | .reply _ => false
        | _ => true) &&
    c.queues.all (fun q => q.cmds.all fun d => !d.inFlight) && c.cmds.all (fun m => !m.granted && !m.consumed) &&
    (t.entries ++ (s.tile (twin c.site)).entries).all fun e => !(e.ctx == x && e.kind == 1)

/-- A gang is live by this context (R372). -/
def State.liveCtx (s : State) (x : Nat) : Bool :=
  let c := s.ctx x
  !c.deque.isEmpty || !c.places.isEmpty || !c.cmds.isEmpty || c.queues.any (fun q => !q.cmds.isEmpty) ||
    [false, true].any fun r => let k := s.core (coreKey x r); k.act.isSome || k.aside.isSome || !k.held.isEmpty || !k.leaving.isEmpty

/-- Bytes a swap moves for a context (R375). -/
def State.swapBytes (s : State) (x : Nat) : Nat :=
  let c := s.ctx x
  let per (r : Bool) : Nat := 32 * min bufferRoom (s.trailTotal (coreKey x r)) +
    128 * ((s.core (coreKey x r)).held.length + (s.core (coreKey x r)).leaving.length)
  8192 + 128 * ((((s.core (coreKey x true)).act.map (·.vregs)).getD 0)) + 16384 * (c.handles.map fun e => if e.2.st != 0 then e.2.size else 0).sum +
    per false + per true + 128 * (c.places.length + c.deque.length)

/-- Swap traffic of n bytes, charged to the gang's region (R82, R376). -/
def State.swapTouch (s : State) (x n : Nat) (write : Bool) : State :=
  if (s.ctx x).trailFrames.isEmpty then s
  else (List.range ((n + 4095) / 4096)).foldl (fun s i => s.areaTouch x write (s.saveAt x (16384 + 4096 * i)) (min 4096 (n - 4096 * i))) s

/-- The scoreboard entries of a context with the places they were at. -/
def State.entriesOf (s : State) (x : Nat) : List (Nat × Nat × Nat × Nat × Bool × Nat) :=
  let one (site : Nat) : List (Nat × Nat × Nat × Nat × Bool × Nat) :=
    (s.tile site).board.filterMap fun e => e.2.bind fun b => if b.ctx == x then some (b.h, b.lo, b.hi, 16 * site + e.1, b.writes, b.kind) else none
  one (s.ctx x).site ++ one (twin (s.ctx x).site)

/-- The counts a slot's context takes with it (R212). -/
def countsOf (map : W64) (slot : Nat) (count : Nat → Nat) : List (Nat × Nat) :=
  (List.range 16).filterMap fun n => if assigned map n slot then some (n, count n) else none

/-- Saves one context and frees its position: accumulators to the save area, counts, terms and entries with the context, undeclared
vector registers dropped; it is a multicast's destination no more (R192, R204, R298, R374 to R376). -/
def State.saveCtx (s : State) (x : Nat) : State :=
  let s := (s.refuseDests x).modCtx x Ctx.settleQueues
  let c := s.ctx x
  let t := s.tile c.site
  let own := t.owned c.slot
  let n := ((s.core (coreKey x true)).act.map (·.vregs)).getD 0
  let live := s.liveCtx x
  let es := s.entriesOf x
  let bytes := s.swapBytes x
  let s := own.foldl (fun s i => s.saveTouch x i true) (s.swapTouch x bytes true)
  let s := s.modCtx x fun c =>
    { c with
      savedBytes := bytes
      save := own.foldl (fun (m : Tbl (List W32)) i => tput [] i (t.accAt i) m) c.save
      saved := (c.saved ++ own).dedup
      saveBad := c.saveBad.filter fun i => !own.contains i
      sems := countsOf t.semmap c.slot fun i => tget 0 t.sem i
      events := countsOf t.evmap c.slot fun i => min 65535 (tget 0 t.ev i + tget 0 t.evNext i)
      terms := t.terms.filter fun e => termSlot e.2 == c.slot && termOn e.2
      entries := es
      v := c.v.filter fun e => decide (e.1 < n)
      away := s.tick, live := live, shadow := none }
  let s := (s.licSwapOut x).vacate x
  (s.modCtx x fun c => { c with st := 2 }).askDrain (.ctx x c.site c.slot)

/-- GANG_SWAP_OUT: the gang is in transit and the NI caches drop it; once every context has stopped, all are saved. None is started
from a viral cluster, and one under way leaves the contexts of such a cluster to its reset (R374, R378). -/
def execGangSwapOut (r gang : Nat) (s : State) : Host.Outcome State Fault Refusal :=
  .next (
    let all := s.placed r gang
    let viral (x : Nat) : Bool := (s.cluster (clusterOf (s.ctx x).site)).viral
    let xs := all.filter fun x => !viral x
    if xs.isEmpty || all.any (fun x => (s.ctx x).coming) || (all.any viral && xs.all fun x => (s.ctx x).st == 1) then s
    else
      let p := (s.region r).part
      let s := (s.invalidateNi p xs)
      let s := xs.foldl (fun s x =>
        ((s.modCtx x fun c => { c with st := 3 }).stopMats x |>.unsealCore (coreKey x false)).unsealCore (coreKey x true)) s
      if xs.all s.quiet then
        (xs.foldl State.saveCtx s).modPart p fun q => { q with ctr := { q.ctr with swaps := q.ctr.swaps + 1 } }
      else s.later (.gangSwapOut r gang))

/-! Swap-in (R374). -/

/-- A number the context needs is assigned, or a term it needs is in use (R212). -/
def State.swapConflict (s : State) (x : Nat) : Bool :=
  let c := s.ctx x
  let t := s.tile c.site
  let taken (map : W64) (n : Nat) : Bool := map.toNat / 16 ^ n / 4 % 2 == 1
  c.sems.any (fun e => taken t.semmap e.1) || c.events.any (fun e => taken t.evmap e.1) ||
    c.terms.any fun e => termOn (tget 0#64 t.terms e.1)

/-- The fields of the numbers named get the slot, and VALID (R212). -/
def assignTo (map : W64) (slot : Nat) (es : List (Nat × Nat)) : W64 :=
  es.foldl (fun m e => BitVec.ofNat 64 (m.toNat - m.toNat / 16 ^ e.1 % 16 * 16 ^ e.1 + (slot + 4) * 16 ^ e.1)) map

/-- Where a command's scoreboard entry is now. -/
def moved (m : List (Nat × (Nat × Nat))) (e : Nat × Nat) : Nat × Nat := ((m.find? fun a => a.1 == 16 * e.1 + e.2).map (·.2)).getD e

/-- The saved scoreboard entries stand again, and the commands name them; none where the scoreboard is full. -/
def State.restoreEntries (s : State) (x : Nat) : Option State :=
  let es := (s.ctx x).entries
  (s.addEntries (es.map fun e => { ctx := x, h := e.1, lo := e.2.1, hi := e.2.2.1, writes := e.2.2.2.2.1, kind := e.2.2.2.2.2 })).map
    fun r =>
      let m := (es.map fun e => e.2.2.2.1).zip r.1
      r.2.modCtx x fun c =>
        { c with
          entries := []
          cmds := c.cmds.map fun (d : MatCmd) => { d with entries := d.entries.map (moved m) }
          copyq := c.copyq.map fun (q : Nat × CopyQ) => (q.1, { q.2 with cmds := q.2.cmds.map fun (d : CopyCmd) =>
            { d with entry := d.entry.map (moved m), dests := d.dests.map fun (t : Dest) => { t with entry := t.entry.map (moved m) } } }) }

/-- The acquire a core repeats at swap-in, with its tails taken now (R105). -/
def State.swapTarget (s : State) (k : Nat) : Stamp :=
  match (s.core k).acq with
  | .start t => t
  | .list ts => s.listTarget (ctxRegion (coreCtx k)) ts
  | .all => s.allTarget

/-- One context is restored at its position, what was saved is read back, each core repeats its last acquire, an idle one too, and a kill
that waited for it is taken (R105, R376, R378); none where its scoreboard entries do not fit yet. -/
def State.restoreCtx (s : State) (x : Nat) : Option State :=
  let c := s.ctx x
  (s.restoreEntries x).map fun s =>
    let s := (s.zeroWindow c.site c.slot).modTile c.site fun t =>
      { t with
        slots := tput none c.slot (some x) t.slots
        sem := c.sems.foldl (fun m e => tput 0 e.1 e.2 m) t.sem
        ev := c.events.foldl (fun m e => tput 0 e.1 e.2 m) t.ev
        semmap := assignTo t.semmap c.slot c.sems
        evmap := assignTo t.evmap c.slot c.events
        terms := c.terms.foldl (fun m e =>
          tput 0#64 e.1 (BitVec.ofNat 64 (e.2.toNat / 2 ^ 42 * 2 ^ 42 + c.slot * 2 ^ 40 + e.2.toNat % 2 ^ 40)) m) t.terms
        stage := { t.stage with asleep := false }
        compute := { t.compute with asleep := false } }
    let s := s.modCtx x fun c => { c with st := 1, coming := false, conflict := false, since := s.tick, sems := [], events := [], terms := [], live := false, savedBytes := 0 }
    let s := match (s.core (coreKey x true)).act with
      | some a => powerBanks s x a.vregs
      | none => s
    let s := [false, true].foldl (fun s r =>
      let k := coreKey x r
      let s := if c.savedBytes = 0 then s else s.modCore k fun t => { t with due := some (s.swapTarget k) }
      let s := match (s.core k).killLater with
        | some how => s.kill k how
        | none => s
      if (s.core k).leaving.isEmpty || s.inFlight k then s else s.sendHead k) s
    (s.swapTouch x c.savedBytes false).drain x

def State.restoreAll (s : State) : List Nat → Option State
  | [] => some s
  | x :: xs => (s.restoreCtx x).bind fun s => s.restoreAll xs

/-- GANG_SWAP_IN: the contexts placed are restored and resident, unless the monitor left a number they need assigned, which
is reported once a swap-in (R212, R374). -/
def execGangSwapIn (r gang : Nat) (s : State) : Host.Outcome State Fault Refusal :=
  .next (
    let xs := (s.placed r gang).filter fun x => (s.ctx x).coming && !(s.cluster (clusterOf (s.ctx x).site)).viral
    match xs.find? s.swapConflict with
    | some x =>
      (if (s.ctx x).conflict then s else (s.emit (.pfReport 1 (s.ctx x).site)).modCtx x fun c => { c with conflict := true }).later (.gangSwapIn r gang)
    | none => match s.restoreAll xs with
      | some s => s
      | none => s.later (.gangSwapIn r gang))

/-! The translation table (R362). -/

/-- The entry of a virtual tile, dword 0 and dword 1, as the partition manager reads it through the physical function. -/
def State.tableEntry (s : State) (r vt : Nat) : W64 × W64 :=
  let c := s.ctx (ctxKey r vt)
  let place := if c.st = 0 then 0 else c.site % 2 ^ 14 * 2 + c.slot * 2 ^ 15
  let gang := (s.gangOf r vt).headD 0
  let oldest := if c.lodge.isEmpty then 0 else c.oldest % 2 ^ 40
  (BitVec.ofNat 64 (bit01 (c.st == 1 && c.lodge.isEmpty) + place + c.st * 2 ^ 17 + gang % 2 ^ 24 * 2 ^ 32),
   BitVec.ofNat 64 (min 65535 c.lodge.length + oldest * 2 ^ 24))

/-- REGION_SHARE_WRITE: the set of clusters a region may place contexts on; contexts outside it leave (R365, R379). -/
def execRegionShareWrite (r : Nat) (cls : List Nat) (s : State) : Host.Outcome State Fault Refusal :=
  .next (
    let g := s.region r
    if s.failed || !g.launched || g.st == 3 || !(cls.all fun c => (s.part g.part).clusters.contains c) then s.emit (.pfRefused r)
    else
      let s := s.modRegion r fun g => { g with share := some cls }
      let outside := s.ctxs.any fun e => ctxRegion e.1 == r && (e.2.st == 1 || e.2.st == 3) && !(s.shareOf r).contains (clusterOf e.2.site)
      if s.poolSize r == g.pool && !outside then s else s.modRegion r fun g => { g with remap := true })

end Sys2Proof.Machine
end

