-- ==== Sys2Proof/Machine/Rim.lean ====
section
/-! DEFINITION. Translation towards the host (R66, R67), invalidation (R68, R69), pages coming (R71), table entries (R72), rim
allocations (R75 to R77) and the stacks' commands (R81 to R83). -/

namespace Sys2Proof.Machine

open Sys2Proof

def State.setHostReq (s : State) (id : Nat) (h : Option HostReq) : State := { s with hostReqs := tput none id h s.hostReqs }
def State.setInval (s : State) (id : Nat) (n : Option Inval) : State := { s with invals := tput none id n s.invals }
/-- A partition's every slice drops the translations that f holds of. -/
def State.dropStb (s : State) (p : Nat) (f : StbEntry → Bool) : State :=
  (s.part p).sliceIds.foldl (fun s i => s.modSlice i fun l => { l with stb := l.stb.filter fun e => !f e }) s

/-! Host translations (R66, R67). -/

/-- Whoever waits for a translation asks again: a request in its slot by its event, any other at its own next turn. -/
def State.tell (s : State) (who : Asker) : State :=
  match who with
  | .request k id => match tget none (s.core k).reqs id with
    | some q => match q.kind with
      | .atomic _ _ _ _ _ _ => s.post (.atomicEngineRequest (s.engineOf (s.corePart k) q.va))
      | _ => s.post (.loadRequest k id)
    | none => s
  | _ => s
def State.tellAll (s : State) (l : List Asker) : State := l.foldl State.tell s

/-- Sends the page request of a completion that lacked permission, 256 at most in a partition; its accesses then see HOSTPRI
(R67). -/
def State.askPri (s : State) (id : Nat) (h : HostReq) : State :=
  let n := (s.hostReqs.filter fun e => e.2.any fun g => g.part == h.part && g.pri).length
  if n < 256 then
    ((s.setHostReq id (some { h with pri := true, queued := false, waiting := [] })).emit
      (.priRequest (nearestPort (h.slice / 4)) (h.vf.getD 0) (Config.pasid (h.vf.getD 0)) h.page)).tellAll h.waiting
  else s.setHostReq id (some { h with queued := true })

/-- The next page request of a partition that waited for one to complete. -/
def State.nextPri (s : State) (p : Nat) : State :=
  match s.hostReqs.find? fun e => e.2.any fun h => h.part == p && h.queued with
  | some (id, some h) => s.askPri id h
  | _ => s

/-- The buffer entry of a completion for a VF: the host page around the address asked for, of 4 KiB at least and cut to the 64 KiB page that
was touched, at its place in what the host translated (R66; log entry 39). -/
def hostEntry (vf : Option Nat) (page host size : Nat) (r w : Bool) : StbEntry :=
  let z := max 4096 size
  let n := min z 65536
  let va := page * 4096 / n * n
  { va := va, size := n, dev := false, frame := host / z * z + va % z, vf := vf, r := r, w := w }

/-- ATS_TRANSLATION_COMPLETION: an answer to a request that an invalidation overtook is not used, and whoever waits asks again (R66 to
R69; log entry 89). -/
def execAtsTranslationCompletion (id host size : Nat) (r w unsupported : Bool) (s : State) : Host.Outcome State Fault Refusal :=
  .next (match tget none s.hostReqs id with
    | none => s
    | some h =>
      if h.pri || h.queued || !h.denied.isEmpty then s
      else if h.stale then (s.setHostReq id none).tellAll h.waiting
      else if unsupported then
        (s.setHostReq id (if h.waiting.isEmpty then none else some { h with denied := h.waiting, waiting := [] })).tellAll h.waiting
      else
        let s := s.modSlice h.slice fun l =>
          { l with stb := l.stb.filter fun e => e.dev || e.vf != h.vf || !e.covers (h.page * 4096) }
        let s := if r || w then s.addStb h.part h.slice (hostEntry h.vf h.page host size r w) else s
        if (if h.access == .load then r else w) then (s.setHostReq id none).tellAll h.waiting else s.askPri id h)

/-- Context x would translate a page for the VF: every one of the partition for a device page, where there is none (R66). -/
def State.sharesPage (s : State) (p : Nat) (vf : Option Nat) (x : Nat) : Bool :=
  s.ctxPart x == p && (vf.isNone || s.vfOf (ctxRegion x) == vf)

/-- An address lies in a page that came or was refused: a 4 KiB host page where the VF is given, else a 64 KiB device page. -/
def inPage (page : Nat) (vf : Option Nat) (va : Nat) : Bool :=
  devHalf va == vf.isNone && (if vf.isSome then hostPage va else va / 65536) == page

/-- A killed segment of partition p waits for a page, a host page where the VF is given. -/
def State.waitsFor (s : State) (p page : Nat) (vf : Option Nat) (e : Nat × Core) : Bool :=
  s.sharesPage p vf (coreCtx e.1) && e.2.waitPage.any fun w => inPage page vf w.va

def CopyCmd.pageHere (page : Nat) (vf : Option Nat) (c : CopyCmd) : CopyCmd :=
  if c.waitPage.any (inPage page vf) then { c with waitPage := none } else c
def CopyQ.pageHere (page : Nat) (vf : Option Nat) (q : CopyQ) : CopyQ := { q with cmds := q.cmds.map (CopyCmd.pageHere page vf) }

/-- Segments that wait for a page may restart, and chunks that wait for it go on (R67, R71, R180). -/
def State.pageCame (s : State) (p page : Nat) (vf : Option Nat) : State :=
  { s with
    cores := s.cores.map fun (e : Nat × Core) => if s.waitsFor p page vf e then (e.1, { e.2 with waitPage := none }) else e
    ctxs := s.ctxs.map fun (e : Nat × Ctx) =>
      if !s.sharesPage p vf e.1 then e
      else (e.1, { e.2 with copyq := e.2.copyq.map fun q => (q.1, q.2.pageHere page vf) }) }

/-- Queues whose head waits for a page, with the address it waits at. -/
def State.chunksFor (s : State) (p page : Nat) (vf : Option Nat) : List (Nat × Nat × Nat) :=
  s.ctxs.flatMap fun e =>
    if !s.sharesPage p vf e.1 then []
    else e.2.copyq.filterMap fun q => (q.2.cmds.head?.bind (·.waitPage)).bind fun va =>
      if inPage page vf va then some (e.1, q.1, va) else none

/-- A reply on its way to its core that reports HOSTPRI on a refused page reports HOSTDENY (R67). -/
def ReqEnd.refusePage (page : Nat) (vf : Option Nat) : ReqEnd → ReqEnd
  | .abort c va info =>
    if c = Cause.pageFault.code ∧ info % 16 = FaultKind.hostpri.code ∧ inPage page vf va then .abort c va (info + 1) else .abort c va info
  | e => e

/-- The replies of a partition's cores on the refused page of a VF. -/
def State.refuseReplies (s : State) (p page : Nat) (vf : Option Nat) : State :=
  { s with cores := s.cores.map fun (e : Nat × Core) =>
      if s.sharesPage p vf (coreCtx e.1) then
        (e.1, { e.2 with reqs := e.2.reqs.map fun q => (q.1, q.2.map fun r => { r with done := r.done.map (·.refusePage page vf) }) })
      else e }

/-- The host refused a page: each waiting segment is reported as HOSTDENY of its own access and not requeued, each waiting chunk faults
(R67, R71, R180). -/
def State.pageDenied (s : State) (p page : Nat) (vf : Option Nat) : State :=
  let ks := (s.cores.filter (s.waitsFor p page vf)).map (·.1)
  let s := ks.foldl (fun s k => match (s.core k).waitPage with
    | some w => (s.modCore k fun c => { c with waitPage := none, killed := .held }).faultRegion k Cause.pageFault.code w.va (pfInfo .hostdeny w.acc)
    | none => s) (s.refuseReplies p page vf)
  (s.chunksFor p page vf).foldl (fun s e =>
    (s.setHead e.1 e.2.1 fun c => { c with waitPage := none }).copyFault e.1 e.2.1 0 FaultKind.hostdeny.code e.2.2) s

/-- PRG_RESPONSE (R67). -/
def execPrgResponse (id : Nat) (ok : Bool) (s : State) : Host.Outcome State Fault Refusal :=
  .next (match tget none s.hostReqs id with
    | none => s
    | some h =>
      if !h.pri then s
      else
        let s := s.setHostReq id none
        (if ok then s.pageCame h.part h.page h.vf else s.pageDenied h.part h.page h.vf).nextPri h.part)

/-! Invalidation (R68, R69). -/

def Inval.covers (n : Inval) (va size : Nat) (dev : Bool) : Bool := decide (n.lo < va + size) && decide (va < n.hi) && (!n.host || !dev)
def Inval.coversEntry (n : Inval) (e : StbEntry) : Bool := n.covers e.va e.size e.dev

/-- A notice translated with a covered entry is under way. -/
def State.noticeUnder (s : State) (n : Inval) : Bool :=
  s.pubs.any fun e => e.2.any fun p => p.part == n.part && p.pagesLeft.any fun g => n.covers (g * 65536) 65536 (devHalf (g * 65536))

/-- Starts an invalidation. -/
def State.invalidate (s : State) (p lo hi : Nat) (host : Bool) : State :=
  ((s.setInval s.seq (some { part := p, lo := lo, hi := hi, host := host })).post (.invalidationComplete s.seq)).bump

/-- Requests that have been served and not yet answered. -/
def State.servedReqs (s : State) (p : Nat) : List (Nat × Nat) :=
  s.cores.flatMap fun e => if s.corePart e.1 == p then e.2.reqs.filterMap fun q =>
    if q.2.any fun r => r.done.isSome then some (e.1, q.1) else none else []

def State.stillServed (s : State) (q : Nat × Nat) : Bool := (tget none (s.core q.1).reqs q.2).any fun r => r.done.isSome

/-- The answer to a request sent before covered entries are dropped is of no use after it (R68, R69). -/
def State.staleReqs (s : State) (n : Inval) : State :=
  { s with hostReqs := s.hostReqs.map fun (e : Nat × Option HostReq) => (e.1, e.2.map fun h =>
      if h.part == n.part && !h.pri && h.denied.isEmpty && n.covers (h.page * 4096) 4096 false then { h with stale := true } else h) }

/-- INVALIDATION_COMPLETE: once no notice uses a covered entry, all are dropped, and what the host answers to requests sent before is stale;
once what they served has ended, the completion returns (R68, R69). -/
def execInvalidationComplete (id : Nat) (s : State) : Host.Outcome State Fault Refusal :=
  .next (match tget none s.invals id with
    | none => s
    | some n =>
      if !n.dropped then
        if s.noticeUnder n then s.later (.invalidationComplete id)
        else
          let chunks := s.flying.filterMap fun e => e.2.bind fun f => if s.ctxPart f.ctx == n.part then some e.1 else none
          (((s.dropStb n.part n.coversEntry).staleReqs n).setInval id
            (some { n with dropped := true, reqs := s.servedReqs n.part, chunks := chunks })).later (.invalidationComplete id)
      else if n.reqs.any s.stillServed || n.chunks.any (fun c => (tget none s.flying c).isSome) then s.later (.invalidationComplete id)
      else (s.setInval id none).emit (.invalDone id))

/-- INVALIDATE_VA_RANGE: of VAs lo to hi − 1 (R68). -/
def execInvalidateVaRange (p lo hi : Nat) (s : State) : Host.Outcome State Fault Refusal := .next (s.invalidate p lo hi false)

/-- INVALIDATE_PARTITION (R68). -/
def execInvalidatePartition (p : Nat) (s : State) : Host.Outcome State Fault Refusal := .next (s.invalidate p 0 (2 ^ 56) false)

/-- ATS_INVALIDATE_REQUEST: the host's, of the host half alone (R68). -/
def execAtsInvalidateRequest (p lo hi : Nat) (s : State) : Host.Outcome State Fault Refusal := .next (s.invalidate p lo hi true)

/-- RESUME_PAGE (R71). -/
def execResumePage (p va : Nat) (s : State) : Host.Outcome State Fault Refusal := .next (s.pageCame p (va / 65536) none)

/-! Writes by the physical function (R72, R75, R77, R78). -/

/-- Clears the tags of the granules that rim addresses [pa, pa + n) touch (R58). -/
def State.clearTags (s : State) (q : Partition) (pa n : Nat) : State :=
  let cell (i : Nat) : Nat := q.cell ((pa / 16 + i) * 16) / 16
  { s with rimTags := (List.range ((pa + n + 15) / 16 - pa / 16)).foldl (fun m i => tput false (cell i) false m) s.rimTags }

/-- WRITE_TABLE_ENTRY: 8 aligned bytes inside the allocation, charged to nobody (R72). -/
def execWriteTableEntry (p pa : Nat) (v : W64) (s : State) : Host.Outcome State Fault Refusal :=
  .next (
    let q := s.part p
    if !q.enabled || pa % 8 != 0 || !q.inside pa (pa + 8) then s.emit (.pfRefused p)
    else (((s.rimWrite q pa 8 v.toNat).clearTags q pa 8).dropLine p pa).rimTouch p none true pa 8)

/-- A context is stopped: none of its segments is still being published, and it is not resident, or its region does not run and nothing of
it is under way on its tile. -/
def State.stopped (s : State) (x : Nat) : Bool :=
  s.pubs.all (fun e => e.2.all fun p => p.published || coreCtx p.core != x) &&
    ((s.ctx x).st == 0 || (s.ctx x).st == 2 || ((s.ctx x).st == 1 && !s.regionRuns (ctxRegion x) && s.quiet x))
/-- Every context of a partition is stopped. -/
def State.allStopped (s : State) (p : Nat) : Bool := s.ctxs.all fun e => s.ctxPart e.1 != p || s.stopped e.1

/-- Another partition gave up the clusters or pseudo-channels that f holds of, and its drain receipt is outstanding (R77, R80). -/
def State.releasing (s : State) (p : Nat) (f : List Nat → List Nat → Bool) : Bool :=
  s.drains.any fun e => match e.2 with
    | some (.release q cls chans) => q != p && f cls chans
    | _ => false

/-- Another enabled partition holds a pseudo-channel, or has not drained it. -/
def State.chanTaken (s : State) (p pc : Nat) : Bool :=
  s.parts.any (fun e => e.1 != p && e.2.enabled && e.2.rimEn && e.2.pclist.contains pc) ||
    s.releasing p fun _ chans => chans.contains pc

/-- What a partition gives up waits for its drain receipt (R77, R80). -/
def State.release (s : State) (p : Nat) (cls chans : List Nat) : State :=
  if cls.isEmpty && chans.isEmpty then s
  else ({ s with drains := tput none s.seq (some (.release p cls chans)) s.drains }.post (.drainReceipt s.seq)).bump

/-- A channel list that EN may be set with (R75, R77). -/
def State.pclistOk (s : State) (p : Nat) (pcs : List Nat) : Bool :=
  decide (pcs.length ≤ 12288) && decide pcs.Nodup && pcs.all fun pc =>
    decide (pc < 12288) && !s.chanTaken p pc && (match (s.chan pc).owner with | some o => o == p | none => true)

def rimCount (v : W64) : Nat := v.toNat / 2 ^ 48 % 2 ^ 14
def rimBase (v : W64) : Nat := v.toNat / 2 ^ 28 % 2 ^ 20
def rimOn (v : W64) : Bool := bitAt v 63

/-- A frame of a pool: aligned, inside the allocation. -/
def frameOk (q : Partition) (f : Nat) : Bool := f % 65536 == 0 && q.inside f (f + 65536)

/-- The frames in which a partition holds something: swap and trail areas, overflow and staged frames. -/
def State.framesInUse (s : State) (p : Nat) : List Nat :=
  s.regions.flatMap (fun e => if e.2.part == p then e.2.area else []) ++
    s.ctxs.flatMap (fun e => if s.ctxPart e.1 == p then e.2.trailFrames else []) ++ (s.part p).sliceIds.flatMap fun i =>
      (s.slice i).frames ++ (s.slice i).staging.flatMap fun e => (e.2.map fun g => [g.old, g.new]).getD []

/-- What RIMPART and its list describe. -/
def rimpartOf (v : W64) (pcs : List Nat) : Partition := { base := rimBase v, pccount := rimCount v, rimEn := rimOn v, pclist := pcs }

/-- RIMPART and its list may be written so: a list as it must be, on stacks that are ready, and every frame in use inside (R75, R76,
R435). -/
def State.rimpartOk (s : State) (p : Nat) (v : W64) (pcs : List Nat) : Bool :=
  (!rimOn v || (pcs.length == rimCount v && s.pclistOk p pcs)) && pcs.all (fun pc => tget 0 s.hbm (pc / 256) == 1) &&
    (s.framesInUse p).all (frameOk (rimpartOf v pcs))

/-- The slices of a partition hold nothing of rim memory (R78). -/
def State.clearCaches (s : State) (p : Nat) : State :=
  (s.part p).sliceIds.foldl (fun s i => s.modSlice i fun l => { l with stb := l.stb.filter fun e => !e.dev, chains := [] }) s

/-- Sets RIMPART and PCLIST; the channels' data is then this partition's. -/
def State.setRimpart (s : State) (p : Nat) (v : W64) (pcs : List Nat) : State :=
  let s := (s.clearCaches p).modPart p fun q => { q with base := rimBase v, pccount := rimCount v, rimEn := rimOn v, pclist := pcs }
  if rimOn v then pcs.foldl (fun s pc => s.modChan pc fun c => { c with owner := some p }) s else s

/-- RIMPART_WRITE: with every context stopped, and every frame of the pools or in use inside the new allocation; a refused write changes nothing. The
channels dropped wait for a drain receipt (R75 to R77). -/
def execRimpartWrite (p : Nat) (v : W64) (pcs : List Nat) (s : State) : Host.Outcome State Fault Refusal :=
  .next (
    let pools := (s.part p).swap ++ (s.part p).shadow
    if s.failed || !s.allStopped p || !s.rimpartOk p v pcs || (rimOn v && !pools.all (frameOk (rimpartOf v pcs))) then s.emit (.pfRefused p)
    else
      let old := if (s.part p).enabled && (s.part p).rimEn then (s.part p).pclist else []
      (s.setRimpart p v pcs).release p [] (old.filter fun pc => !(rimOn v && pcs.contains pc)))

/-- PSEUDO_CHANNEL_ZERO: data, tags and codes of a channel that no enabled partition holds; nothing of what it did before is left (R77,
R82). -/
def execPseudoChannelZero (pc : Nat) (s : State) : Host.Outcome State Fault Refusal :=
  .next (if 12288 ≤ pc || s.chanTaken 121 pc then s.emit (.pfRefused pc)
    else (s.zeroCells (pc * 2 ^ 28) ((pc + 1) * 2 ^ 28)).modChan pc fun _ => {})

/-- Sets the tags of the granules that rim addresses [pa, pa + n) touch: those given, where the write covers the granule whole (R50,
R58). -/
def State.putTags (s : State) (q : Partition) (pa n : Nat) (tags : List Bool) : State :=
  let g (i : Nat) : Nat := pa / 16 + i
  let whole (i : Nat) : Bool := decide (pa ≤ 16 * g i) && decide (16 * g i + 16 ≤ pa + n)
  { s with rimTags := (List.range ((pa + n + 15) / 16 - pa / 16)).foldl (fun m i =>
      tput false (q.cell (16 * g i) / 16) (whole i && tags.getD i false) m) s.rimTags }

/-- A line's versions after a write from outside of bytes m: every view reads them. -/
def Chain.overwrite (c : Chain) (m : W64) (l : BitVec 512 × BitVec 4) : Chain :=
  let touched (i : Nat) : Bool := m.toNat / 2 ^ (16 * i) % 65536 != 0
  let tags (t : BitVec 4) : BitVec 4 :=
    BitVec.ofNat 4 ((List.range 4).foldl (fun n i => n + bit01 (if touched i then bitAt l.2 i else bitAt t i) * 2 ^ i) 0)
  { base := BitVec.ofNat 512 (mixBytes 64 m.toNat c.base.toNat l.1.toNat), tags := tags c.tags
    writes := c.writes.map fun (w : LineWrite) => { w with mask := w.mask &&& ~~~ m, tags := tags w.tags } }

/-- The slices of a partition drop the lines of which no version is kept; a line of a write to [pa, pa + n) that has versions takes the
bytes written (R78). -/
def State.refreshLines (s : State) (p pa n : Nat) : State :=
  let q := s.part p
  let mask (l : Nat) : W64 := BitVec.ofNat 64 ((List.range 64).foldl (fun m i =>
    if decide (pa ≤ 64 * l + i) && decide (64 * l + i < pa + n) then m + 2 ^ i else m) 0)
  let fresh (e : Nat × Option Chain) : Nat × Option Chain :=
    if mask e.1 = 0#64 then e
    else (e.1, e.2.map fun c => c.overwrite (mask e.1) (BitVec.ofNat 512 (s.rimRead q (64 * e.1) 64), s.rimLineTags q e.1))
  q.sliceIds.foldl (fun s i => s.modSlice i fun l =>
    { l with chains := (l.chains.filter fun e => e.2.any fun c => !c.writes.isEmpty).map fresh }) s

/-- The physical function's access to the allocation of an enabled partition that is stopped (R78): bytes and tags written, codes of
lines covered whole renewed, and the slices' lines dropped. -/
def execPhysicalFunctionWrite (p pa : Nat) (d : PfData) (s : State) : Host.Outcome State Fault Refusal :=
  .next (
    let q := s.part p
    let n := d.bytes.length
    if !q.enabled || !s.allStopped p || !q.inside pa (pa + n) then s.emit (.pfRefused p)
    else
      let lines := (List.range ((pa + n + 63) / 64 - pa / 64)).map (pa / 64 + ·)
      let s := (((s.rimWrite q pa n (leNat d.bytes)).putTags q pa n d.tags).refreshLines p pa n)
      let s := lines.foldl (fun s l =>
        if pa ≤ 64 * l ∧ 64 * l + 64 ≤ pa + n then { s with poison := tput false (q.cell (64 * l) / 64) false s.poison } else s) s
      s.rimTouch p none true pa n)

/-! Commands of the stacks (R81 to R83). -/

/-- The bank of a row. -/
def bankOf (row : Nat) : Nat := row % 16

/-- Charges n units on a channel: to a region and its partition, which held the channel when the request came, to nobody for the physical
function and the controller; either way the stack is busy (R82, R83, R414). -/
def State.chargeUnits (s : State) (pc n : Nat) (reg : Option Nat) : State :=
  let s := { s with parts := s.parts.map fun (e : Nat × Partition) =>
    if e.2.enabled && e.2.pclist.any fun c => c / 256 == pc / 256 then
      (e.1, { e.2 with ctr := { e.2.ctr with stackBusy := e.2.ctr.stackBusy + n } }) else e }
  match reg with
  | none => s
  | some r =>
    let s := s.modPart (s.region r).part fun q => { q with rimocc := min (2 ^ 64 - 1) (q.rimocc + n) }
    (s.debitOcc r n).noteBudgets

/-- The command the head request of a channel needs next; the controller serves requests in the order they came (R81, R82; log entry
72). -/
def State.rimCommand (s : State) (pc : Nat) : State :=
  let c := s.chan pc
  match c.queue with
  | [] => s
  | q :: qs =>
    let bank := bankOf q.row
    let again (s : State) : State := s.post (.rimCommandIssue pc)
    match tget none c.rows bank with
    | none => again ((s.modChan pc fun c => { c with rows := tput none bank (some { row := q.row, region := q.region, last := s.tick }) c.rows }).chargeUnits
        pc 12 q.region)
    | some o =>
      if o.row != q.row then again ((s.modChan pc fun c => { c with rows := tput none bank none c.rows }).chargeUnits pc 6 q.region)
      else if c.lastWrite == some (!q.write) then again ((s.modChan pc fun c => { c with lastWrite := some q.write }).chargeUnits pc 8 q.region)
      else
        let s := (s.modChan pc fun c =>
          { c with queue := qs, lastWrite := some q.write, rows := tput none bank (some { o with last := s.tick }) c.rows }).chargeUnits pc 4 q.region
        if qs.isEmpty then s else again s

/-- RIM_COMMAND_ISSUE (R81). -/
def execRimCommandIssue (pc : Nat) (s : State) : Host.Outcome State Fault Refusal := .next (s.rimCommand pc)

/-- A row has been idle for 64 command cycles of 1.171875 GHz (R81). -/
def State.rowIdle (s : State) (pc bank : Nat) : Bool :=
  (tget none (s.chan pc).rows bank).any fun o => decide (64 * 288 ≤ 125 * (s.tick - o.last))

/-- IDLE_PRECHARGE: charged to the region whose request opened the row (R81, R82). -/
def execIdlePrecharge (pc bank : Nat) (s : State) : Host.Outcome State Fault Refusal :=
  .next (match tget none (s.chan pc).rows bank with
    | some o => if s.rowIdle pc bank then
        (s.modChan pc fun c => { c with rows := tput none bank none c.rows }).chargeUnits pc 6 o.region else s
    | none => s)

/-- REFRESH: rows are closed for it, charged to nobody (R81). -/
def execRefresh (pc : Nat) (s : State) : Host.Outcome State Fault Refusal := .next (s.modChan pc fun c => { c with rows := [] })

/-- SCRUB: a corrected error is read and written back, charged to nobody (R81). -/
def execScrub (pa : Nat) (s : State) : Host.Outcome State Fault Refusal :=
  .next (
    let pc := pa / 2 ^ 28
    let row := pa % 2 ^ 28 / 1024
    let q := (s.chan pc).queue
    let s := s.modChan pc fun c => { c with queue := q ++ [{ row := row, write := false, region := none }, { row := row, write := true, region := none }] }
    if q.isEmpty then s.post (.rimCommandIssue pc) else s)

end Sys2Proof.Machine
end

