-- ==== Sys2Proof/Machine/Partition.lean ====
section
/-! DEFINITION. What the partition manager does through the physical function (R398 to R403, R416), meters and their chain (R404
to R409, R412), counters (R414), energy (R415), and drain receipts as they complete (R395). -/

namespace Sys2Proof.Machine

open Sys2Proof

/-! Meters and their chain (R404 to R408). -/

/-- The PCIe Subsystem ID of the part (R1). -/
def subsystemId : Nat := 0x0A01 + min Config.part 2

/-- LID (R409). -/
def State.lid (s : State) : Byte := BitVec.ofNat 8 (bit01 s.lidOpened + 2 * bit01 s.lidOpen + 4 * bit01 s.lidSensor)

/-- The bitmap of clusters that belong to a partition. -/
def State.clusterBits (s : State) (p : Nat) : Nat :=
  (List.range 121).foldl (fun n c => if (s.cluster c).part == some p then n + 2 ^ c else n) 0

/-- Record n of a partition, 64 bytes (R407). -/
def State.meterRecord (s : State) (p n : Nat) : List Byte :=
  let q := s.part p
  leBytes 8 n ++ leBytes 8 s.tick ++ leBytes 8 q.ops ++ leBytes 8 q.rimocc ++ leBytes 8 q.hostb ++ [BitVec.ofNat 8 q.opsFrac, s.lid] ++
    leBytes 2 p ++ leBytes 2 subsystemId ++ leBytes 2 0 ++ leBytes 16 (s.clusterBits p)

/-- A value of 48 bytes as the state keeps it, lowest byte first. -/
def hashNat (bs : List Byte) : Nat := leNat (sha384 bs)

/-- The genesis record starts the chain (R407, R408). -/
def State.startChain (s : State) (p : Nat) : State :=
  let r := s.meterRecord p 0
  s.modPart p fun q => { q with seq := 0, chain := hashNat r, records := [r] }

/-- The next record of the chain; the device keeps 16 (R408). -/
def State.nextRecord (s : State) (p : Nat) : State :=
  let n := (s.part p).seq + 1
  let r := s.meterRecord p n
  s.modPart p fun q =>
    { q with seq := n, chain := hashNat (leBytes 48 q.chain ++ r), records := (q.records ++ [r]).drop (q.records.length - 15) }

/-- A snapshot falls at this tick (R407). -/
def State.snapshotDue (s : State) (p : Nat) : Bool := (s.part p).enabled && s.tick % 2700000 == 0 && decide (0 < s.tick)

/-- METER_SNAPSHOT (R407). -/
def execMeterSnapshot (p : Nat) (s : State) : Host.Outcome State Fault Refusal := .next (if s.snapshotDue p then s.nextRecord p else s)

/-- The monitor digest of a partition (R412). -/
def State.monitorDigest (s : State) (p : Nat) : List Byte :=
  let sites := (List.range 15488).filter fun i => (s.part p).clusters.contains (clusterOf i)
  sha384 (sites.flatMap fun i => leBytes 48 (if s.good i && (s.tile i).loaded then (s.tile i).storeHash else 0))

/-- MONITOR_STORE_LOAD: 64 KiB at a tile, hashed as loaded; the monitor's c files hold null data again (R412, R437). -/
def execMonitorStoreLoad (site : Nat) (bytes : List Byte) (s : State) : Host.Outcome State Fault Refusal :=
  .next (if 15488 ≤ site || 65536 < bytes.length then s.emit (.pfRefused site)
    else
      let image := bytes ++ List.replicate (65536 - bytes.length) 0#8
      s.modTile site fun t =>
        { t with
          store := twrite [] 0 65536 (leNat image), loaded := true, storeHash := hashNat image
          stage := { t.stage with c := [] }, compute := { t.compute with c := [] } })

/-! Counters (R414). -/

/-- Keeps a partition's counters at a multiple of 256 ticks, for as long as a read may want them. -/
def State.noteCounters (s : State) (p : Nat) : State :=
  s.modPart p fun q =>
    let ctr := { q.ctr with linkBusy := q.ctr.linkBusy + Config.linkUse p s.tick }
    { q with ctr := ctr, ctrAt := (q.ctrAt.filter fun e => decide (s.tick ≤ e.1 + 270256)) ++
        [(s.tick, ctr, (List.range 4).map fun i => (s.port i).bytes - q.portBase.getD i 0)] }

/-- A shared counter as a read at this tick returns it: 100 µs old, in steps of 1,024. -/
def State.sharedAt (s : State) (p : Nat) (f : Counters × List Nat → Nat) : Nat :=
  let at_ := (s.tick - 270000) / 256 * 256
  let c := if s.tick < 270000 then 0 else ((((s.part p).ctrAt.find? fun e => e.1 == at_).map fun e => f e.2).getD 0)
  c - c % 1024

/-- The counter at an offset of a VF's counter page (R414). -/
def State.counterAt (s : State) (v off : Nat) : Nat :=
  let f := s.vf v
  let c := (s.part f.part).ctr
  if !f.en then 0
  else if off = 0x00 then c.rejects
  else if off = 0x08 then c.misses
  else if off = 0x10 then c.swaps
  else if off = 0x18 then c.tileFaults
  else if off = 0x20 then c.masked
  else if off = 0x40 then s.sharedAt f.part fun e => e.1.linkBusy
  else if off = 0x48 then s.sharedAt f.part fun e => e.1.stackBusy
  else if off = 0x50 then s.sharedAt f.part fun e => e.2.getD f.port 0
  else if off = 0x58 then s.sharedAt f.part fun e => e.1.droops
  else if off = 0x60 then f.energy
  else 0

/-- A VF's counter page: 64 bits of each counter (R414). -/
def State.counterRead (s : State) (v off : Nat) : Nat := s.counterAt v off % 2 ^ 64

/-! Energy (R415, R416). -/

/-- The share of a VF that held c of n core cycles of a cluster that used e: in proportion, rounded up or down. -/
def energyShare (e c n : Nat) : Nat := e * c / n + if e * c % n != 0 && Config.energyUp e c n then 1 else 0

/-- The switched-in core cycles of each VF's regions in a cluster. -/
def State.vfCycles (s : State) (cl : Nat) : Tbl Nat :=
  (s.cluster cl).cycles.foldl (fun t e => match s.vfOf e.1 with
    | some v => tput 0 v (tget 0 t v + e.2) t
    | none => t) []

/-- Splits the energy u of one cluster among the VFs whose regions had contexts there. -/
def State.splitEnergy (s : State) (p cl u : Nat) : State :=
  let c := s.cluster cl
  let held := !c.cycles.isEmpty || !(s.residents fun i => clusterOf i == cl).isEmpty
  let all := (c.cycles.map (·.2)).sum
  let s := if !held then s.modPart p fun q => { q with idleEnergy := q.idleEnergy + u }
    else (s.vfCycles cl).foldl (fun s e => s.modVf e.1 fun f => { f with energy := f.energy + energyShare u e.2 all }) s
  s.modCluster cl fun c => { c with cycles := [] }

/-- A partition's energy period is over (R415). -/
def Partition.periodDue (q : Partition) (tick : Nat) : Bool := q.enperiod != 0 && decide (q.enFrom + q.enperiod ≤ tick)

/-- ENERGY_PERIOD_END: used lists what each cluster's rail used, in the order of the partition's clusters; ENERGY changes only at the end
of a period (R415). -/
def execEnergyPeriodEnd (p : Nat) (used : List Nat) (s : State) : Host.Outcome State Fault Refusal :=
  .next (if !(s.part p).periodDue s.tick then s
    else ((s.part p).clusters.zip used).foldl (fun s e => s.splitEnergy p e.1 e.2)
      (s.modPart p fun q => { q with enFrom := q.enFrom + q.enperiod }))

/-- WRITE_VF_ENERGY (R416). -/
def execWriteVfEnergy (vf : Nat) (v : W64) (s : State) : Host.Outcome State Fault Refusal :=
  .next (if 1024 ≤ vf || (s.vf vf).en then s.emit (.pfRefused vf) else s.modVf vf fun f => { f with energy := v.toNat })

/-! Configuration (R398, R400). -/

/-- A cluster belongs to another enabled partition, or is about to, or waits for its drain receipt. -/
def State.clusterTaken (s : State) (p cl : Nat) : Bool :=
  s.parts.any (fun e => e.1 != p && e.2.enabled && e.2.clusters.contains cl) || s.releasing p (fun cls _ => cls.contains cl) ||
    s.drains.any fun e => match e.2 with
      | some (.cluMove _ c true) => c == cl
      | _ => false

/-- A configuration may enable the partition (R398, R400, R435). -/
def State.configOk (s : State) (p : Nat) (cls : List Nat) (key : Byte) (rimpart : W64) (pcs : List Nat) (slice : Nat)
    (swap shadow : List Nat) : Bool :=
  let q := rimpartOf rimpart pcs
  !s.failed && decide (p ≤ 120) && s.allStopped p && !cls.isEmpty && decide cls.Nodup &&
    cls.all (fun c => decide (c < 121) && !s.clusterTaken p c && (s.cluster c).ready == 1) &&
    s.parts.all (fun e => e.1 == p || !e.2.enabled || e.2.key != key) && s.rimpartOk p rimpart pcs &&
    decide (slice < 2 ^ 32) && (swap ++ shadow).all (frameOk q)

/-- Sets the slices of a cluster's slots; 0 is the 270,000 ticks of a configuration (R329). -/
def State.setSlices (s : State) (n cl : Nat) : State :=
  (clusterSites cl).foldl (fun s i => s.modTile i fun t =>
    { t with slice := if n = 0 then [] else [0, 1, 2, 3].foldl (fun m j => tput 0 j n m) [] }) s

/-- A region of a partition whose pool of sites changed is remapped (R379). -/
def State.remapAll (s : State) (p : Nat) : State :=
  { s with regions := s.regions.map fun (e : Nat × Region) =>
    if e.2.launched && e.2.part == p && e.2.st != 3 && s.poolSize e.1 != e.2.pool then (e.1, { e.2 with remap := true }) else e }

def Held.firstVa (h : Held) : Nat := ((h.writes.head?.map TrailEntry.g).getD 0) * 16
/-- A held chunk of a partition finds its place at its home slice: in the slice's store, else in an overflow frame (R177). -/
def State.rehold (s : State) (p : Nat) (h : Held) : State :=
  let sl := s.homeOf p h.firstVa
  let h := { h with slice := sl, frame := none }
  let own (s : State) : State := { s.modSlice sl fun l => { l with held := l.held + h.size } with held := s.held ++ [h] }
  if (s.slice sl).held + h.size ≤ 524288 then own s
  else match s.overflowRoom p sl h.size with
    | some (at_, s) => { s with held := s.held ++ [{ h with frame := some at_ }] }
    | none => own s

/-- A cluster passes to another partition, or to none: its units and engine start anew and its licences are FREE (R80, R108, R292). -/
def State.passCluster (s : State) (cl : Nat) (p : Option Nat) : State :=
  ((s.clearCluster cl).freeLicences cl).modCluster cl fun t => { t with part := p, engPtr := 0 }

/-- What a publication has still to fold goes to the slices that are its pages' home now (R60). -/
def Pub.rehomed (q : Partition) (p : Pub) : Pub :=
  let left := (p.shares.filterMap (·.2)).filter fun h => h.st == .committed
  let shares := sharesOf q (left.flatMap (·.writes))
  let shares := (left.flatMap (·.pages)).foldl (fun (t : Tbl (Option Share)) g =>
    let old : Share := (tget none t (q.home (g * 65536))).getD { st := .committed, writes := [], pages := [] }
    tput none (q.home (g * 65536)) (some { old with pages := old.pages ++ [g] }) t) shares
  { p with shares := shares.map fun (e : Nat × Option Share) => (e.1, e.2.map fun h => { h with st := .committed }) }

def State.rehomePubs (s : State) (p : Nat) : State :=
  { s with pubs := s.pubs.map fun (e : Nat × Option Pub) => (e.1, e.2.map fun q => if q.part == p then q.rehomed (s.part p) else q) }

/-- Gives and takes clusters: each that moves is cleared (R80), and what the slices keep by page goes to its new home (R60), where the
partition keeps a cluster. -/
def State.setClusters (s : State) (p : Nat) (cls : List Nat) : State :=
  let old := (s.part p).clusters.filter fun c => (s.cluster c).part == some p
  let slices := old.flatMap fun c => [4 * c, 4 * c + 1, 4 * c + 2, 4 * c + 3]
  let staged := slices.flatMap fun i => (s.slice i).staging
  let frames := slices.flatMap fun i => (s.slice i).frames
  let mine (h : Held) : Bool := (s.region h.region).part == p
  let hs := s.held.filter mine
  let s := { s with held := s.held.filter fun h => !mine h }
  let s := slices.foldl (fun s i => s.modSlice i fun l =>
    { l with stb := [], chains := [], hostAtoms := [], staging := [], held := 0, frames := [], full := false }) s
  let s := (old.filter fun c => !cls.contains c).foldl (fun s c => s.passCluster c none) s
  let s := (cls.filter fun c => !old.contains c).foldl (fun s c => s.passCluster c (some p)) s
  let s := s.modPart p fun q => { q with clusters := sortOn id cls, swap := q.swap ++ frames }
  if cls.isEmpty then s
  else
    let s := staged.foldl (fun s e => s.modSlice (s.homeOf p (e.1 * 65536)) fun l => { l with staging := tput none e.1 e.2 l.staging }) s
    hs.foldl (fun s h => s.rehold p h) (s.rehomePubs p)

/-- CONFIGURE_PARTITION: meters, counters and chain start anew and the licences are FREE; clusters and channels that the partition had
and gives up wait for a drain receipt. A refused configuration leaves the partition as it was (R77, R80, R292, R398, R400, R404, R414). -/
def execConfigurePartition (p : Nat) (cls : List Nat) (key : Byte) (rimpart : W64) (pcs : List Nat) (slice : Nat) (swap : List Nat)
    (shadow : List Nat) (s : State) : Host.Outcome State Fault Refusal :=
  .next (if !s.configOk p cls key rimpart pcs slice swap shadow then s.emit (.pfRefused p)
    else
      let q := s.part p
      let oldCls := q.clusters.filter fun c => q.enabled && !cls.contains c
      let oldPcs := q.pclist.filter fun pc => q.enabled && q.rimEn && !(rimOn rimpart && pcs.contains pc)
      let s := (((s.setClusters p cls).setRimpart p rimpart pcs).release p oldCls oldPcs)
      let s := cls.foldl State.freeLicences s
      let used := s.framesInUse p
      let s := s.modPart p fun q =>
        { q with
          enabled := true, key := key, swap := swap.filter fun f => !used.contains f, shadow := shadow.filter fun f => !used.contains f
          ops := 0, opsFrac := 0, rimocc := 0, hostb := 0, ctr := {}, ctrAt := [], portBase := (List.range 4).map fun i => (s.port i).bytes
          idleEnergy := 0, failed := false, pressure := none }
      let s := { s with vfs := s.vfs.map fun (e : Nat × Vf) => if e.2.en && e.2.part == p then (e.1, { e.2 with energy := 0 }) else e }
      ((cls.foldl (fun s c => s.setSlices slice c) s).remapAll p).startChain p)

/-- ADD_CLUSTER: to a stopped partition, after a drain receipt (R400). -/
def execAddCluster (p cl : Nat) (s : State) : Host.Outcome State Fault Refusal :=
  .next (if s.failed || !(s.part p).enabled || !s.allStopped p || 121 ≤ cl || s.clusterTaken 121 cl || (s.cluster cl).ready != 1 then
      s.emit (.pfRefused p)
    else s.askDrain (.cluMove p cl true))

/-- REMOVE_CLUSTER: from a stopped partition that keeps another, after a drain receipt (R400); gangs there leave first (R379). -/
def execRemoveCluster (p cl : Nat) (s : State) : Host.Outcome State Fault Refusal :=
  .next (
    let q := s.part p
    if s.failed || !q.enabled || !s.allStopped p || !q.clusters.contains cl || q.clusters.length < 2 then s.emit (.pfRefused p)
    else
      let here (r : Nat) : Bool := s.ctxs.any fun e => ctxRegion e.1 == r && e.2.st == 1 && clusterOf e.2.site == cl
      let s := { s with regions := s.regions.map fun (e : Nat × Region) => if here e.1 then (e.1, { e.2 with remap := true }) else e }
      s.askDrain (.cluMove p cl false))

/-- No region of a partition is live. -/
def State.allEnded (s : State) (p : Nat) : Bool := s.regions.all fun e => e.2.part != p || !e.2.launched || e.2.st == 3

/-- DISABLE_PARTITION: with every region ended, after a drain receipt (R400). -/
def execDisablePartition (p : Nat) (s : State) : Host.Outcome State Fault Refusal :=
  .next (if !(s.part p).enabled || !s.allEnded p then s.emit (.pfRefused p) else s.askDrain (.disable p))

/-- ADD_SWAP_FRAMES (R363). -/
def execAddSwapFrames (p : Nat) (fs : List Nat) (s : State) : Host.Outcome State Fault Refusal :=
  .next (if s.failed || !(s.part p).enabled || !fs.all (frameOk (s.part p)) then s.emit (.pfRefused p)
    else s.modPart p fun q => { q with swap := q.swap ++ fs })

/-- ADD_SHADOW_FRAMES (R194). -/
def execAddShadowFrames (p : Nat) (fs : List Nat) (s : State) : Host.Outcome State Fault Refusal :=
  .next (if s.failed || !(s.part p).enabled || !fs.all (frameOk (s.part p)) then s.emit (.pfRefused p)
    else s.modPart p fun q => { q with shadow := q.shadow ++ fs })

/-! Virtual functions (R401, R402). -/

/-- The root of a binding in force is live, so the binding may not be written (R402). -/
def State.boundLive (s : State) (v : Nat) : Bool := (s.vf v).en && (s.regionAt (s.vf v).part (s.vf v).root).isSome

/-- BIND_VF (R402). -/
def execBindVf (vf port p root : Nat) (s : State) : Host.Outcome State Fault Refusal :=
  .next (if s.failed || 1024 ≤ vf || 4 ≤ port || 120 < p || s.boundLive vf || (s.regionAt p root).isSome then s.emit (.pfRefused vf)
    else s.modVf vf fun f => { f with port := port, part := p, root := root, en := true })

/-- UNBIND_VF (R402). -/
def execUnbindVf (vf : Nat) (s : State) : Host.Outcome State Fault Refusal :=
  .next (if !(s.vf vf).en || s.boundLive vf then s.emit (.pfRefused vf) else s.modVf vf fun f => { f with en := false })

/-! Root regions (R400). -/

/-- The newest tag of the granule at va. -/
def newestTag (s : State) (p reg va : Nat) : Bool :=
  match translate s p va .load reg (mkStamp (s.tick + 1) 0) .device with
  | (.ok pa, s) => ((s.readPa p (s.homeOf p va) (pa / 16 * 16) 16 (devHalf va) reg none).1.map (·.2)).getD false
  | _ => false

/-- The block at va with its gang list, none where a read does not end in a value. -/
def rootBlock (s : State) (p reg va : Nat) : Option BlockRead :=
  match readNewest s p reg .device va 256 with
  | (.ok x, s) => match readNewest s p reg .device (blkField x 144 8) (8 * (blkField x 152 4 % 65536)) with
    | (.ok y, s) => some { x := x, tag := newestTag s p reg (va + 96), gangs := gangList y (blkField x 152 4 % 65536)
                           entry := { off := 0, valid := true, compute := false, cls := 0 } }
    | _ => none
  | _ => none

/-- The accesses that led from state s to t are the physical function's, charged to nobody (R82). -/
def State.chargedNone (t s : State) : State :=
  { t with chans := t.chans.map fun (e : Nat × Chan) =>
      let n := (s.chan e.1).queue.length
      (e.1, { e.2 with queue := e.2.queue.take n ++ (e.2.queue.drop n).map fun (q : RimReq) => { q with region := none } }) }

/-- START_ROOT_REGION: the block is read and checked as a template is, STATE is set to 0 and the first gang is due (R400,
R341). -/
def execStartRootRegion (p va : Nat) (s : State) : Host.Outcome State Fault Refusal :=
  .next (
    let id := s.seq
    let q := s.part p
    if s.failed || q.failed || !q.enabled || !devHalf va || va % 256 != 0 || (s.regionAt p va).isSome then s.emit (.pfRefused p)
    else match rootBlock (s.modRegion id fun g => { g with part := p }) p id va with
      | none => s.emit (.pfRefused p)
      | some b =>
        if refusedBlock b 0 != 0 then s.emit (.pfRefused p)
        else
          let s := s.bump.modRegion id fun _ => newRegion s p none va b
          let s := s.modRegion id fun g => { g with pool := s.poolSize id }
          (engineAct s (s.engineOf p (va + 136)) p id (va + 136) 1 (fun _ => some 0) 0 .device).2.chargedNone s)

/-- A record image's 128 bytes (R318). -/
def imageNat (r : RecImage) : Nat :=
  r.w0.toNat + r.w1.toNat * 2 ^ 64 + r.join.toNat * 2 ^ 128 +
    ((List.range 6).map fun i => (r.regs.getD i 0#128).toNat * 2 ^ (256 + 128 * i)).sum

/-- PLACE_RUN_QUEUE_RECORD: at the tail of a live region's queue, where it has room and its memory takes it; charged to nobody (R82,
R321; log entry 66). -/
def execPlaceRunQueueRecord (r : Nat) (rec : RecImage) (s : State) : Host.Outcome State Fault Refusal :=
  .next (
    let g := s.region r
    if s.failed || !g.launched || g.st == 3 || !s.ringFree r then s.emit (.pfRefused r)
    else match s.ringPush r (imageNat rec) with
      | (some (.value _ _ _), t) => t.chargedNone s
      | _ => s.emit (.pfRefused r))

/-! Registers without a row of their own (R6). -/

/-- Acts for a core. -/
def State.onCore (s : State) (c : CoreId) (f : State → State) : State := { f { s with focus := c } with focus := s.focus }

/-- Bits of an HDM decoder's size: 256 MiB to 64 GiB (R427). -/
def hdmSizeOk (n : Nat) : Bool := decide (2 ^ 28 ≤ n) && decide (n ≤ 2 ^ 36)

/-- The registers a slot's context holds (R214). -/
def SysReg.ofSlot : SysReg → Bool
  | .trailst => true
  | .spquota => true
  | .vctl => true
  | .vflags => true
  | .seedlo => true
  | .seedhi => true
  | .queue _ => true
  | _ => false

/-- A system register of a core written from outside; a slot that holds no context has none of its own. -/
def State.sysFromOutside (s : State) (c : CoreId) (num : BitVec 10) (v : W64) : State :=
  match sysReg num.toNat with
  | none => s.emit (.pfRefused num.toNat)
  | some r =>
    if r.refused c.compute true || sysBad r v || (r.ofSlot && ({ s with focus := c }).myCtx.isNone) then s.emit (.pfRefused num.toNat)
    else s.onCore c fun s => match r with
      | .queue k => if (s.ctx s.me).depth k < queueRoom then s.pushQ s.me k v else s.emit (.pfRefused num.toNat)
      | r => sysWrite s r v

/-- REGISTER_WRITE: each field as its access code says; a value out of range is refused, and every configuration of a module that has
failed (R6, R18). An entry that a joined module's window sends over the route of a VF enters that VF's window (R433; log entry 30). -/
def execRegisterWrite (reg : PfReg) (v : W64) (s : State) : Host.Outcome State Fault Refusal :=
  .next (if s.failed then s.emit (.pfRefused 0) else match reg with
    | .ptroot p => s.modPart p fun q => { q with ptroot := v }
    | .slice site slot =>
      if v = 0#64 || 2 ^ 32 ≤ v.toNat || 15488 ≤ site || 4 ≤ slot then s.emit (.pfRefused site)
      else s.modTile site fun t => { t with slice := tput 0 slot v.toNat t.slice }
    | .enperiod p =>
      if v.toNat < 2700 || 2 ^ 32 < v.toNat then s.emit (.pfRefused p) else s.modPart p fun q => { q with enperiod := v.toNat, enFrom := s.tick }
    | .hdmva vf => s.modVf vf fun f => { f with hdmva := v.toNat % 2 ^ 56 }
    | .hdmsize vf => if hdmSizeOk v.toNat then s.modVf vf fun f => { f with hdmsize := v.toNat } else s.emit (.pfRefused vf)
    | .msixMask vf vec =>
      let bit : BitVec 4 := BitVec.ofNat 4 (2 ^ (vec % 4))
      if !(s.vf vf).en then s
      else if bitAt v 0 then s.modVf vf fun f => { f with mask := f.mask ||| bit }
      else
        let due := bitAt (s.vf vf).pba (vec % 4)
        let s := s.modVf vf fun f => { f with mask := f.mask &&& ~~~ bit, pba := f.pba &&& ~~~ bit }
        if due then s.raiseMsix vf (vec % 4) else s
    | .msixAddr vf vec =>
      if !(s.vf vf).en then s else s.modVf vf fun f => { f with msix := tput (0#64, 0#32) (vec % 4) (v, (tget (0#64, 0#32) f.msix (vec % 4)).2) f.msix }
    | .msixData vf vec =>
      if !(s.vf vf).en then s
      else s.modVf vf fun f => { f with msix := tput (0#64, 0#32) (vec % 4) ((tget (0#64, 0#32) f.msix (vec % 4)).1, v.truncate 32) f.msix }
    | .linkEntry port vf entry =>
      if !(s.vf vf).en || (s.vf vf).route.all (fun r => r.1 != port) then s
      else (s.modVf vf fun f => { f with linkIn := f.linkIn ++ [entry] }).post (.hqEntryTake vf)
    | .readOnly _ => s
    | .sys c num => s.sysFromOutside c num v)

/-! Drain receipts (R395). -/

/-- No context has a place in a cluster. -/
def State.clusterLeft (s : State) (cl : Nat) : Bool := s.ctxs.all fun e => !((e.2.st == 1 || e.2.st == 3) && clusterOf e.2.site == cl)

/-- Commands of the regions of a receipt's contexts wait at a rim controller; where a context leaves a slot they are no work of its own,
for a command has a region and no context (R395; log entry 33). -/
def State.rimBusy (s : State) (d : DrainFor) : Bool := match d with
  | .ctx _ _ _ => false
  | _ => s.atRim (s.drainSet d)

/-- Nothing of what a receipt was asked for is left to happen first; before units pass on, what is committed has folded (R395, R396). -/
def State.drainReady (s : State) (d : DrainFor) : Bool :=
  s.drained (s.drainSet d) && !s.rimBusy d && match d with
  | .cluMove p cl add => s.folded p && s.allStopped p && (add || s.clusterLeft cl)
  | .checkpoint => s.parts.all (fun e => s.folded e.1) && s.ctxs.all fun e => e.2.st == 0 || e.2.st == 2
  | .partition p => s.folded p
  | .disable p => s.folded p && (s.part p).clusters.all s.clusterLeft
  | .release _ cls chans => cls.all s.clusterLeft && chans.all fun pc => (s.chan pc).queue.isEmpty
  | _ => true

/-- The image of a checkpoint (R436). -/
def State.takeImage (s : State) : Image :=
  { rim := s.rim, tags := s.rimTags, ctxs := s.ctxs, cores := s.cores, regions := s.regions, rings := s.parts.map fun e => (e.1, e.2.rings)
    held := s.held, slices := s.slices.map fun e => (e.1, e.2.staging, e.2.frames, e.2.held) }

/-- The bytes of an image that go through one of the four ports, 4 KiB of each allocation at a time; the host addresses are the partition
manager's (R436; log entry 79). -/
def Image.through (i : Image) (port : Nat) : List Host.Cell := i.rim.filter fun c => c.1 / 4096 % 4 == port

/-- What follows a receipt; an operation of R400 whose precondition does not hold any more is refused. -/
def State.afterDrain (s : State) : DrainFor → State
  | .endRegion r => s.freeRegion r
  | .partition p => s.resetDone p
  | .cluster cl => s.resetCluster cl
  | .cluMove p cl add =>
    let old := (s.part p).clusters
    let ok := (s.part p).enabled && if add then !s.clusterTaken 121 cl && (s.cluster cl).ready == 1 else old.contains cl && decide (2 ≤ old.length)
    if !ok then s.emit (.pfRefused p)
    else if add then (s.setClusters p (old ++ [cl])).remapAll p
    else ((s.setClusters p (old.filter (· != cl))).restartTiles cl).remapAll p
  | .disable p =>
    if !(s.part p).enabled || !s.allEnded p then s.emit (.pfRefused p)
    else
      let s := (s.part p).clusters.foldl State.restartTiles s
      (s.setClusters p []).modPart p fun q => { q with enabled := false, rimEn := false, pclist := [] }
  | .checkpoint => { s with image := some s.takeImage }
  | .ctx _ _ _ => s
  | .release _ cls _ => cls.foldl State.restartTiles s

/-- A checkpoint sends every resident gang away (R436). -/
def State.sendAway (s : State) : State :=
  s.parts.foldl (fun s e => (s.residentGangs e.1).foldl (fun s g => s.post (.gangSwapOut g.1 g.2)) s) s

/-- DRAIN_RECEIPT (R395). -/
def execDrainReceipt (id : Nat) (s : State) : Host.Outcome State Fault Refusal :=
  .next (match tget none s.drains id with
    | none => s
    | some d =>
      if s.drainReady d then (({ s with drains := tput none id none s.drains }).afterDrain d).emit (.drained id)
      else if d = DrainFor.checkpoint then s.sendAway.later (.drainReceipt id)
      else s.later (.drainReceipt id))

end Sys2Proof.Machine
end

