-- ==== Sys2Proof/Machine/Power.lean ====
section
/-! DEFINITION. Rails and switches (R417, R418), droop (R422 to R424), the vector unit's sleep (R421), drowsy banks and the debugger's
reads of vector registers (R204, R205), and the glide (R397). -/

namespace Sys2Proof.Machine

open Sys2Proof

/-! Rails (R417, R418). -/

/-- The power region of a cluster. -/
def powerRegion (cl : Nat) : Nat := if cl < 72 then cl / 8 else 9 + (cl - 72) / 7
/-- The rail of a cluster; after module reset rail 0 of its region. -/
def State.railOf (s : State) (cl : Nat) : Nat := ((s.cluster cl).rail).getD (powerRegion cl * 4)

/-- RAIL_SETTING_WRITE: the ratio holds from the next reference tick on (R418). -/
def execRailSettingWrite (rail mv m : Nat) (s : State) : Host.Outcome State Fault Refusal :=
  .next (if 64 ≤ rail || m < 8 || 16 < m then s.emit (.pfRefused rail)
    else { s with rails := tput {} rail { s.rail rail with mv := some mv, next := some m } s.rails })

/-- A context, or the shadow of a duplex region's, has its place in a cluster (R391). -/
def Ctx.standsIn (c : Ctx) (cl : Nat) : Bool := clusterOf c.site == cl || c.shadow.any fun n => clusterOf (n / 4) == cl

/-- CLUSTER_SWITCH_WRITE: while every context of the cluster is stopped (R418). -/
def execClusterSwitchWrite (cl rail : Nat) (s : State) : Host.Outcome State Fault Refusal :=
  .next (if 121 ≤ cl || rail / 4 != powerRegion cl || !(s.ctxs.all fun e => !e.2.standsIn cl || s.stopped e.1) then
      s.emit (.pfRefused cl)
    else s.modCluster cl fun c => { c with rail := some rail })

/-! Droop (R422 to R424). -/

/-- DROOP_ALARM: a sample sag mV below the setting. A stretch under way goes on; else one starts at once (R423). -/
def execDroopAlarm (cl sag : Nat) (s : State) : Host.Outcome State Fault Refusal :=
  .next (
    let c := s.cluster cl
    if c.th == 0 || sag < c.th then s
    else
      let rail := s.railOf cl
      let s := s.modCluster cl fun c => { c with alarm := true, alarms := min 65535 (c.alarms + 1), alarmTick := s.tick % 2 ^ 32 }
      let s := { s with parts := s.parts.map fun (e : Nat × Partition) =>
        if e.2.enabled && e.2.clusters.any fun d => s.railOf d == rail then
          (e.1, { e.2 with ctr := { e.2.ctr with droops := e.2.ctr.droops + 1 } }) else e }
      if 1 < c.stretch then s else s.modCluster cl fun c => { c with stretch := 7, withhold := true, halved := 0 })

/-- STRETCH_END: at the sixth delivered edge halved issue begins (R423). -/
def execStretchEnd (cl : Nat) (s : State) : Host.Outcome State Fault Refusal :=
  .next (if (s.cluster cl).stretch == 1 then s.modCluster cl fun c => { c with stretch := 0, withhold := false, halved := 65 } else s)

/-- HALVED_ISSUE_END: after 64 core cycles (R423). -/
def execHalvedIssueEnd (cl : Nat) (s : State) : Host.Outcome State Fault Refusal :=
  .next (if (s.cluster cl).halved == 1 then s.modCluster cl fun c => { c with halved := 0 } else s)

/-- A core of a cluster gets an edge that its rail offers: withheld every second time in a stretch (R418, R423). -/
def Cluster.offered (c : Cluster) : Cluster × Bool :=
  if 1 < c.stretch then
    if c.withhold then ({ c with withhold := false }, false)
    else ({ c with withhold := true, stretch := c.stretch - 1, edges := c.edges + 1 }, true)
  else ({ c with halved := if 1 < c.halved then c.halved - 1 else c.halved, edges := c.edges + 1 }, true)

/-- The edge rule of R418 at tick n for ratio m. -/
def edgeAt (n m : Nat) : Bool := decide (n * m / 16 < (n + 1) * m / 16)

/-! The vector unit (R421, R204, R205). -/

/-- 64 cycles have passed without a vector instruction. -/
def State.vecIdle (s : State) (site : Nat) : Bool := !(s.tile site).vecAsleep && decide ((s.tile site).vecLast + 64 ≤ s.edgesAt site)

/-- VECTOR_UNIT_SLEEP: a grant that no instruction came for is given back (R421). -/
def execVectorUnitSleep (site : Nat) (s : State) : Host.Outcome State Fault Refusal :=
  .next (if !s.vecIdle site then s
    else
      let g := (s.tile site).vecGrant
      let s := s.modTile site fun t => { t with vecAsleep := true, vecGrant := false, rampEnd := none }
      if g then s.releaseUnits (clusterOf site) 2 else s)

/-- VECTOR_WAKE_RAMP_END: 16 cycles after the grant the waking instruction issues (R421). -/
def execVectorWakeRampEnd (site : Nat) (s : State) : Host.Outcome State Fault Refusal :=
  .next (if !((s.tile site).rampEnd.any fun e => decide (e ≤ s.edgesAt site)) then s
    else
      let s := s.modTile site fun t => { t with vecAsleep := false, vecLast := s.edgesAt site, rampEnd := none }
      ((s.tile site).slots.filterMap (·.2)).foldl (fun s x => s.modCore (coreKey x true) fun c =>
        { c with stall := if c.stall = Stall.ramp then .none else c.stall }) s)

/-- A powered bank of a slot has been idle for 4,096 cycles (R205). -/
def State.bankIdle (s : State) (site slot bank : Nat) : Bool :=
  let b : VBank := tget {} (s.tile site).vbanks (slot * 8 + bank)
  b.powered && !b.drowsy && decide (b.last + 4096 ≤ s.edgesAt site)

/-- BANK_DROWSY (R205). -/
def execBankDrowsy (site slot bank : Nat) (s : State) : Host.Outcome State Fault Refusal :=
  .next (if s.bankIdle site slot bank then s.modTile site fun t =>
      { t with vbanks := tput {} (slot * 8 + bank) { tget {} t.vbanks (slot * 8 + bank) with drowsy := true } t.vbanks }
    else s)

/-- A vector register of a slot holds a value: its index is below the declared count (R203, R204). -/
def State.declaredV (s : State) (site slot : Nat) (r : Reg) : Option Nat :=
  (tget none (s.tile site).slots slot).bind fun x =>
    if r.toNat < ((s.core (coreKey x true)).act.map (·.vregs)).getD 0 then some x else none

/-- An access from outside wakes the bank (R205). -/
def State.wakeBank (s : State) (site slot : Nat) (r : Reg) : State :=
  let i := slot * 8 + r.toNat / 4
  s.modTile site fun t => { t with vbanks := tput {} i { tget {} t.vbanks i with last := s.edgesAt site, drowsy := false } t.vbanks }

/-- DEBUG_VECTOR_READ: zero with tag 0 and GATED for a register that holds no value (R204). -/
def execDebugVectorRead (c : CoreId) (slot : Nat) (r : Reg) (s : State) : Host.Outcome State Fault Refusal :=
  .next (match s.declaredV c.site slot r with
    | some x =>
      let v : VReg := tget {} (s.ctx x).v r.toNat
      (s.wakeBank c.site slot r).emit (.debug v.bits v.tag)
    | none => (s.modMcore c fun m => { m with gated := true }).emit (.debug 0#1024 0#8))

/-- DEBUG_VECTOR_WRITE: ignored with GATED set for a register that holds no value (R204); no register takes a tag that R245 does not
define, and such a write of one that holds a value changes nothing. -/
def execDebugVectorWrite (c : CoreId) (slot : Nat) (r : Reg) (v : BitVec 1024) (tag : Byte) (s : State) : Host.Outcome State Fault Refusal :=
  .next (match s.declaredV c.site slot r with
    | some x => if !definedTag tag then s else (s.wakeBank c.site slot r).modCtx x fun t => { t with v := tput {} r.toNat { bits := v, tag := tag } t.v }
    | none => s.modMcore c fun m => { m with gated := true })

/-! The glide (R397). -/

/-- Kills have stopped running steps in every cluster within the window of 256 ticks. -/
def State.glideDue (s : State) : Bool :=
  s.glide.isNone && (List.range 121).all fun cl => s.killTicks.any fun e => clusterOf e.2 == cl && decide (s.tick < e.1 + 256)

/-- The window of 256 ticks in which the stopped step of a tile may come to glide is over. -/
def Tile.heldOver (t : Tile) (tick : Nat) : Bool := t.matHeld.any fun n => decide (n + 256 ≤ tick)

/-- A glide is due, or stopped steps have kept their units through the whole window. -/
def State.glideStartDue (s : State) : Bool := s.glideDue || s.tiles.any fun e => e.2.heldOver s.tick

/-- GLIDE_START: the stopped arrays go on clocking with the units that their steps held; without a glide a stopped step gives them up at
the end of the window (R397; log entry 77). -/
def execGlideStart (s : State) : Host.Outcome State Fault Refusal :=
  .next (if s.glideDue then
      { s with
        tiles := s.tiles.map fun (e : Nat × Tile) => if e.2.matHeld.isSome then (e.1, { e.2 with matHeld := none, matGlide := true }) else e
        glide := some (0, s.tick), killTicks := [] }
    else
      ((s.tiles.filter fun e => e.2.heldOver s.tick).map (·.1)).foldl (fun s i =>
        (s.modTile i fun t => { t with matHeld := none }).releaseUnits (clusterOf i) 8) s)

/-- A stage of 6,750 ticks is over. -/
def State.stageDue (s : State) : Bool := s.glide.any fun g => decide (g.2 + 6750 ≤ s.tick)

/-- GLIDE_STAGE: at stage k only pairs of ClusterBit mod 8 at least k glide on; after the eighth none does (R397). -/
def execGlideStage (s : State) : Host.Outcome State Fault Refusal :=
  .next (match s.glide with
    | some (k, t) =>
      if !s.stageDue then s
      else
        let off := (s.tiles.filter fun e => e.2.matGlide && decide (clusterBit e.1 % 8 < k + 1)).map (·.1)
        let s := off.foldl (fun s i => (s.modTile i fun t => { t with matGlide := false }).releaseUnits (clusterOf i) 8) s
        { s with glide := if 7 ≤ k then none else some (k + 1, t + 6750) }
    | none => s)

end Sys2Proof.Machine
end

