-- ==== Sys2Proof/Machine/Bringup.lean ====
section
/-! DEFINITION. Bring-up (R18, R19, R435), module reset, the lid (R409), and checkpoint and restore (R436). -/

namespace Sys2Proof.Machine

open Sys2Proof

/-- MODULE_RESET: everything is as after reset but the host's memory, what has left the module, and what the lid senses
(R435, R409). -/
def execModuleReset (s : State) : Host.Outcome State Fault Refusal :=
  .next { State.reset with host := s.host, out := s.out, image := s.image, lidOpen := s.lidOpen, lidSensor := s.lidSensor, freeCtr := s.freeCtr }

/-! The pool (R18, R19). -/

/-- Good tiles a part guarantees in every cluster and on the module (R18). -/
def perCluster : Nat := match Config.part with | 0 => 120 | 1 => 112 | _ => 96
def perModule : Nat := match Config.part with | 0 => 15104 | 1 => 14336 | _ => 12288

def goodTiles (w : W128) : Nat := ((List.range 128).filter (bitAt w)).length

/-- The module is found below its guarantee: every physical function reports it, partitions that run are stopped as by a reset, and the
VFs bound to them report it (R18). -/
def State.failModule (s : State) : State :=
  let ps := (s.parts.filter fun e => e.2.enabled).map (·.1)
  let vs := (s.vfs.filter fun e => e.2.en && ps.contains e.2.part).map (·.1)
  let s := ({ s with failed := true } : State).emit (.failed none)
  let s := ps.foldl (fun s p => (s.partitionReset p).modPart p fun q => { q with failed := true }) s
  vs.foldl (fun s v => s.emit (.failed (some v))) s

/-- The sites of a cluster that a new pool word leaves out. -/
def lostSites (cl : Nat) (old new : W128) : List Nat := (clusterSites cl).filter fun i => bitAt old (clusterBit i) && !bitAt new (clusterBit i)

/-- CLUSTER_SELF_TEST_DONE: the cluster writes its word, in which a retest may only clear bits, and reports; the sites it loses leave the
pool (R18, R19, R379, R394). The module column is checked again at every report once all have reported (log entry 74). -/
def execClusterSelfTestDone (cl : Nat) (word : W128) (s : State) : Host.Outcome State Fault Refusal :=
  .next (
    let c := s.cluster cl
    if 121 ≤ cl || c.ready == 1 || c.ready == 2 then s
    else
      let w := if c.ready = 0 then word else c.pool &&& word
      let ok := decide (perCluster ≤ goodTiles w)
      let s := s.modCluster cl fun c => { c with pool := w, ready := if ok then 1 else 2 }
      let s := (lostSites cl c.pool w).foldl State.poolShrunk s
      let all := (List.range 121).all fun i => (s.cluster i).ready == 1 || (s.cluster i).ready == 2
      let total := ((List.range 121).map fun i => goodTiles (s.cluster i).pool).sum
      if s.failed then s else if !ok || (all && decide (total < perModule)) then s.failModule else s)

/-! Units that report ready (R435). -/

/-- 1 ready, 2 FAIL. -/
def readyCode (ok : Bool) : Nat := if ok then 1 else 2

/-- HOST_PORT_READY: its configuration space answers, with the part's bin as Subsystem ID (R2, R435). -/
def execHostPortReady (port : Nat) (ok : Bool) (s : State) : Host.Outcome State Fault Refusal :=
  .next (if 4 ≤ port then s
    else
      let s := s.modPort port fun t => { t with ready := readyCode ok }
      if ok then s.emit (.subsystem port subsystemId) else s)

/-- HOST_PORT_LINK_DOWN: the port is no longer ready (R435). -/
def execHostPortLinkDown (port : Nat) (s : State) : Host.Outcome State Fault Refusal :=
  .next (if 4 ≤ port then s else s.modPort port fun t => { t with ready := 0 })

/-- HBM_STACK_READY: trained, its memory zeroed as R77 gives (R435). -/
def execHbmStackReady (stack : Nat) (ok : Bool) (s : State) : Host.Outcome State Fault Refusal :=
  .next (if 48 ≤ stack || tget 0 s.hbm stack != 0 then s
    else
      let s := if ok then s.zeroCells (stack * 2 ^ 36) ((stack + 1) * 2 ^ 36) else s
      { s with hbm := tput 0 stack (readyCode ok) s.hbm })

/-- KWELINK_PORT_READY (R435). -/
def execKwelinkPortReady (port : Nat) (ok : Bool) (s : State) : Host.Outcome State Fault Refusal :=
  .next (if 16 ≤ port then s else s.modKport port fun k => { k with ready := readyCode ok })

/-- Ready state of a slice in READYMAP: 1 once its cluster and the stacks of its partition's channels, in which its translation path lies, are
ready; 2 where its cluster has failed (R435; log entry 88). -/
def State.sliceReady (s : State) (sl : Nat) : Nat :=
  let c := s.cluster (sl / 4)
  let path := (c.part.map fun p => (s.part p).pclist).getD []
  if c.ready == 2 then 2 else bit01 (c.ready == 1 && path.all fun pc => tget 0 s.hbm (pc / 256) == 1)

/-- LID_EVENT: OPENED is latched until a module reset (R409). -/
def execLidEvent (open_ sensor : Bool) (s : State) : Host.Outcome State Fault Refusal :=
  .next { s with lidOpen := open_, lidOpened := s.lidOpened || open_, lidSensor := sensor }

/-! Checkpoint (R436). -/

/-- CHECKPOINT: every gang is sent away, and after a drain receipt the image is streamed. -/
def execCheckpoint (s : State) : Host.Outcome State Fault Refusal := .next (s.askDrain .checkpoint)

/-- RESTORE: the image is streamed back before any context resumes; refused while one is resident, and on a failed module (R18). -/
def execRestore (s : State) : Host.Outcome State Fault Refusal :=
  .next (match s.image with
    | none => s.emit (.pfRefused 0)
    | some i =>
      if s.failed || s.ctxs.any fun e => e.2.st == 1 || e.2.st == 3 then s.emit (.pfRefused 0)
      else
        let used := (i.ctxs.flatMap fun e => e.2.trailFrames) ++ (i.regions.flatMap fun e => e.2.area) ++ i.slices.flatMap fun e => e.2.2.1
        let staged := i.slices.flatMap fun e => e.2.1.filterMap fun g => g.2.map (·.new)
        let s := (List.range 121).foldl State.clearCluster s
        let s := i.slices.foldl (fun s e => s.modSlice e.1 fun l => { l with staging := e.2.1, frames := e.2.2.1, held := e.2.2.2 }) s
        { s with
          rim := i.rim, rimTags := i.tags, poison := [], ctxs := i.ctxs, cores := i.cores, regions := i.regions, held := i.held
          parts := s.parts.map fun (e : Nat × Partition) =>
            (e.1, { e.2 with
              rings := ((i.rings.find? fun r => r.1 == e.1).map (·.2)).getD []
              swap := e.2.swap.filter fun f => !used.contains f
              shadow := e.2.shadow.filter fun f => !staged.contains f }) })

end Sys2Proof.Machine
end

