-- ==== Sys2Proof/Machine/Cap.lean ====
section
/-! DEFINITION. Capability derivation and queries, major 0x04 (R229 to R232). -/

namespace Sys2Proof.Machine

open Sys2Proof

/-- CSETB (R230). -/
def csetbVal (c : CReg) (b : W64) : CReg :=
  if !c.tag then dataReg c.data
  else
    let (le, lm) := canonical b.toNat
    if 31 < le ∨ c.top < c.addr + lm * 2 ^ le then dataReg (BitVec.ofNat 64 c.addr)
    else mkCap c.addr c.addr lm le c.perms

/-- CSETP (R230). -/
def csetpVal (c : CReg) (b : W64) : CReg :=
  if !c.tag then dataReg c.data
  else { bits := BitVec.ofNat 128 (c.bits.toNat % 2 ^ 124 + (c.perms &&& (b.toNat % 16)) * 2 ^ 124), tag := true }

/-- CINC (R230). -/
def cincVal (c : CReg) (b : W64) : CReg :=
  if !c.tag then dataReg (c.data + b)
  else
    let n : Int := c.addr + b.toInt
    if n < c.base ∨ (c.top : Int) < n ∨ n = 2 ^ 56 then dataReg (BitVec.ofInt 64 n)
    else { bits := BitVec.ofNat 128 (c.bits.toNat / 2 ^ 56 * 2 ^ 56 + n.toNat), tag := true }

/-- CTEST (R232). -/
def ctestVal (a b : CReg) (bIsZero : Bool) : Bool :=
  if bIsZero then a.tag
  else a.tag && b.tag && decide (a.base ≤ b.base) && decide (b.top ≤ a.top) && (b.perms &&& a.perms) == b.perms

def capOp (f : CReg → W64 → CReg) (d a b : Reg) (s : State) : Host.Outcome State Fault Refusal :=
  issue { mon := true, cr := [d, a, b] } (fun s => (s.wc d (f (s.rc a) (s.rd b)), .retire)) s
def capQuery (f : CReg → W64) (d a : Reg) (s : State) : Host.Outcome State Fault Refusal :=
  issue { mon := true, cr := [d, a] } (fun s => retireWith s d (f (s.rc a))) s

def execCsetb (d a b : Reg) (s : State) : Host.Outcome State Fault Refusal := capOp csetbVal d a b s
def execCsetp (d a b : Reg) (s : State) : Host.Outcome State Fault Refusal := capOp csetpVal d a b s
def execCinc (d a b : Reg) (s : State) : Host.Outcome State Fault Refusal := capOp cincVal d a b s
/-- CGETB, CGETL, CGETP (R231). -/
def execCgetb (d a : Reg) (s : State) : Host.Outcome State Fault Refusal :=
  capQuery (fun c => if c.tag then BitVec.ofNat 64 c.base else 0#64) d a s
def execCgetl (d a : Reg) (s : State) : Host.Outcome State Fault Refusal :=
  capQuery (fun c => if c.tag then BitVec.ofNat 64 c.len else 0#64) d a s
def execCgetp (d a : Reg) (s : State) : Host.Outcome State Fault Refusal :=
  capQuery (fun c => if c.tag then BitVec.ofNat 64 (c.perms + 16) else 0#64) d a s
/-- CCLR (R231): the data reading of c(A). -/
def execCclr (d a : Reg) (s : State) : Host.Outcome State Fault Refusal := capQuery CReg.data d a s
def execCtest (d a b : Reg) (s : State) : Host.Outcome State Fault Refusal :=
  issue { mon := true, cr := [d, a, b] }
    (fun s => retireWith s d (BitVec.ofNat 64 (bit01 (ctestVal (s.rc a) (s.rc b) (b == 0#5))))) s

end Sys2Proof.Machine
end

