-- ==== Sys2Proof/Machine/HostSide.lean ====
section
/-! DEFINITION. The host's side of a window: doorbells, entries and fences (R428 to R431), HACQ (R432), CXL.mem (R427), and the KweLink
routes (R433, R434). -/

namespace Sys2Proof.Machine

open Sys2Proof

/-- The live root region of a VF's binding. -/
def State.rootLive (s : State) (v : Nat) : Option Nat := let f := s.vf v; if f.en then s.regionAt f.part f.root else none

/-! Window registers (R428). -/

/-- The 8 bytes at o of an entry of the MSI-X table: the address, or the data with the mask bit above it (R428; log entry 91). -/
def Vf.msixRead (f : Vf) (vec o : Nat) : Nat :=
  let e := tget (0#64, 0#32) f.msix vec
  if o = 0 then e.1.toNat else if o = 8 then e.2.toNat + 2 ^ 32 * bit01 (bitAt f.mask vec) else 0

/-- A window register, counter, table entry or pending word as the host reads it; an unbound VF's window reads as zero (R402, R428). -/
def State.windowRead (s : State) (v off : Nat) : Nat :=
  let f := s.vf v
  if !f.en then 0
  else if off = 0x00 then f.hqbase.toNat
  else if off = 0x08 then f.hqtail
  else if off = 0x10 then f.hqhead
  else if off = 0x18 then f.dqbase.toNat
  else if off = 0x20 then f.dqhead
  else if off = 0x28 then f.dqtail
  else if off = 0x30 then f.fencedone.toNat
  else if off = 0x40 then f.hview
  else if 0x1000 ≤ off && off < 0x2000 then s.counterRead v (off - 0x1000)
  else if 0x2000 ≤ off && off < 0x2040 then f.msixRead ((off - 0x2000) / 16) (off % 16)
  else if off = 0x3000 then f.pba.toNat
  else 0

/-- A ring's base after a write: a LOG2 out of range is left as it is, and a ring that holds entries keeps its size and place
(R428). -/
def ringWrite (old v : W64) (head tail : Nat) : W64 :=
  let log := v.toNat % 16
  let n := ringSize old
  if 4 ≤ log then (if ringOn old && head % n != tail % n then old else v &&& 0xFFFFFFFFFFFFF00F#64)
  else (v &&& 0xFFFFFFFFFFFFF000#64) ||| (old &&& 0xF#64)

/-- A doorbell's tail counted as taken counts, on an enabled ring (R430). -/
def Vf.bellAt (f : Vf) (t : Nat) : Nat :=
  let n := ringSize f.hqbase
  f.taken + (t + n - f.hqhead % n) % n

/-- HQTAIL_DOORBELL: on a disabled ring the tail is stored, and counts once LOG2 is valid (R428, R430). -/
def execHqtailDoorbell (vf : Nat) (v : W64) (s : State) : Host.Outcome State Fault Refusal :=
  .next (if !(s.vf vf).en then s
    else
      (s.modVf vf fun f =>
        let t := v.toNat % 65536
        if ringOn f.hqbase then
          { f with hqtail := t, bells := (f.bells.filter fun b => decide (f.taken < b.1 + 32768)) ++ [(f.bellAt t, f.cxlStamp)] }
        else { f with hqtail := t, early := f.early ++ [(t, f.cxlStamp)] }).post (.hqEntryTake vf))

/-- HQBASE_WRITE (R428). -/
def execHqbaseWrite (vf : Nat) (v : W64) (s : State) : Host.Outcome State Fault Refusal :=
  .next (if !(s.vf vf).en then s
    else (s.modVf vf fun f =>
      let g := { f with hqbase := ringWrite f.hqbase v f.hqhead f.hqtail }
      if ringOn g.hqbase then { g with bells := g.bells ++ g.early.map fun e => (g.bellAt e.1, e.2), early := [] } else g).post (.hqEntryTake vf))

/-- DQBASE_WRITE (R428). -/
def execDqbaseWrite (vf : Nat) (v : W64) (s : State) : Host.Outcome State Fault Refusal :=
  .next (if !(s.vf vf).en then s
    else (s.modVf vf fun f => { f with dqbase := ringWrite f.dqbase v f.dqhead f.dqtail }).reofferAll)

/-- DQHEAD_WRITE: entries are free again, and what waited for one is offered (R428, R431). -/
def execDqheadWrite (vf : Nat) (v : W64) (s : State) : Host.Outcome State Fault Refusal :=
  .next (if !(s.vf vf).en then s else (s.modVf vf fun f => { f with dqhead := v.toNat % 65536 }).reofferAll)

/-! Entries (R429, R430). -/

/-- The source of a window's messages. -/
def windowSource (v : Nat) : Nat := noCore + 2 + v

/-- The stamp an entry of the ring carries: of the highest CXL.mem write before the doorbell that passed it (R430). -/
def Vf.bellFor (f : Vf) : Stamp :=
  ((f.bells.find? fun b => decide (f.taken < b.1)).map (·.2)).getD f.cxlStamp

/-- Header fields of a host-to-device entry that must be zero (R429). -/
def hqReserved (x : Nat) : Bool :=
  x / 2 ^ 24 % 2 ^ 8 != 0 || x / 2 ^ 41 % 2 ^ 7 != 0 || x / 2 ^ 48 % 2 ^ 16 != 0 || x / 2 ^ 96 % 2 ^ 416 != 0

/-- The message of an entry with the stamp it carries (R403, R313): eight data values. -/
def hqMsg (v : Nat) (f : Vf) (r x : Nat) (tail : Stamp) : Msg :=
  { region := r, target := x % 2 ^ 24, hdl := BitVec.ofNat 8 (x / 2 ^ 32), kind := .host f.taken, source := windowSource v, sender := 0
    payload := (List.range 8).map fun i => dataReg (BitVec.ofNat 64 (x / 2 ^ (512 + 64 * i))), tail := tail, vf := v }

/-- The message of a window leaves, and a fence waits until its trigger is retired (R430). -/
def State.windowSend (s : State) (v : Nat) (m : Msg) : State := (s.modVf v fun f => { f with waiting := f.waiting ++ [f.taken] }).launchMsg m

/-- The device takes the entry at HEAD: an error, a fence, or a message that HEAD passes once it is accepted (R430). -/
def State.takeEntry (s : State) (v r : Nat) : State :=
  let f := s.vf v
  let i := f.hqhead % ringSize f.hqbase
  let x := tread s.host (ringAt f.hqbase i) 128
  let again (s : State) : State := s.post (.hqEntryTake v)
  if hqReserved x || decide (s.gridSize r ≤ x % 2 ^ 24) then
    again (((s.chargeHost f.part f.port 64).modVf v Vf.pass).postError v i)
  else if x / 2 ^ 40 % 2 == 1 then
    again ((s.modVf v fun f => { f with fences := f.fences ++ [(x / 2 ^ 64 % 2 ^ 32, i, f.taken)] }.pass).post (.fenceComplete v))
  else (s.chargeHost f.part f.port 64).windowSend v (hqMsg v f r x f.bellFor)

/-- An entry of a joined module enters the window as a message with its header; its stamp is not honoured, and no byte of it crosses a host
port (R433, R406; log entry 30). -/
def State.takeLinkEntry (s : State) (v r : Nat) (e : List Byte) : State :=
  let f := s.vf v
  let x := leNat e
  if s.gridSize r ≤ x % 2 ^ 24 then ((s.modVf v Vf.passLink).postError v (f.taken % 65536)).post (.hqEntryTake v)
  else (s.modVf v fun f => { f with fromLink := true }).windowSend v (hqMsg v f r x 0)

/-- HQ_ENTRY_TAKE: of the ring in host memory, or of what came over the window's route, which stands in place of a host port (R430,
R433). -/
def execHqEntryTake (vf : Nat) (s : State) : Host.Outcome State Fault Refusal :=
  .next (
    let f := s.vf vf
    match s.rootLive vf with
    | some r =>
      if s.inFlight (windowSource vf) then s
      else match f.linkIn with
        | e :: _ => s.takeLinkEntry vf r e
        | [] =>
          if f.route.isSome || !ringOn f.hqbase || f.hqhead % ringSize f.hqbase == f.hqtail % ringSize f.hqbase then s
          else s.takeEntry vf r
    | none => s)

/-- The first fence of a window has completed: every message before it has retired its trigger (R430). -/
def Vf.fenceReady (f : Vf) : Bool := match f.fences with
  | e :: _ => f.waiting.all fun n => decide (e.2.2 ≤ n)
  | [] => false

/-- FENCE_COMPLETE: the record, FENCEDONE, and vector 2 (R430, R431). -/
def execFenceComplete (vf : Nat) (s : State) : Host.Outcome State Fault Refusal :=
  .next (match (s.vf vf).fences, s.rootLive vf with
    | (seq, i, _) :: rest, some r =>
      if !(s.vf vf).fenceReady then s
      else
        let s := s.modRegion r fun g => { g with fences := g.fences ++ [(seq, i)] }
        let s := s.modVf vf fun f =>
          { f with fences := rest, fencedone := BitVec.ofNat 32 seq, lastFence := (i + 1) % ringSize f.hqbase }
        let s := s.raiseMsix vf 2
        if rest.isEmpty then s else s.post (.fenceComplete vf)
    | _, _ => s)

/-! Views (R432, R427). -/

/-- HACQ (R432). -/
def execHacq (vf : Nat) (v : W64) (s : State) : Host.Outcome State Fault Refusal :=
  .next (if !(s.vf vf).en then s else (s.modVf vf fun f => { f with hacq := f.hacq ++ [v.toNat] }).post (.hacqComplete vf))

/-- The first acquire of a window may complete. -/
def State.hacqDue (s : State) (v : Nat) : Bool := ((s.vf v).hacq.head?).any fun t => decide (mkStamp t 0x1FFFF ≤ (s.part (s.vf v).part).fp)

/-- HACQ_COMPLETE: FP has reached (T, 0x1_FFFF) (R432). -/
def execHacqComplete (vf : Nat) (s : State) : Host.Outcome State Fault Refusal :=
  .next (if !s.hacqDue vf then s
    else
      let s := s.modVf vf fun f => { f with hview := stampTick (s.part f.part).fp, hacq := f.hacq.drop 1 }
      if (s.vf vf).hacq.isEmpty then s else s.post (.hacqComplete vf))

/-- CXL_MEM_READ: the line at HVIEW; a translation that faults gives poison and an error entry (R427, R429). -/
def execCxlMemRead (vf : Nat) (off : Nat) (s : State) : Host.Outcome State Fault Refusal :=
  .next (
    let f := s.vf vf
    let va := f.hdmva + off / 64 * 64
    match s.rootLive vf with
    | some r =>
      if f.hdmsize ≤ off then s.emit (.cxl vf off none)
      else
        let v := mkStamp f.hview 0x1FFFF
        match translate s f.part va .load r v .device with
        | (.ok pa, s) => match s.readPa f.part (s.homeOf f.part va) pa 64 true r (some v) with
          | (some x, s) => (s.emit (.cxl vf off (some (BitVec.ofNat 512 x.1)))).chargeHost f.part f.port 64
          | (none, s) => s.emit (.cxl vf off none)
        | (_, s) => (s.emit (.cxl vf off none)).postError vf (off / 64)
    | none => s.emit (.cxl vf off none))

/-- CXL_MEM_WRITE: the line goes to its atomic engine, after every tied request from a cluster (R108, R427). -/
def execCxlMemWrite (vf : Nat) (off : Nat) (v : BitVec 512) (s : State) : Host.Outcome State Fault Refusal :=
  .next (
    let f := s.vf vf
    let va := f.hdmva + off / 64 * 64
    if f.hdmsize ≤ off || (s.rootLive vf).isNone then s
    else
      let cl := s.engineOf f.part va
      let e : EngReq := { who := windowSource vf, id := vf, line := va / 64, arrival := s.tick, src := 121, org := 0, cxl := some v }
      (s.modCluster cl fun c => { c with engQ := joinQueue c.engQ e }).post (.atomicEngineRequest cl))

/-! KweLink (R433, R434). -/

/-- A VF's route is taken away: each entry that a port holds for it posts type 0xFE at the VF (R434). -/
def State.unroute (s : State) (vf : Nat) : State :=
  match (s.vf vf).route with
  | none => s
  | some (port, _) =>
    let n := ((s.kport port).held.filter fun e => e.1 == vf).length
    let s := (s.modKport port fun k => { k with held := k.held.filter fun e => e.1 != vf }).modVf vf fun f => { f with route := none }
    (List.range n).foldl (fun s _ => s.postError vf 0) s

/-- ROUTE_VF_KWELINK: a route elsewhere than the VF has takes that one away first (R433, R434; log entry 30). -/
def execRouteVfKwelink (vf port remote : Nat) (s : State) : Host.Outcome State Fault Refusal :=
  .next (if 1024 ≤ vf || 16 ≤ port || (s.kport port).ready != 1 then s.emit (.pfRefused vf)
    else if (s.vf vf).route == some (port, remote) then s
    else ((s.unroute vf).modVf vf fun f => { f with route := some (port, remote) }).reofferAll)

/-- UNROUTE_VF (R434). -/
def execUnrouteVf (vf : Nat) (s : State) : Host.Outcome State Fault Refusal :=
  .next (if (s.vf vf).route.isNone then s.emit (.pfRefused vf) else ((s.unroute vf).reofferAll).post (.hqEntryTake vf))

/-- KWELINK_LANE_LOSS: the port retrains to 8 or 4 lanes and holds its traffic (R434). -/
def execKwelinkLaneLoss (port lanes : Nat) (s : State) : Host.Outcome State Fault Refusal :=
  .next (if 16 ≤ port || (lanes != 8 && lanes != 4) then s.emit (.pfRefused port)
    else s.modKport port fun k => { k with lanes := lanes, retrain := some s.tick })

/-- KWELINK_RETRAIN_DONE: held traffic is replayed in its order (R434). -/
def execKwelinkRetrainDone (port : Nat) (s : State) : Host.Outcome State Fault Refusal :=
  .next (
    let es := (s.kport port).held
    let s := s.modKport port fun k => { k with retrain := none, down := false, held := [] }
    (es.foldl (fun s e => s.emit (.kwelink port (((s.vf e.1).route.map (·.2)).getD e.1) e.2)) s).reofferAll)

/-- A port has not retrained within 1 ms. -/
def State.linkLate (s : State) (port : Nat) : Bool :=
  !(s.kport port).down && (s.kport port).retrain.any fun t => decide (t + 2700000 ≤ s.tick)

/-- KWELINK_DOWN (R434). -/
def execKwelinkDown (port : Nat) (s : State) : Host.Outcome State Fault Refusal :=
  .next (if s.linkLate port then (s.modKport port fun k => { k with down := true }).emit (.pfReport 2 port) else s)

end Sys2Proof.Machine
end

