-- ==== Sys2Proof/Machine/Scalar.lean ====
section
/-! DEFINITION. Integer operations and immediate forms, majors 0x01 and 0x02 (R219 to R223). -/

namespace Sys2Proof.Machine

open Sys2Proof

/-- The two-operand results of R220 and R221. -/
inductive Alu where
  | add | sub | and | or | xor | shl | shr | sar | mul | mulhS | mulhN | divS | divN | remS | remN | minS | minN | maxS | maxN
  deriving DecidableEq, Repr

def aluVal (op : Alu) (a b : W64) : W64 :=
  let sh := b.toNat % 64
  match op with
  | .add => a + b
  | .sub => a - b
  | .and => a &&& b
  | .or => a ||| b
  | .xor => a ^^^ b
  | .shl => a <<< sh
  | .shr => a >>> sh
  | .sar => a.sshiftRight sh
  | .mul => a * b
  | .mulhS => BitVec.ofInt 64 (a.toInt * b.toInt / 2 ^ 64)
  | .mulhN => BitVec.ofNat 64 (a.toNat * b.toNat / 2 ^ 64)
  | .divS => if b = 0#64 then BitVec.allOnes 64 else BitVec.ofInt 64 (a.toInt.tdiv b.toInt)
  | .divN => if b = 0#64 then BitVec.allOnes 64 else a / b
  | .remS => if b = 0#64 then a else BitVec.ofInt 64 (a.toInt.tmod b.toInt)
  | .remN => if b = 0#64 then a else a % b
  | .minS => if b.slt a then b else a
  | .minN => if b.ult a then b else a
  | .maxS => if a.slt b then b else a
  | .maxN => if a.ult b then b else a

/-- Leading zeros, trailing zeros and ones of a (R220). -/
def clz64 (a : W64) : Nat := if a = 0#64 then 64 else 63 - Nat.log2 a.toNat
def ctz64 (a : W64) : Nat := ((List.range 64).find? fun i => bitAt a i).getD 64
def popc64 (a : W64) : Nat := (List.range 64).countP fun i => bitAt a i

/-- c(D) := Data(op(c(A), c(B))) (R220). -/
def aluRR (op : Alu) (d a b : Reg) (s : State) : Host.Outcome State Fault Refusal :=
  issue { mon := true, cr := [d, a, b] } (fun s => retireWith s d (aluVal op (s.rd a) (s.rd b))) s
/-- The form whose literal, or sign-extended immediate, replaces c(B); len is 12 with a literal, 4 without (R219, R223). -/
def aluRI (op : Alu) (len : Nat) (d a : Reg) (x : W64) (s : State) : Host.Outcome State Fault Refusal :=
  issue { len := len, mon := true, cr := [d, a] } (fun s => retireWith s d (aluVal op (s.rd a) x)) s
/-- c(D) := Data(f(c(A))). -/
def unaryR (f : W64 → W64) (d a : Reg) (s : State) : Host.Outcome State Fault Refusal :=
  issue { mon := true, cr := [d, a] } (fun s => retireWith s d (f (s.rd a))) s

/-- add (R220). -/
def execAdd (d a b : Reg) (s : State) : Host.Outcome State Fault Refusal := aluRR .add d a b s
def execAddLiteral (d a : Reg) (lit : W64) (s : State) : Host.Outcome State Fault Refusal := aluRI .add 12 d a lit s
/-- sub (R220). -/
def execSub (d a b : Reg) (s : State) : Host.Outcome State Fault Refusal := aluRR .sub d a b s
def execSubLiteral (d a : Reg) (lit : W64) (s : State) : Host.Outcome State Fault Refusal := aluRI .sub 12 d a lit s
/-- and (R220). -/
def execAnd (d a b : Reg) (s : State) : Host.Outcome State Fault Refusal := aluRR .and d a b s
def execAndLiteral (d a : Reg) (lit : W64) (s : State) : Host.Outcome State Fault Refusal := aluRI .and 12 d a lit s
/-- or (R220). -/
def execOr (d a b : Reg) (s : State) : Host.Outcome State Fault Refusal := aluRR .or d a b s
def execOrLiteral (d a : Reg) (lit : W64) (s : State) : Host.Outcome State Fault Refusal := aluRI .or 12 d a lit s
/-- xor (R220). -/
def execXor (d a b : Reg) (s : State) : Host.Outcome State Fault Refusal := aluRR .xor d a b s
def execXorLiteral (d a : Reg) (lit : W64) (s : State) : Host.Outcome State Fault Refusal := aluRI .xor 12 d a lit s
/-- shl (R220). -/
def execShl (d a b : Reg) (s : State) : Host.Outcome State Fault Refusal := aluRR .shl d a b s
def execShlLiteral (d a : Reg) (lit : W64) (s : State) : Host.Outcome State Fault Refusal := aluRI .shl 12 d a lit s
/-- shr (R220). -/
def execShr (d a b : Reg) (s : State) : Host.Outcome State Fault Refusal := aluRR .shr d a b s
def execShrLiteral (d a : Reg) (lit : W64) (s : State) : Host.Outcome State Fault Refusal := aluRI .shr 12 d a lit s
/-- sar (R220). -/
def execSar (d a b : Reg) (s : State) : Host.Outcome State Fault Refusal := aluRR .sar d a b s
def execSarLiteral (d a : Reg) (lit : W64) (s : State) : Host.Outcome State Fault Refusal := aluRI .sar 12 d a lit s
/-- mul (R220). -/
def execMul (d a b : Reg) (s : State) : Host.Outcome State Fault Refusal := aluRR .mul d a b s
def execMulLiteral (d a : Reg) (lit : W64) (s : State) : Host.Outcome State Fault Refusal := aluRI .mul 12 d a lit s
/-- mulhS (R220). -/
def execMulhS (d a b : Reg) (s : State) : Host.Outcome State Fault Refusal := aluRR .mulhS d a b s
def execMulhSLiteral (d a : Reg) (lit : W64) (s : State) : Host.Outcome State Fault Refusal := aluRI .mulhS 12 d a lit s
/-- mulhN (R220). -/
def execMulhN (d a b : Reg) (s : State) : Host.Outcome State Fault Refusal := aluRR .mulhN d a b s
def execMulhNLiteral (d a : Reg) (lit : W64) (s : State) : Host.Outcome State Fault Refusal := aluRI .mulhN 12 d a lit s
/-- divS (R221). -/
def execDivS (d a b : Reg) (s : State) : Host.Outcome State Fault Refusal := aluRR .divS d a b s
def execDivSLiteral (d a : Reg) (lit : W64) (s : State) : Host.Outcome State Fault Refusal := aluRI .divS 12 d a lit s
/-- divN (R221). -/
def execDivN (d a b : Reg) (s : State) : Host.Outcome State Fault Refusal := aluRR .divN d a b s
def execDivNLiteral (d a : Reg) (lit : W64) (s : State) : Host.Outcome State Fault Refusal := aluRI .divN 12 d a lit s
/-- remS (R221). -/
def execRemS (d a b : Reg) (s : State) : Host.Outcome State Fault Refusal := aluRR .remS d a b s
def execRemSLiteral (d a : Reg) (lit : W64) (s : State) : Host.Outcome State Fault Refusal := aluRI .remS 12 d a lit s
/-- remN (R221). -/
def execRemN (d a b : Reg) (s : State) : Host.Outcome State Fault Refusal := aluRR .remN d a b s
def execRemNLiteral (d a : Reg) (lit : W64) (s : State) : Host.Outcome State Fault Refusal := aluRI .remN 12 d a lit s
/-- minS (R220). -/
def execMinS (d a b : Reg) (s : State) : Host.Outcome State Fault Refusal := aluRR .minS d a b s
def execMinSLiteral (d a : Reg) (lit : W64) (s : State) : Host.Outcome State Fault Refusal := aluRI .minS 12 d a lit s
/-- minN (R220). -/
def execMinN (d a b : Reg) (s : State) : Host.Outcome State Fault Refusal := aluRR .minN d a b s
def execMinNLiteral (d a : Reg) (lit : W64) (s : State) : Host.Outcome State Fault Refusal := aluRI .minN 12 d a lit s
/-- maxS (R220). -/
def execMaxS (d a b : Reg) (s : State) : Host.Outcome State Fault Refusal := aluRR .maxS d a b s
def execMaxSLiteral (d a : Reg) (lit : W64) (s : State) : Host.Outcome State Fault Refusal := aluRI .maxS 12 d a lit s
/-- maxN (R220). -/
def execMaxN (d a b : Reg) (s : State) : Host.Outcome State Fault Refusal := aluRR .maxN d a b s
def execMaxNLiteral (d a : Reg) (lit : W64) (s : State) : Host.Outcome State Fault Refusal := aluRI .maxN 12 d a lit s
/-- clz (R220). -/
def execClz (d a : Reg) (s : State) : Host.Outcome State Fault Refusal := unaryR (fun x => BitVec.ofNat 64 (clz64 x)) d a s
/-- ctz (R220). -/
def execCtz (d a : Reg) (s : State) : Host.Outcome State Fault Refusal := unaryR (fun x => BitVec.ofNat 64 (ctz64 x)) d a s
/-- popc (R220). -/
def execPopc (d a : Reg) (s : State) : Host.Outcome State Fault Refusal := unaryR (fun x => BitVec.ofNat 64 (popc64 x)) d a s
/-- sel: c(D) is read as the condition before it is written (R220). -/
def execSel (d a b : Reg) (s : State) : Host.Outcome State Fault Refusal :=
  issue { mon := true, cr := [d, a, b] } (fun s => retireWith s d (if s.rd d != 0#64 then s.rd a else s.rd b)) s
def execSelLiteral (d a : Reg) (lit : W64) (s : State) : Host.Outcome State Fault Refusal :=
  issue { len := 12, mon := true, cr := [d, a] } (fun s => retireWith s d (if s.rd d != 0#64 then s.rd a else lit)) s
/-- mov: all 128 bits and the tag (R222). -/
def execMov (d a : Reg) (s : State) : Host.Outcome State Fault Refusal :=
  issue { mon := true, cr := [d, a] } (fun s => (s.wc d (s.rc a), .retire)) s
/-- cmp (R222). -/
def execCmp (cond : Cond) (d a b : Reg) (s : State) : Host.Outcome State Fault Refusal :=
  issue { mon := true, cr := [d, a, b] } (fun s => retireWith s d (BitVec.ofNat 64 (bit01 (condHolds cond (s.rd a) (s.rd b))))) s
def execCmpLiteral (cond : Cond) (d a : Reg) (lit : W64) (s : State) : Host.Outcome State Fault Refusal :=
  issue { len := 12, mon := true, cr := [d, a] } (fun s => retireWith s d (BitVec.ofNat 64 (bit01 (condHolds cond (s.rd a) lit)))) s

/-- addi: the immediate is sign-extended, or is the literal (R223). -/
def execAddi (d a : Reg) (imm : BitVec 11) (s : State) : Host.Outcome State Fault Refusal := aluRI .add 4 d a (sext64 imm) s
def execAddiLiteral (d a : Reg) (lit : W64) (s : State) : Host.Outcome State Fault Refusal := aluRI .add 12 d a lit s
/-- andi: the immediate is sign-extended, or is the literal (R223). -/
def execAndi (d a : Reg) (imm : BitVec 11) (s : State) : Host.Outcome State Fault Refusal := aluRI .and 4 d a (sext64 imm) s
def execAndiLiteral (d a : Reg) (lit : W64) (s : State) : Host.Outcome State Fault Refusal := aluRI .and 12 d a lit s
/-- ori: the immediate is sign-extended, or is the literal (R223). -/
def execOri (d a : Reg) (imm : BitVec 11) (s : State) : Host.Outcome State Fault Refusal := aluRI .or 4 d a (sext64 imm) s
def execOriLiteral (d a : Reg) (lit : W64) (s : State) : Host.Outcome State Fault Refusal := aluRI .or 12 d a lit s
/-- xori: the immediate is sign-extended, or is the literal (R223). -/
def execXori (d a : Reg) (imm : BitVec 11) (s : State) : Host.Outcome State Fault Refusal := aluRI .xor 4 d a (sext64 imm) s
def execXoriLiteral (d a : Reg) (lit : W64) (s : State) : Host.Outcome State Fault Refusal := aluRI .xor 12 d a lit s
/-- shli: the immediate is sign-extended, or is the literal (R223). -/
def execShli (d a : Reg) (imm : BitVec 11) (s : State) : Host.Outcome State Fault Refusal := aluRI .shl 4 d a (sext64 imm) s
def execShliLiteral (d a : Reg) (lit : W64) (s : State) : Host.Outcome State Fault Refusal := aluRI .shl 12 d a lit s
/-- shri: the immediate is sign-extended, or is the literal (R223). -/
def execShri (d a : Reg) (imm : BitVec 11) (s : State) : Host.Outcome State Fault Refusal := aluRI .shr 4 d a (sext64 imm) s
def execShriLiteral (d a : Reg) (lit : W64) (s : State) : Host.Outcome State Fault Refusal := aluRI .shr 12 d a lit s
/-- sari: the immediate is sign-extended, or is the literal (R223). -/
def execSari (d a : Reg) (imm : BitVec 11) (s : State) : Host.Outcome State Fault Refusal := aluRI .sar 4 d a (sext64 imm) s
def execSariLiteral (d a : Reg) (lit : W64) (s : State) : Host.Outcome State Fault Refusal := aluRI .sar 12 d a lit s
/-- li (R223). -/
def execLi (d : Reg) (imm : BitVec 11) (s : State) : Host.Outcome State Fault Refusal :=
  issue { mon := true, cr := [d] } (fun s => retireWith s d (sext64 imm)) s
def execLiLiteral (d : Reg) (lit : W64) (s : State) : Host.Outcome State Fault Refusal :=
  issue { len := 12, mon := true, cr := [d] } (fun s => retireWith s d lit) s

end Sys2Proof.Machine
end

