-- ==== Sys2Proof/Machine/ScalarFloat.lean ====
section
/-! DEFINITION. Scalar floating point, major 0x03 (R224 to R228). -/

namespace Sys2Proof.Machine

open Sys2Proof

def Rm.vrm : Rm → Vrm | .rne => .rne | .rz => .rz | .rdn => .rdn | .rup => .rup
/-- The format Q[0] selects (R224). -/
def fmtOf (f64 : Bool) : Fmt := if f64 then fp64 else fp32
/-- An operand's value (R225). -/
def fval (f64 : Bool) (x : W64) : Val := decodeFloat (fmtOf f64) (if f64 then x.toNat else x.toNat % 2 ^ 32)
/-- The exact value rounded once, zero-extended (R225). -/
def fround (f64 : Bool) (rm : Rm) (x : Val) : W64 := BitVec.ofNat 64 (roundTo (fmtOf f64) (Rm.vrm rm) false 0 x).1

/-- The rounding two-operand minors. -/
inductive FOp where
  | add | sub | mul | min | max
  deriving DecidableEq, Repr

def fopVal (op : FOp) (mode : Vrm) (a b : Val) : Val :=
  match op with
  | .add => a.add mode b
  | .sub => a.add mode b.negate
  | .mul => a.mul b
  | .min => a.minOf b
  | .max => a.maxOf b

def fopResult (op : FOp) (f64 : Bool) (rm : Rm) (a b : W64) : W64 :=
  fround f64 rm (fopVal op (Rm.vrm rm) (fval f64 a) (fval f64 b))

/-- a × b + d, rounded once (R226). -/
def ffmaResult (f64 : Bool) (rm : Rm) (a b d : W64) : W64 :=
  fround f64 rm (((fval f64 a).mul (fval f64 b)).add (Rm.vrm rm) (fval f64 d))

def fcmpHolds (cond : FCond) (a b : Val) : Bool :=
  match cond with
  | .eq => a.eq b
  | .lt => a.lt b
  | .le => a.lt b || a.eq b
  | .un => a.isNan || b.isNan

/-- FCVT (R228). -/
def fcvtResult (f64 : Bool) (rm : Rm) (sel : FcvtSel) (a : W64) : W64 :=
  let m := Rm.vrm rm
  let out (signed : Bool) : W64 := match fval f64 a with
    | .nan => 0#64
    | v => BitVec.ofNat 64 (toInt 64 signed m 0 v).1
  match sel with
  | .xf => if f64 then BitVec.ofNat 64 (roundTo fp64 m false 0 (fval false a)).1
           else BitVec.ofNat 64 (roundTo fp32 m false 0 (fval true a)).1
  | .sf => fround f64 rm (.ofInt a.toInt)
  | .nf => fround f64 rm (.ofInt a.toNat)
  | .fs => out true
  | .fn => out false

def fbinRR (op : FOp) (f64 : Bool) (rm : Rm) (d a b : Reg) (s : State) : Host.Outcome State Fault Refusal :=
  issue { mon := true, cr := [d, a, b] } (fun s => retireWith s d (fopResult op f64 rm (s.rd a) (s.rd b))) s
def fbinRI (op : FOp) (f64 : Bool) (rm : Rm) (d a : Reg) (lit : W64) (s : State) : Host.Outcome State Fault Refusal :=
  issue { len := 12, mon := true, cr := [d, a] } (fun s => retireWith s d (fopResult op f64 rm (s.rd a) lit)) s

/-- fadd (R226). -/
def execFadd (f64 : Bool) (rm : Rm) (d a b : Reg) (s : State) : Host.Outcome State Fault Refusal := fbinRR .add f64 rm d a b s
def execFaddLiteral (f64 : Bool) (rm : Rm) (d a : Reg) (lit : W64) (s : State) : Host.Outcome State Fault Refusal := fbinRI .add f64 rm d a lit s
/-- fsub (R226). -/
def execFsub (f64 : Bool) (rm : Rm) (d a b : Reg) (s : State) : Host.Outcome State Fault Refusal := fbinRR .sub f64 rm d a b s
def execFsubLiteral (f64 : Bool) (rm : Rm) (d a : Reg) (lit : W64) (s : State) : Host.Outcome State Fault Refusal := fbinRI .sub f64 rm d a lit s
/-- fmul (R226). -/
def execFmul (f64 : Bool) (rm : Rm) (d a b : Reg) (s : State) : Host.Outcome State Fault Refusal := fbinRR .mul f64 rm d a b s
def execFmulLiteral (f64 : Bool) (rm : Rm) (d a : Reg) (lit : W64) (s : State) : Host.Outcome State Fault Refusal := fbinRI .mul f64 rm d a lit s
/-- ffma (R226). -/
def execFfma (f64 : Bool) (rm : Rm) (d a b : Reg) (s : State) : Host.Outcome State Fault Refusal :=
  issue { mon := true, cr := [d, a, b] } (fun s => retireWith s d (ffmaResult f64 rm (s.rd a) (s.rd b) (s.rd d))) s
def execFfmaLiteral (f64 : Bool) (rm : Rm) (d a : Reg) (lit : W64) (s : State) : Host.Outcome State Fault Refusal :=
  issue { len := 12, mon := true, cr := [d, a] } (fun s => retireWith s d (ffmaResult f64 rm (s.rd a) lit (s.rd d))) s
/-- fmin (R226). -/
def execFmin (f64 : Bool) (d a b : Reg) (s : State) : Host.Outcome State Fault Refusal := fbinRR .min f64 .rne d a b s
def execFminLiteral (f64 : Bool) (d a : Reg) (lit : W64) (s : State) : Host.Outcome State Fault Refusal := fbinRI .min f64 .rne d a lit s
/-- fmax (R226). -/
def execFmax (f64 : Bool) (d a b : Reg) (s : State) : Host.Outcome State Fault Refusal := fbinRR .max f64 .rne d a b s
def execFmaxLiteral (f64 : Bool) (d a : Reg) (lit : W64) (s : State) : Host.Outcome State Fault Refusal := fbinRI .max f64 .rne d a lit s
/-- fcmp (R227). -/
def execFcmp (f64 : Bool) (cond : FCond) (d a b : Reg) (s : State) : Host.Outcome State Fault Refusal :=
  issue { mon := true, cr := [d, a, b] } (fun s => retireWith s d (BitVec.ofNat 64 (bit01 (fcmpHolds cond (fval f64 (s.rd a)) (fval f64 (s.rd b)))))) s
def execFcmpLiteral (f64 : Bool) (cond : FCond) (d a : Reg) (lit : W64) (s : State) : Host.Outcome State Fault Refusal :=
  issue { len := 12, mon := true, cr := [d, a] } (fun s => retireWith s d (BitVec.ofNat 64 (bit01 (fcmpHolds cond (fval f64 (s.rd a)) (fval f64 lit))))) s
/-- fcvt (R228). -/
def execFcvt (f64 : Bool) (rm : Rm) (sel : FcvtSel) (d a : Reg) (s : State) : Host.Outcome State Fault Refusal :=
  unaryR (fcvtResult f64 rm sel) d a s
/-- fabs: the sign bit cleared (R226). -/
def execFabs (f64 : Bool) (d a : Reg) (s : State) : Host.Outcome State Fault Refusal :=
  unaryR (fun x => if f64 then x &&& 0x7FFFFFFFFFFFFFFF#64 else x &&& 0x7FFFFFFF#64) d a s
/-- fneg: the sign bit inverted (R226). -/
def execFneg (f64 : Bool) (d a : Reg) (s : State) : Host.Outcome State Fault Refusal :=
  unaryR (fun x => if f64 then x ^^^ 0x8000000000000000#64 else (x &&& 0xFFFFFFFF#64) ^^^ 0x80000000#64) d a s

end Sys2Proof.Machine
end

