-- ==== Sys2Proof/Machine/Spdm.lean ====
section
/-! DEFINITION. The SPDM 1.3 Responder of each function (R410, R411). Functions 0 to 1,023 are the VFs, 1,024 to 1,027 the physical
functions of the four ports. The bytes of messages follow the published SPDM 1.3 (log entry 21). -/

namespace Sys2Proof.Machine

open Sys2Proof

/-- Functions past the VFs are physical. -/
def isPf (fn : Nat) : Bool := decide (1024 ≤ fn)

/-- A message: version, code, two parameters. -/
def spdmHead (ver code p1 p2 : Nat) : List Byte := [BitVec.ofNat 8 ver, BitVec.ofNat 8 code, BitVec.ofNat 8 p1, BitVec.ofNat 8 p2]

/-- An error response with its code. -/
def spdmError (code : Nat) : List Byte := spdmHead 0x13 0x7F code 0

def invalidRequest : Nat := 0x01
def versionMismatch : Nat := 0x41

def State.answer (s : State) (fn : Nat) (bs : List Byte) : State := s.emit (.spdm fn bs)

/-- Answers a request of version 1.3; any other version gets an error response (R410). -/
def spdmAnswer (fn ver : Nat) (f : State → List Byte × State) (s : State) : Host.Outcome State Fault Refusal :=
  .next (if ver != 0x13 then s.answer fn (spdmError versionMismatch)
    else
      let r := f s
      r.2.answer fn r.1)

/-- GET_VERSION: 1.3 and no other (R410). -/
def execGetVersion (fn : Nat) (s : State) : Host.Outcome State Fault Refusal :=
  .next (s.answer fn (spdmHead 0x10 0x04 0 0 ++ [0x00#8, 0x01#8, 0x00#8, 0x13#8]))

/-- GET_CAPABILITIES: certificates, challenge, signed measurements with fresh values, encrypted sessions (R410). -/
def execGetCapabilities (fn ver : Nat) (s : State) : Host.Outcome State Fault Refusal :=
  spdmAnswer fn ver (fun s => (spdmHead 0x13 0x61 0 0 ++ Config.capabilities, s)) s

/-- NEGOTIATE_ALGORITHMS: ECDSA over P-384 with SHA-384, or an error (R410). -/
def execNegotiateAlgorithms (fn ver : Nat) (p384 sha384 : Bool) (s : State) : Host.Outcome State Fault Refusal :=
  spdmAnswer fn ver (fun s =>
    (if p384 && sha384 then
      spdmHead 0x13 0x63 0 0 ++ leBytes 2 36 ++ [0x01#8, 0x00#8] ++ leBytes 4 1 ++ leBytes 4 0x80 ++ leBytes 4 2 ++ leBytes 16 0
    else spdmError invalidRequest, s)) s

/-- GET_DIGESTS: of the chain in slot 0 (R410). -/
def execGetDigests (fn ver : Nat) (s : State) : Host.Outcome State Fault Refusal :=
  spdmAnswer fn ver (fun s => (spdmHead 0x13 0x01 0 1 ++ sha384 Config.certificate, s)) s

/-- GET_CERTIFICATE: a portion of the chain in slot 0 (R410). -/
def execGetCertificate (fn ver slot off len : Nat) (s : State) : Host.Outcome State Fault Refusal :=
  spdmAnswer fn ver (fun s =>
    let c := Config.certificate
    let part := (c.drop off).take len
    (if slot != 0 || c.length ≤ off then spdmError invalidRequest
     else spdmHead 0x13 0x02 0 0 ++ leBytes 2 part.length ++ leBytes 2 (c.length - off - part.length) ++ part, s)) s

/-- CHALLENGE: signed by the device identity key over the nonces (R410). -/
def execChallenge (fn ver slot : Nat) (nonce : List Byte) (s : State) : Host.Outcome State Fault Refusal :=
  spdmAnswer fn ver (fun s =>
    if slot != 0 then (spdmError invalidRequest, s)
    else
      let r := s.freeBytes 32
      let body := spdmHead 0x13 0x03 0 1 ++ sha384 Config.certificate ++ r.1 ++ leBytes 2 0
      (body ++ Config.sign (nonce ++ body), r.2)) s

/-- A lift pass: record n followed by H_n (R411, R413). -/
def State.liftPass (s : State) (p : Nat) : List Byte := ((s.part p).records.getLast?).getD [] ++ leBytes 48 (s.part p).chain

/-- Records n − 15 to n, oldest first, those there are. -/
def State.lastRecords (s : State) (p : Nat) : List Byte := (s.part p).records.flatten

/-- The block of a measurement index, none where it is refused (R411). -/
def State.measurement (s : State) (fn index : Nat) : Option (List Byte) :=
  let p := (s.vf fn).part
  let has (q : Nat) : Bool := !(s.part q).records.isEmpty
  if index = 0x01 then some (leBytes 48 Config.firmwareHash)
  else if isPf fn then (if 0x80 ≤ index && index ≤ 0x80 + 120 && has (index - 0x80) then some (s.liftPass (index - 0x80)) else none)
  else if !(s.vf fn).en then none
  else if index = 0x02 then some (s.monitorDigest p)
  else if index = 0x10 then (if has p then some (s.liftPass p) else none)
  else if index = 0x11 then (if has p then some (s.lastRecords p) else none)
  else none

/-- GET_MEASUREMENTS: one block in raw bit-stream form, signed over the requester's nonce where it asks for it (R411). -/
def execGetMeasurements (fn ver index : Nat) (nonce : List Byte) (signed : Bool) (s : State) : Host.Outcome State Fault Refusal :=
  spdmAnswer fn ver (fun s =>
    match s.measurement fn index with
    | none => (spdmError invalidRequest, s)
    | some b =>
      let block := [BitVec.ofNat 8 index, 0x01#8] ++ leBytes 2 (b.length + 3) ++ [0x80#8] ++ leBytes 2 b.length ++ b
      let r := s.freeBytes 32
      let body := spdmHead 0x13 0x60 0 0 ++ [0x01#8] ++ leBytes 3 block.length ++ block ++ r.1 ++ leBytes 2 0
      (if signed then body ++ Config.sign (nonce ++ body) else body, r.2)) s

/-- SPDM_SESSION_MESSAGE: the session messages that set up IDE keys; the first byte of each is its version (R410, R426). -/
def execSpdmSessionMessage (fn : Nat) (bytes : List Byte) (s : State) : Host.Outcome State Fault Refusal :=
  spdmAnswer fn (bytes.headD 0#8).toNat (fun s => (Config.session bytes, s)) s

end Sys2Proof.Machine
end

