-- ==== Sys2Proof/Machine/Store.lean ====
section
/-! DEFINITION. Scalar stores, major 0x11 (R126), the room checks of the trail (R107) and its spills (R88). -/

namespace Sys2Proof.Machine

open Sys2Proof

/-- Appends a store's entries as one act (R86). -/
def State.append (s : State) (k : Nat) (es : List TrailEntry) : State :=
  s.modCore k fun c => { c with trail := trailAddAll c.trail es }

/-- Trail entries behind the newest 1,024 lie in the trail area: one goes there for each that an append adds beyond the buffer
(R88). before is the core's count of entries before it. -/
def State.spillNote (s : State) (k before : Nat) : State :=
  (List.range (s.trailTotal k - bufferRoom - (before - bufferRoom))).foldl (fun s _ => s.post (.trailSpill k)) s

/-- TrailRoom and AppendTrail (R107, R126, R131): TRAIL_FULL, an automatic release, a stall, or the append. -/
def storeEntries (es : List TrailEntry) (s : State) : Act :=
  if s.my.prog.step = 1 then (s, .retire)
  else
    let k := s.myKey
    let new := newGranules s.my.trail es
    let s := if s.my.prog.rel.isSome then s.modMy fun c => { c with autorelBit := true } else s
    let put (s : State) : Act :=
      let k := s.myKey
      let new := newGranules s.my.trail es
      if s.trailRoom k < new then (s.modMy fun c => { c with stall := .trail es }, .done)
      else ((s.append k es).spillNote k (s.trailTotal k), .retire)
    if s.segRoom k < new then
      if s.autorel s.myRegion then
        withRelease s (some (s.mkCkpt s.my.pc 0xFFFFFFFF s.my.sig)) fun s _ => put (s.modMy fun c => { c with autorelBit := true })
      else (s, .trap .trailFull 0 0)
    else put s

/-- A scalar store of n bytes (R126). -/
def scalarStore (n : Nat) (len : Nat) (d a : Reg) (disp : Int) (s : State) : Host.Outcome State Fault Refusal :=
  issue { len := len, cr := [d, a] } (fun s =>
    let c := s.rc a
    let ea : Int := c.addr + disp
    match checkCap c ea n n { s := true } with
    | some e => trapEa s e ea
    | none => storeEntries (granuleWrites ea.toNat n (s.rd d).toNat false) s) s

/-- STC (R126, R59). -/
def capStore (len : Nat) (d a : Reg) (disp : Int) (s : State) : Host.Outcome State Fault Refusal :=
  issue { len := len, cr := [d, a] } (fun s =>
    let c := s.rc a
    let x := s.rc d
    let ea : Int := c.addr + disp
    match checkCap c ea 16 16 { s := true, k := x.tag } with
    | some e => trapEa s e ea
    | none =>
      if x.tag && !devHalf ea.toNat then trapEa s .capPerm ea
      else storeEntries (granuleWrites ea.toNat 16 x.bits.toNat x.tag) s) s

def execSt8 (d a : Reg) (imm : BitVec 11) (s : State) : Host.Outcome State Fault Refusal := scalarStore 1 4 d a imm.toInt s
def execSt8Literal (d a : Reg) (lit : W64) (s : State) : Host.Outcome State Fault Refusal := scalarStore 1 12 d a lit.toInt s
def execSt16 (d a : Reg) (imm : BitVec 11) (s : State) : Host.Outcome State Fault Refusal := scalarStore 2 4 d a imm.toInt s
def execSt16Literal (d a : Reg) (lit : W64) (s : State) : Host.Outcome State Fault Refusal := scalarStore 2 12 d a lit.toInt s
def execSt32 (d a : Reg) (imm : BitVec 11) (s : State) : Host.Outcome State Fault Refusal := scalarStore 4 4 d a imm.toInt s
def execSt32Literal (d a : Reg) (lit : W64) (s : State) : Host.Outcome State Fault Refusal := scalarStore 4 12 d a lit.toInt s
def execSt64 (d a : Reg) (imm : BitVec 11) (s : State) : Host.Outcome State Fault Refusal := scalarStore 8 4 d a imm.toInt s
def execSt64Literal (d a : Reg) (lit : W64) (s : State) : Host.Outcome State Fault Refusal := scalarStore 8 12 d a lit.toInt s
def execStc (d a : Reg) (imm : BitVec 11) (s : State) : Host.Outcome State Fault Refusal := capStore 4 d a imm.toInt s
def execStcLiteral (d a : Reg) (lit : W64) (s : State) : Host.Outcome State Fault Refusal := capStore 12 d a lit.toInt s

/-- TRAIL_SPILL: the oldest entry of the buffer goes to the trail area, charged to the region (R88). -/
def execTrailSpill (k : Nat) (s : State) : Host.Outcome State Fault Refusal :=
  .next (s.trailTouch k true [s.trailTotal k - bufferRoom])

/-- TRAIL_REFILL: a load that forwards from spilled entries reads their lines of the trail area, and then goes on (R88). -/
def execTrailRefill (k id : Nat) (s : State) : Host.Outcome State Fault Refusal :=
  .next (match tget none (s.core k).reqs id with
    | some q => (((s.trailTouch k false q.refills).modCore k fun c =>
        { c with reqs := tput none id (some { q with refills := [] }) c.reqs }).post (.loadRequest k id))
    | none => s)

/-- TRAIL_STALL_END: the stalled store appends once folding has freed room (R107). -/
def execTrailStallEnd (k : Nat) (s : State) : Host.Outcome State Fault Refusal :=
  .next (match (s.core k).stall with
    | .trail es =>
      if s.trailRoom k < newGranules (s.core k).trail es then s
      else ((s.append k es).spillNote k (s.trailTotal k)).modCore k fun c => { c with stall := .none, prog := { c.prog with step := 1 } }
    | _ => s)

end Sys2Proof.Machine
end

