-- ==== Sys2Proof/Machine/VecLogic.lean ====
section
/-! DEFINITION. Vector logic, major 0x21 (R268). -/

namespace Sys2Proof.Machine

open Sys2Proof

/-- Minors with two operands, and with one. -/
inductive VLog where
  | and | or | xor | shl | shr | sar
  deriving DecidableEq, Repr
inductive VLog1 where
  | not | popc | clz
  deriving DecidableEq, Repr

def VLog.shift (op : VLog) : Bool := match op with | .shl => true | .shr => true | .sar => true | _ => false

/-- Element(i) on w-bit patterns (R268). -/
def vlogElem (op : VLog) (w a b : Nat) : Nat :=
  match op with
  | .and => a &&& b
  | .or => a ||| b
  | .xor => a ^^^ b
  | .shl => a * 2 ^ (b % w) % 2 ^ w
  | .shr => a / 2 ^ (b % w)
  | .sar => intCode w (decodeInt w true a / 2 ^ (b % w))

def onesOf (a : Nat) : Nat → Nat
  | 0 => 0
  | n + 1 => a / 2 ^ n % 2 + onesOf a n

def vlog1Elem (op : VLog1) (w a : Nat) : Nat :=
  match op with
  | .not => 2 ^ w - 1 - a
  | .popc => onesOf a w
  | .clz => if a = 0 then w else w - 1 - Nat.log2 a

/-- A two-operand minor: the logic minors take any one tag, the shifts integers of one width (R268). -/
def vlog (op : VLog) (m : Option Mask) (d a b : Reg) (s : State) : Host.Outcome State Fault Refusal :=
  vecOp 4 [] ([d, a, b] ++ maskRegs m)
    (fun s =>
      let t := (s.vr a).tag
      let u := (s.vr b).tag
      s.maskOk m && (match s.kind t, s.kind u with
        | some k, some j => if op.shift then k.isInt && j.isInt && k.width == j.width else t == u && (m.isNone || k.typed)
        | _, _ => false) && s.keepOk m d t)
    noMacs
    (fun s => match s.kind (s.vr a).tag with
      | some k => s.vectorWrite m d (s.vr a).tag k.width k.count false
          (plain fun i => vlogElem op k.bits (k.elem (s.vbits a) i) (k.elem (s.vbits b) i))
      | none => s) s

/-- A one-operand minor (R268). -/
def vlog1 (op : VLog1) (m : Option Mask) (d a : Reg) (s : State) : Host.Outcome State Fault Refusal :=
  vecOp 4 [] ([d, a] ++ maskRegs m)
    (fun s =>
      let t := (s.vr a).tag
      s.maskOk m && (s.kind t).any (fun k => if op == .not then m.isNone || k.typed else k.isInt) && s.keepOk m d t)
    noMacs
    (fun s => match s.kind (s.vr a).tag with
      | some k => s.vectorWrite m d (s.vr a).tag k.width k.count false (plain fun i => vlog1Elem op k.bits (k.elem (s.vbits a) i))
      | none => s) s

def execVand (m : Option Mask) (d a b : Reg) (s : State) : Host.Outcome State Fault Refusal := vlog .and m d a b s
def execVor (m : Option Mask) (d a b : Reg) (s : State) : Host.Outcome State Fault Refusal := vlog .or m d a b s
def execVxor (m : Option Mask) (d a b : Reg) (s : State) : Host.Outcome State Fault Refusal := vlog .xor m d a b s
def execVnot (m : Option Mask) (d a : Reg) (s : State) : Host.Outcome State Fault Refusal := vlog1 .not m d a s
def execVshl (m : Option Mask) (d a b : Reg) (s : State) : Host.Outcome State Fault Refusal := vlog .shl m d a b s
def execVshr (m : Option Mask) (d a b : Reg) (s : State) : Host.Outcome State Fault Refusal := vlog .shr m d a b s
def execVsar (m : Option Mask) (d a b : Reg) (s : State) : Host.Outcome State Fault Refusal := vlog .sar m d a b s
def execVpopc (m : Option Mask) (d a : Reg) (s : State) : Host.Outcome State Fault Refusal := vlog1 .popc m d a s
def execVclz (m : Option Mask) (d a : Reg) (s : State) : Host.Outcome State Fault Refusal := vlog1 .clz m d a s

end Sys2Proof.Machine
end

