-- ==== Sys2Proof/Machine/VecMask.lean ====
section
/-! DEFINITION. Vector compares, selects and mask instructions, major 0x22 (R269 to R271). -/

namespace Sys2Proof.Machine

open Sys2Proof

inductive VCmp where
  | eq | ne | lt | le | un
  deriving DecidableEq, Repr

/-- The condition on two elements (R269). -/
def vcmpHolds (op : VCmp) (k : Kind) (a b : Nat) : Bool :=
  let x := k.value a
  let y := k.value b
  match op with
  | .eq => x.eq y
  | .ne => !x.eq y
  | .lt => x.lt y
  | .le => x.lt y || x.eq y
  | .un => x.isNan || y.isNan

/-- A compare: a mask of N bits (R269). -/
def vcmp (op : VCmp) (m : Option Mask) (d a b : Reg) (s : State) : Host.Outcome State Fault Refusal :=
  vecOp 4 [] ([d, a, b] ++ maskRegs m)
    (fun s =>
      let t := (s.vr a).tag
      s.maskOk m && t == (s.vr b).tag && (s.kind t).any (·.sums) && s.keepOk m d 0x40#8)
    noMacs
    (fun s => match s.kind (s.vr a).tag with
      | some k => s.vectorWrite m d 0x40#8 1 k.count false
          (plain fun i => bit01 (vcmpHolds op k (elemOf (s.vbits a) k.width i) (elemOf (s.vbits b) k.width i)))
      | none => s) s

def execVcmpeq (m : Option Mask) (d a b : Reg) (s : State) : Host.Outcome State Fault Refusal := vcmp .eq m d a b s
def execVcmpne (m : Option Mask) (d a b : Reg) (s : State) : Host.Outcome State Fault Refusal := vcmp .ne m d a b s
def execVcmplt (m : Option Mask) (d a b : Reg) (s : State) : Host.Outcome State Fault Refusal := vcmp .lt m d a b s
def execVcmple (m : Option Mask) (d a b : Reg) (s : State) : Host.Outcome State Fault Refusal := vcmp .le m d a b s
def execVcmpun (m : Option Mask) (d a b : Reg) (s : State) : Host.Outcome State Fault Refusal := vcmp .un m d a b s

/-- VSEL (R270): v(MR) selects, every element is written. -/
def execVsel (mr : BitVec 2) (d a b : Reg) (s : State) : Host.Outcome State Fault Refusal :=
  let sel : Mask := { agnostic := false, reg := mr }
  vecOp 4 [] [d, a, b, maskReg sel]
    (fun s =>
      let t := (s.vr a).tag
      s.maskOk (some sel) && t == (s.vr b).tag && (s.kind t).any (·.typed))
    noMacs
    (fun s => match s.kind (s.vr a).tag with
      | some k => s.vectorWrite none d (s.vr a).tag k.width k.count false
          (plain fun i => if s.enabled (some sel) i then k.elem (s.vbits a) i else k.elem (s.vbits b) i)
      | none => s) s

/-- VMERGE (R270): v(VB) selects v(VA)'s elements, the others stand. -/
def execVmerge (m : Option Mask) (d a b : Reg) (s : State) : Host.Outcome State Fault Refusal :=
  vecOp 4 [] ([d, a, b] ++ maskRegs m)
    (fun s =>
      let t := (s.vr a).tag
      s.maskOk m && (s.kind t).any (·.typed) && (s.vr b).tag == 0x40#8 && (s.vr d).tag == t)
    noMacs
    (fun s => match s.kind (s.vr a).tag with
      | some k => s.vectorWrite m d (s.vr a).tag k.width k.count false
          (plain fun i => if s.vbits b / 2 ^ i % 2 = 1 then k.elem (s.vbits a) i else k.elem (s.vbits d) i)
      | none => s) s

/-- The bits VPOPM and VFIRST count (R271). -/
def countedBits (s : State) (mr : Option (BitVec 2)) (a : Reg) : Nat :=
  match mr with
  | some r => s.vbits a &&& s.vbits (r.zeroExtend 5)
  | none => s.vbits a

def maskSource (s : State) (mr : Option (BitVec 2)) (a : Reg) : Bool :=
  (mr.all fun r => (s.vr (r.zeroExtend 5)).tag == 0x40#8) && (s.vr a).tag == 0x40#8

/-- The lowest one bit below n. -/
def firstBit (x : Nat) (n : Nat) : Option Nat := (List.range n).find? fun i => x / 2 ^ i % 2 == 1

def execVpopm (mr : Option (BitVec 2)) (d a : Reg) (s : State) : Host.Outcome State Fault Refusal :=
  vecOp 4 [] ([d, a] ++ srcRegs mr) (fun s => maskSource s mr a) noMacs
    (fun s => s.setV d (onesOf (countedBits s mr a) 1024) 0x17#8) s
def execVfirst (mr : Option (BitVec 2)) (d a : Reg) (s : State) : Host.Outcome State Fault Refusal :=
  vecOp 4 [] ([d, a] ++ srcRegs mr) (fun s => maskSource s mr a) noMacs
    (fun s => s.setV d ((firstBit (countedBits s mr a) 1024).getD (2 ^ 64 - 1)) 0x16#8) s

/-- The tag of VIOTA's result (R271, R245). -/
def iotaTag (k : BitVec 2) : Byte := BitVec.ofNat 8 (0x11 + 2 * k.toNat)

def execViota (m : Option Mask) (d a : Reg) (k : BitVec 2) (s : State) : Host.Outcome State Fault Refusal :=
  let w := 8 * 2 ^ k.toNat
  vecOp 4 [] ([d, a] ++ maskRegs m)
    (fun s => s.maskOk m && (s.vr a).tag == 0x40#8 && s.keepOk m d (iotaTag k)) noMacs
    (fun s => s.vectorWrite m d (iotaTag k) w (1024 / w) false (plain fun i => onesOf (s.vbits a) i)) s

/-- Mask logic: one bit an element, 1,024 elements (R271). -/
def vmask (m : Option Mask) (d : Reg) (src : List Reg) (f : State → Nat) (s : State) : Host.Outcome State Fault Refusal :=
  vecOp 4 [] (d :: src ++ maskRegs m)
    (fun s => s.maskOk m && src.all (fun r => (s.vr r).tag == 0x40#8) && s.keepOk m d 0x40#8) noMacs
    (fun s => s.vectorWrite m d 0x40#8 1 1024 false (plain fun i => f s / 2 ^ i % 2)) s

def execVmaskand (m : Option Mask) (d a b : Reg) (s : State) : Host.Outcome State Fault Refusal :=
  vmask m d [a, b] (fun s => s.vbits a &&& s.vbits b) s
def execVmaskor (m : Option Mask) (d a b : Reg) (s : State) : Host.Outcome State Fault Refusal :=
  vmask m d [a, b] (fun s => s.vbits a ||| s.vbits b) s
def execVmasknot (m : Option Mask) (d a : Reg) (s : State) : Host.Outcome State Fault Refusal :=
  vmask m d [a] (fun s => 2 ^ 1024 - 1 - s.vbits a) s

end Sys2Proof.Machine
end

