-- ==== Sys2Proof/Machine/VecMem.lean ====
section
/-! DEFINITION. Vector loads and stores, major 0x12 (R127 to R131). -/

namespace Sys2Proof.Machine

open Sys2Proof

def ewBits (e : Ew) : Nat := match e with | .e8 => 8 | .e16 => 16 | .e32 => 32 | .e64 => 64

/-- The elements of an access (R128): count, width, address of element i, alignment of its check. -/
structure VAccess where
  n : Nat
  w : Nat
  addr : Nat → Int
  align : Nat

/-- Enabled elements of an access. -/
def VAccess.live (v : VAccess) (s : State) (m : Option Mask) : List Nat := (List.range v.n).filter fun i => s.enabled m i

/-- LDV and STV: one 128-byte block, checked as one access at ea0 (R128, R129). -/
def blockAccess (w : Nat) (ea0 : Int) : VAccess := { n := 1024 / w, w := w, addr := fun i => ea0 + (i * w / 8 : Nat), align := 16 }
/-- LDVS and STVS (R128). -/
def strideAccess (ew : Ew) (ea0 stride : Int) : VAccess :=
  { n := 1024 / ewBits ew, w := ewBits ew, addr := fun i => ea0 + (i : Int) * stride, align := ewBits ew / 8 }
/-- LDVG and STVG: lane i of v(VI), signed under S32 (R128). -/
def gatherAccess (ew : Ew) (ea0 : Int) (s : State) (vi : Reg) : VAccess :=
  let x := s.vr vi
  { n := min 32 (1024 / ewBits ew), w := ewBits ew, align := ewBits ew / 8
    addr := fun i => ea0 + decodeInt 32 (x.tag == 0x14#8) (elemOf x.bits.toNat 32 i) * (ewBits ew / 8 : Nat) }

/-- The capability checks of R129 for elements; FAULTVA is the failing element's address, of CAP_TAG and CAP_PERM the first
enabled one's, or element 0's where none is enabled (log entry 67). -/
def checkElems (c : CReg) (v : VAccess) (live : List Nat) (p : Perms) : Option (Cause × Int) :=
  let n := v.w / 8
  if !c.tag then some (.capTag, v.addr (live.headD 0))
  else match live.find? fun i => v.addr i % (v.align : Int) ≠ 0 with
    | some i => some (.misaligned, v.addr i)
    | none => match live.find? fun i => decide (v.addr i < c.base ∨ (c.top : Int) < v.addr i + n) with
      | some i => some (.capBounds, v.addr i)
      | none => if p.within c then none else some (.capPerm, v.addr (live.headD 0))

/-- The capability checks of R129 for a block: enabled elements, FAULTVA ea0; the alignment is ea0's, to 16 (R128). -/
def checkBlock (c : CReg) (v : VAccess) (live : List Nat) (ea0 : Int) (p : Perms) : Option (Cause × Int) :=
  if !c.tag then some (.capTag, ea0)
  else if !live.isEmpty && decide (ea0 % 16 ≠ 0) then some (.misaligned, ea0)
  else if live.any fun i => decide (v.addr i < c.base ∨ (c.top : Int) < v.addr i + ((v.w + 7) / 8 : Nat)) then some (.capBounds, ea0)
  else if p.within c then none else some (.capPerm, ea0)

/-- The bytes a load fetches: (byte of the result, address) of each enabled element. -/
def vplaces (v : VAccess) (live : List Nat) : List (Nat × Nat) :=
  if v.w < 8 then ((List.range 128).filter fun j => live.any fun i => i / 2 == j).map fun j => (j, (v.addr (2 * j)).toNat)
  else live.flatMap fun i => (List.range (v.w / 8)).map fun j => (i * v.w / 8 + j, (v.addr i).toNat + j)

/-- The bits of the result that the load brings, and those that stand (R130). -/
def vkeep (s : State) (v : VAccess) (m : Option Mask) (d : Reg) : Nat × Nat :=
  (List.range v.n).foldl (fun a i =>
    if s.enabled m i then (a.1 + (2 ^ v.w - 1) * 2 ^ (v.w * i), a.2)
    else (a.1, a.2 + (if agnosticOf m then 2 ^ v.w - 1 else elemOf (s.vbits d) v.w i) * 2 ^ (v.w * i))) (0, 0)

/-- The load proper, its checks passed (R130). -/
def vloadBody (s : State) (v : VAccess) (m : Option Mask) (d : Reg) (tag : Byte) : Act :=
  let live := v.live s m
  let k := vkeep s v m d
  vecStart (d :: maskRegs m) s (fun s => startLoad s (.vector d tag k.1 k.2) (v.addr (live.headD 0)).toNat (vplaces v live) false false) false

/-- The bytes a store writes, as granule writes of single bytes, or of the 16 bytes of a granule where they are whole;
v(D)'s element i goes to its address (R131). -/
def vstoreEntries (bits : Nat) (v : VAccess) (live : List Nat) : List TrailEntry :=
  live.flatMap fun i => granuleWrites (v.addr i).toNat (v.w / 8) (elemOf bits v.w i) false

/-- A sub-byte block stores whole bytes, without a mask (R129, R131). -/
def vblockEntries (bits : Nat) (v : VAccess) (live : List Nat) (ea0 : Nat) : List TrailEntry :=
  if v.w < 8 || v.w = 1024 then (List.range 8).flatMap fun j => granuleWrites (ea0 + 16 * j) 16 (bits / 2 ^ (128 * j)) false
  else trailAddAll [] (vstoreEntries bits v live)

def vAct (s : State) (c : Option (Cause × Int)) (k : Unit → Act) : Act :=
  match c with
  | some (e, ea) => trapEa s e ea
  | none => k ()

/-- The tag checks every masked load and store shares (R129). -/
def vmemTags (s : State) (m : Option Mask) : Bool := s.maskOk m

/-- LDV (R127 to R130). -/
def execLdv (d a : Reg) (off : W32) (tag : Byte) (m : Option Mask) (s : State) : Host.Outcome State Fault Refusal :=
  issue { len := 12, computeOnly := true, cr := [a], vr := d :: maskRegs m } (fun s =>
    match s.kind tag with
    | none => (s, .trap .format 0 0)
    | some k =>
      if !vmemTags s m || !s.keepOk m d tag then (s, .trap .format 0 0)
      else
        let c := s.rc a
        let ea0 : Int := c.addr + off.toInt
        let v := blockAccess k.width ea0
        vAct s (checkBlock c v (v.live s m) ea0 { l := true }) fun _ => vloadBody s v m d tag) s

/-- STV (R127 to R129, R131). -/
def execStv (d a : Reg) (off : W32) (m : Option Mask) (s : State) : Host.Outcome State Fault Refusal :=
  issue { len := 12, computeOnly := true, cr := [a], vr := d :: maskRegs m } (fun s =>
    match s.kind (s.vr d).tag with
    | none => (s, .trap .format 0 0)
    | some k =>
      if !vmemTags s m || (m.isSome && (!k.typed || decide (k.width < 8))) then (s, .trap .format 0 0)
      else
        let c := s.rc a
        let ea0 : Int := c.addr + off.toInt
        let v := blockAccess k.width ea0
        let live := v.live s m
        vAct s (checkBlock c v live ea0 { s := true }) fun _ =>
          vecStart (d :: maskRegs m) s (storeEntries (vblockEntries (s.vbits d) v live ea0.toNat)) false) s

/-- A tag of another width than EW, which decode refuses; TAG 0x00 matches every EW (R127). -/
def State.widthBad (s : State) (tag : Byte) (ew : Ew) : Bool := tag != 0#8 && (s.kind tag).any fun k => k.width != ewBits ew

/-- A load by elements (R129). -/
def vloadElems (d a : Reg) (off : W32) (tag : Byte) (m : Option Mask) (extra : State → Bool)
    (acc : State → Int → VAccess) (s : State) : Act :=
  if (s.kind tag).isNone || !vmemTags s m || !extra s || !s.keepOk m d tag then (s, .trap .format 0 0)
  else
    let c := s.rc a
    let v := acc s (c.addr + off.toInt)
    vAct s (checkElems c v (v.live s m) { l := true }) fun _ => vloadBody s v m d tag

/-- A store by elements (R129, R131). -/
def vstoreElems (ew : Ew) (d a : Reg) (off : W32) (m : Option Mask) (extra : State → Bool)
    (acc : State → Int → VAccess) (s : State) : Act :=
  let okTag : Bool := (s.vr d).tag == 0#8 || (s.kind (s.vr d).tag).any fun k => k.typed && k.width == ewBits ew
  if !vmemTags s m || !extra s || !okTag then (s, .trap .format 0 0)
  else
    let c := s.rc a
    let v := acc s (c.addr + off.toInt)
    let live := v.live s m
    vAct s (checkElems c v live { s := true }) fun _ =>
      vecStart (d :: maskRegs m) s (storeEntries (trailAddAll [] (vstoreEntries (s.vbits d) v live))) false

def indexOk (vi : Reg) (s : State) : Bool := (s.vr vi).tag == 0x14#8 || (s.vr vi).tag == 0x15#8

def execLdvs (d a b : Reg) (off : W32) (tag : Byte) (ew : Ew) (m : Option Mask) (s : State) : Host.Outcome State Fault Refusal :=
  issue { len := 12, computeOnly := true, illegal := s.widthBad tag ew, cr := [a, b], vr := d :: maskRegs m } (fun s =>
    vloadElems d a off tag m (fun _ => true) (fun s ea => strideAccess ew ea (s.rd b).toInt) s) s
def execStvs (d a b : Reg) (off : W32) (ew : Ew) (m : Option Mask) (s : State) : Host.Outcome State Fault Refusal :=
  issue { len := 12, computeOnly := true, cr := [a, b], vr := d :: maskRegs m } (fun s =>
    vstoreElems ew d a off m (fun _ => true) (fun s ea => strideAccess ew ea (s.rd b).toInt) s) s
def execLdvg (d a vi : Reg) (off : W32) (tag : Byte) (ew : Ew) (m : Option Mask) (s : State) : Host.Outcome State Fault Refusal :=
  issue { len := 12, computeOnly := true, illegal := s.widthBad tag ew, cr := [a], vr := [d, vi] ++ maskRegs m } (fun s =>
    vloadElems d a off tag m (indexOk vi) (fun s ea => gatherAccess ew ea s vi) (s.touchBanks [vi])) s
def execStvg (d a vi : Reg) (off : W32) (ew : Ew) (m : Option Mask) (s : State) : Host.Outcome State Fault Refusal :=
  issue { len := 12, computeOnly := true, cr := [a], vr := [d, vi] ++ maskRegs m } (fun s =>
    vstoreElems ew d a off m (indexOk vi) (fun s ea => gatherAccess ew ea s vi) (s.touchBanks [vi])) s

end Sys2Proof.Machine
end

