-- ==== Sys2Proof/Machine/Dispatch.lean ====
section
/-! DEFINITION. The meaning of every instruction: one direct call per constructor. -/

namespace Sys2Proof.Machine

open Sys2Proof

def exec (i : Instr) (s : State) : Host.Outcome State Fault Refusal :=
  match i with
  | .clusterSelfTestDone cl word => Sys2Proof.Machine.execClusterSelfTestDone cl word s
  | .hostPortReady port ok => Sys2Proof.Machine.execHostPortReady port ok s
  | .hbmStackReady stack ok => Sys2Proof.Machine.execHbmStackReady stack ok s
  | .kwelinkPortReady port ok => Sys2Proof.Machine.execKwelinkPortReady port ok s
  | .registerWrite reg v => Sys2Proof.Machine.execRegisterWrite reg v s
  | .loadRequest k id => Sys2Proof.Machine.execLoadRequest k id s
  | .loadReply k id => Sys2Proof.Machine.execLoadReply k id s
  | .atsTranslationCompletion id host size r w unsupported => Sys2Proof.Machine.execAtsTranslationCompletion id host size r w unsupported s
  | .prgResponse id ok => Sys2Proof.Machine.execPrgResponse id ok s
  | .atsInvalidateRequest p lo hi => Sys2Proof.Machine.execAtsInvalidateRequest p lo hi s
  | .invalidateVaRange p lo hi => Sys2Proof.Machine.execInvalidateVaRange p lo hi s
  | .invalidatePartition p => Sys2Proof.Machine.execInvalidatePartition p s
  | .invalidationComplete id => Sys2Proof.Machine.execInvalidationComplete id s
  | .resumePage p va => Sys2Proof.Machine.execResumePage p va s
  | .writeTableEntry p pa v => Sys2Proof.Machine.execWriteTableEntry p pa v s
  | .rimpartWrite p v pcs => Sys2Proof.Machine.execRimpartWrite p v pcs s
  | .pseudoChannelZero pc => Sys2Proof.Machine.execPseudoChannelZero pc s
  | .rimCommandIssue pc => Sys2Proof.Machine.execRimCommandIssue pc s
  | .idlePrecharge pc bank => Sys2Proof.Machine.execIdlePrecharge pc bank s
  | .refresh pc => Sys2Proof.Machine.execRefresh pc s
  | .scrub pa => Sys2Proof.Machine.execScrub pa s
  | .trailSpill k => Sys2Proof.Machine.execTrailSpill k s
  | .trailRefill k id => Sys2Proof.Machine.execTrailRefill k id s
  | .trailStallEnd k => Sys2Proof.Machine.execTrailStallEnd k s
  | .sliceNotice pub sl room => Sys2Proof.Machine.execSliceNotice pub sl room s
  | .noticeAcceptDelayed pub sl => Sys2Proof.Machine.execNoticeAcceptDelayed pub sl s
  | .releaseReplies pub => Sys2Proof.Machine.execReleaseReplies pub s
  | .sliceCommit pub sl => Sys2Proof.Machine.execSliceCommit pub sl s
  | .sliceWithdraw pub sl => Sys2Proof.Machine.execSliceWithdraw pub sl s
  | .segmentPublished pub => Sys2Proof.Machine.execSegmentPublished pub s
  | .segmentFold sl => Sys2Proof.Machine.execSegmentFold sl s
  | .frontierReduction p => Sys2Proof.Machine.execFrontierReduction p s
  | .shadowFinalise sl page => Sys2Proof.Machine.execShadowFinalise sl page s
  | .horizonBoundary k => Sys2Proof.Machine.execHorizonBoundary k s
  | .pressureBoundary k => Sys2Proof.Machine.execPressureBoundary k s
  | .fpWaitComplete k => Sys2Proof.Machine.execFpWaitComplete k s
  | .atomicEngineRequest cl => Sys2Proof.Machine.execAtomicEngineRequest cl s
  | .atomicReply k id => Sys2Proof.Machine.execAtomicReply k id s
  | .prefRequest k va len => Sys2Proof.Machine.execPrefRequest k va len s
  | .flipNotice pub sl room => Sys2Proof.Machine.execFlipNotice pub sl room s
  | .zeroFillComplete site id => Sys2Proof.Machine.execZeroFillComplete site id s
  | .scoreboardStallEnd k => Sys2Proof.Machine.execScoreboardStallEnd k s
  | .hcasxTarget k id => Sys2Proof.Machine.execHcasxTarget k id s
  | .hcasxReply k id => Sys2Proof.Machine.execHcasxReply k id s
  | .copyAccept k => Sys2Proof.Machine.execCopyAccept k s
  | .copyChunk site => Sys2Proof.Machine.execCopyChunk site s
  | .chunkHold id => Sys2Proof.Machine.execChunkHold id s
  | .cpubFlipStart ctx q => Sys2Proof.Machine.execCpubFlipStart ctx q s
  | .bankDrowsy site slot bank => Sys2Proof.Machine.execBankDrowsy site slot bank s
  | .debugVectorRead c slot r => Sys2Proof.Machine.execDebugVectorRead c slot r s
  | .debugVectorWrite c slot r v tag => Sys2Proof.Machine.execDebugVectorWrite c slot r v tag s
  | .queuePush k => Sys2Proof.Machine.execQueuePush k s
  | .queuePop k => Sys2Proof.Machine.execQueuePop k s
  | .accownWrite site v => Sys2Proof.Machine.execAccownWrite site v s
  | .matrixAccept k => Sys2Proof.Machine.execMatrixAccept k s
  | .reservationGrant cl => Sys2Proof.Machine.execReservationGrant cl s
  | .matrixStep site => Sys2Proof.Machine.execMatrixStep site s
  | .matrixRetire site => Sys2Proof.Machine.execMatrixRetire site s
  | .remoteOperandRequest site => Sys2Proof.Machine.execRemoteOperandRequest site s
  | .licenceTransfer pair => Sys2Proof.Machine.execLicenceTransfer pair s
  | .messageArrival id => Sys2Proof.Machine.execMessageArrival id s
  | .messageReoffer k => Sys2Proof.Machine.execMessageReoffer k s
  | .messageAging ctx => Sys2Proof.Machine.execMessageAging ctx s
  | .coreDispatch c => Sys2Proof.Machine.execCoreDispatch c s
  | .stealBackoffEnd c => Sys2Proof.Machine.execStealBackoffEnd c s
  | .coreWake c => Sys2Proof.Machine.execCoreWake c s
  | .bucketRefill r => Sys2Proof.Machine.execBucketRefill r s
  | .launchHelpStart k => Sys2Proof.Machine.execLaunchHelpStart k s
  | .launchHelpResume k => Sys2Proof.Machine.execLaunchHelpResume k s
  | .watchdog r => Sys2Proof.Machine.execWatchdog r s
  | .sliceEnd site => Sys2Proof.Machine.execSliceEnd site s
  | .eventTermFire site term => Sys2Proof.Machine.execEventTermFire site term s
  | .barrierArrival id => Sys2Proof.Machine.execBarrierArrival id s
  | .chairliftEvaluation p => Sys2Proof.Machine.execChairliftEvaluation p s
  | .gangSwapOut r gang => Sys2Proof.Machine.execGangSwapOut r gang s
  | .gangSwapIn r gang => Sys2Proof.Machine.execGangSwapIn r gang s
  | .lodgeDrain ctx => Sys2Proof.Machine.execLodgeDrain ctx s
  | .deferredTrap c => Sys2Proof.Machine.execDeferredTrap c s
  | .monitorTimeout c => Sys2Proof.Machine.execMonitorTimeout c s
  | .kill k => Sys2Proof.Machine.execKill k s
  | .restart k => Sys2Proof.Machine.execRestart k s
  | .duplexCompare ctx => Sys2Proof.Machine.execDuplexCompare ctx s
  | .detectedFault f => Sys2Proof.Machine.execDetectedFault f s
  | .maskedFault p => Sys2Proof.Machine.execMaskedFault p s
  | .drainReceipt id => Sys2Proof.Machine.execDrainReceipt id s
  | .viralClusterReset cl => Sys2Proof.Machine.execViralClusterReset cl s
  | .configurePartition p cls key rimpart pcs slice swap shadow => Sys2Proof.Machine.execConfigurePartition p cls key rimpart pcs slice swap shadow s
  | .addCluster p cl => Sys2Proof.Machine.execAddCluster p cl s
  | .removeCluster p cl => Sys2Proof.Machine.execRemoveCluster p cl s
  | .disablePartition p => Sys2Proof.Machine.execDisablePartition p s
  | .resumeRegion r => Sys2Proof.Machine.execResumeRegion r s
  | .endRegion r => Sys2Proof.Machine.execEndRegion r s
  | .addSwapFrames p fs => Sys2Proof.Machine.execAddSwapFrames p fs s
  | .addShadowFrames p fs => Sys2Proof.Machine.execAddShadowFrames p fs s
  | .bindVf vf port p root => Sys2Proof.Machine.execBindVf vf port p root s
  | .unbindVf vf => Sys2Proof.Machine.execUnbindVf vf s
  | .startRootRegion p va => Sys2Proof.Machine.execStartRootRegion p va s
  | .writeVfEnergy vf v => Sys2Proof.Machine.execWriteVfEnergy vf v s
  | .monitorStoreLoad site bytes => Sys2Proof.Machine.execMonitorStoreLoad site bytes s
  | .meterSnapshot p => Sys2Proof.Machine.execMeterSnapshot p s
  | .energyPeriodEnd p used => Sys2Proof.Machine.execEnergyPeriodEnd p used s
  | .lidEvent open_ sensor => Sys2Proof.Machine.execLidEvent open_ sensor s
  | .getVersion fn => Sys2Proof.Machine.execGetVersion fn s
  | .getCapabilities fn ver => Sys2Proof.Machine.execGetCapabilities fn ver s
  | .negotiateAlgorithms fn ver p384 sha384 => Sys2Proof.Machine.execNegotiateAlgorithms fn ver p384 sha384 s
  | .getDigests fn ver => Sys2Proof.Machine.execGetDigests fn ver s
  | .getCertificate fn ver slot off len => Sys2Proof.Machine.execGetCertificate fn ver slot off len s
  | .challenge fn ver slot nonce => Sys2Proof.Machine.execChallenge fn ver slot nonce s
  | .getMeasurements fn ver index nonce signed => Sys2Proof.Machine.execGetMeasurements fn ver index nonce signed s
  | .railSettingWrite rail mv m => Sys2Proof.Machine.execRailSettingWrite rail mv m s
  | .clusterSwitchWrite cl rail => Sys2Proof.Machine.execClusterSwitchWrite cl rail s
  | .droopAlarm cl sag => Sys2Proof.Machine.execDroopAlarm cl sag s
  | .stretchEnd cl => Sys2Proof.Machine.execStretchEnd cl s
  | .halvedIssueEnd cl => Sys2Proof.Machine.execHalvedIssueEnd cl s
  | .vectorUnitSleep site => Sys2Proof.Machine.execVectorUnitSleep site s
  | .vectorWakeRampEnd site => Sys2Proof.Machine.execVectorWakeRampEnd site s
  | .hqtailDoorbell vf v => Sys2Proof.Machine.execHqtailDoorbell vf v s
  | .hqEntryTake vf => Sys2Proof.Machine.execHqEntryTake vf s
  | .fenceComplete vf => Sys2Proof.Machine.execFenceComplete vf s
  | .dqheadWrite vf v => Sys2Proof.Machine.execDqheadWrite vf v s
  | .hqbaseWrite vf v => Sys2Proof.Machine.execHqbaseWrite vf v s
  | .dqbaseWrite vf v => Sys2Proof.Machine.execDqbaseWrite vf v s
  | .hacq vf v => Sys2Proof.Machine.execHacq vf v s
  | .hacqComplete vf => Sys2Proof.Machine.execHacqComplete vf s
  | .cxlMemRead vf off => Sys2Proof.Machine.execCxlMemRead vf off s
  | .cxlMemWrite vf off v => Sys2Proof.Machine.execCxlMemWrite vf off v s
  | .routeVfKwelink vf port remote => Sys2Proof.Machine.execRouteVfKwelink vf port remote s
  | .unrouteVf vf => Sys2Proof.Machine.execUnrouteVf vf s
  | .kwelinkLaneLoss port lanes => Sys2Proof.Machine.execKwelinkLaneLoss port lanes s
  | .kwelinkRetrainDone port => Sys2Proof.Machine.execKwelinkRetrainDone port s
  | .kwelinkDown port => Sys2Proof.Machine.execKwelinkDown port s
  | .physicalFunctionWrite p pa data => Sys2Proof.Machine.execPhysicalFunctionWrite p pa data s
  | .placeRunQueueRecord r rec => Sys2Proof.Machine.execPlaceRunQueueRecord r rec s
  | .regionShareWrite r cls => Sys2Proof.Machine.execRegionShareWrite r cls s
  | .spdmSessionMessage fn bytes => Sys2Proof.Machine.execSpdmSessionMessage fn bytes s
  | .hostPortLinkDown port => Sys2Proof.Machine.execHostPortLinkDown port s
  | .add d a b => Sys2Proof.Machine.execAdd d a b s
  | .addLiteral d a lit => Sys2Proof.Machine.execAddLiteral d a lit s
  | .sub d a b => Sys2Proof.Machine.execSub d a b s
  | .subLiteral d a lit => Sys2Proof.Machine.execSubLiteral d a lit s
  | .and d a b => Sys2Proof.Machine.execAnd d a b s
  | .andLiteral d a lit => Sys2Proof.Machine.execAndLiteral d a lit s
  | .or d a b => Sys2Proof.Machine.execOr d a b s
  | .orLiteral d a lit => Sys2Proof.Machine.execOrLiteral d a lit s
  | .xor d a b => Sys2Proof.Machine.execXor d a b s
  | .xorLiteral d a lit => Sys2Proof.Machine.execXorLiteral d a lit s
  | .shl d a b => Sys2Proof.Machine.execShl d a b s
  | .shlLiteral d a lit => Sys2Proof.Machine.execShlLiteral d a lit s
  | .shr d a b => Sys2Proof.Machine.execShr d a b s
  | .shrLiteral d a lit => Sys2Proof.Machine.execShrLiteral d a lit s
  | .sar d a b => Sys2Proof.Machine.execSar d a b s
  | .sarLiteral d a lit => Sys2Proof.Machine.execSarLiteral d a lit s
  | .mul d a b => Sys2Proof.Machine.execMul d a b s
  | .mulLiteral d a lit => Sys2Proof.Machine.execMulLiteral d a lit s
  | .mulhS d a b => Sys2Proof.Machine.execMulhS d a b s
  | .mulhSLiteral d a lit => Sys2Proof.Machine.execMulhSLiteral d a lit s
  | .mulhN d a b => Sys2Proof.Machine.execMulhN d a b s
  | .mulhNLiteral d a lit => Sys2Proof.Machine.execMulhNLiteral d a lit s
  | .divS d a b => Sys2Proof.Machine.execDivS d a b s
  | .divSLiteral d a lit => Sys2Proof.Machine.execDivSLiteral d a lit s
  | .divN d a b => Sys2Proof.Machine.execDivN d a b s
  | .divNLiteral d a lit => Sys2Proof.Machine.execDivNLiteral d a lit s
  | .remS d a b => Sys2Proof.Machine.execRemS d a b s
  | .remSLiteral d a lit => Sys2Proof.Machine.execRemSLiteral d a lit s
  | .remN d a b => Sys2Proof.Machine.execRemN d a b s
  | .remNLiteral d a lit => Sys2Proof.Machine.execRemNLiteral d a lit s
  | .minS d a b => Sys2Proof.Machine.execMinS d a b s
  | .minSLiteral d a lit => Sys2Proof.Machine.execMinSLiteral d a lit s
  | .minN d a b => Sys2Proof.Machine.execMinN d a b s
  | .minNLiteral d a lit => Sys2Proof.Machine.execMinNLiteral d a lit s
  | .maxS d a b => Sys2Proof.Machine.execMaxS d a b s
  | .maxSLiteral d a lit => Sys2Proof.Machine.execMaxSLiteral d a lit s
  | .maxN d a b => Sys2Proof.Machine.execMaxN d a b s
  | .maxNLiteral d a lit => Sys2Proof.Machine.execMaxNLiteral d a lit s
  | .clz d a => Sys2Proof.Machine.execClz d a s
  | .ctz d a => Sys2Proof.Machine.execCtz d a s
  | .popc d a => Sys2Proof.Machine.execPopc d a s
  | .sel d a b => Sys2Proof.Machine.execSel d a b s
  | .selLiteral d a lit => Sys2Proof.Machine.execSelLiteral d a lit s
  | .mov d a => Sys2Proof.Machine.execMov d a s
  | .cmp cond d a b => Sys2Proof.Machine.execCmp cond d a b s
  | .cmpLiteral cond d a lit => Sys2Proof.Machine.execCmpLiteral cond d a lit s
  | .addi d a imm => Sys2Proof.Machine.execAddi d a imm s
  | .addiLiteral d a lit => Sys2Proof.Machine.execAddiLiteral d a lit s
  | .andi d a imm => Sys2Proof.Machine.execAndi d a imm s
  | .andiLiteral d a lit => Sys2Proof.Machine.execAndiLiteral d a lit s
  | .ori d a imm => Sys2Proof.Machine.execOri d a imm s
  | .oriLiteral d a lit => Sys2Proof.Machine.execOriLiteral d a lit s
  | .xori d a imm => Sys2Proof.Machine.execXori d a imm s
  | .xoriLiteral d a lit => Sys2Proof.Machine.execXoriLiteral d a lit s
  | .shli d a imm => Sys2Proof.Machine.execShli d a imm s
  | .shliLiteral d a lit => Sys2Proof.Machine.execShliLiteral d a lit s
  | .shri d a imm => Sys2Proof.Machine.execShri d a imm s
  | .shriLiteral d a lit => Sys2Proof.Machine.execShriLiteral d a lit s
  | .sari d a imm => Sys2Proof.Machine.execSari d a imm s
  | .sariLiteral d a lit => Sys2Proof.Machine.execSariLiteral d a lit s
  | .li d imm => Sys2Proof.Machine.execLi d imm s
  | .liLiteral d lit => Sys2Proof.Machine.execLiLiteral d lit s
  | .fadd f64 rm d a b => Sys2Proof.Machine.execFadd f64 rm d a b s
  | .faddLiteral f64 rm d a lit => Sys2Proof.Machine.execFaddLiteral f64 rm d a lit s
  | .fsub f64 rm d a b => Sys2Proof.Machine.execFsub f64 rm d a b s
  | .fsubLiteral f64 rm d a lit => Sys2Proof.Machine.execFsubLiteral f64 rm d a lit s
  | .fmul f64 rm d a b => Sys2Proof.Machine.execFmul f64 rm d a b s
  | .fmulLiteral f64 rm d a lit => Sys2Proof.Machine.execFmulLiteral f64 rm d a lit s
  | .ffma f64 rm d a b => Sys2Proof.Machine.execFfma f64 rm d a b s
  | .ffmaLiteral f64 rm d a lit => Sys2Proof.Machine.execFfmaLiteral f64 rm d a lit s
  | .fmin f64 d a b => Sys2Proof.Machine.execFmin f64 d a b s
  | .fminLiteral f64 d a lit => Sys2Proof.Machine.execFminLiteral f64 d a lit s
  | .fmax f64 d a b => Sys2Proof.Machine.execFmax f64 d a b s
  | .fmaxLiteral f64 d a lit => Sys2Proof.Machine.execFmaxLiteral f64 d a lit s
  | .fcmp f64 cond d a b => Sys2Proof.Machine.execFcmp f64 cond d a b s
  | .fcmpLiteral f64 cond d a lit => Sys2Proof.Machine.execFcmpLiteral f64 cond d a lit s
  | .fcvt f64 rm sel d a => Sys2Proof.Machine.execFcvt f64 rm sel d a s
  | .fabs f64 d a => Sys2Proof.Machine.execFabs f64 d a s
  | .fneg f64 d a => Sys2Proof.Machine.execFneg f64 d a s
  | .csetb d a b => Sys2Proof.Machine.execCsetb d a b s
  | .csetp d a b => Sys2Proof.Machine.execCsetp d a b s
  | .cinc d a b => Sys2Proof.Machine.execCinc d a b s
  | .cgetb d a => Sys2Proof.Machine.execCgetb d a s
  | .cgetl d a => Sys2Proof.Machine.execCgetl d a s
  | .cgetp d a => Sys2Proof.Machine.execCgetp d a s
  | .cclr d a => Sys2Proof.Machine.execCclr d a s
  | .ctest d a b => Sys2Proof.Machine.execCtest d a b s
  | .beq hint off a b => Sys2Proof.Machine.execBeq hint off a b s
  | .bne hint off a b => Sys2Proof.Machine.execBne hint off a b s
  | .bltS hint off a b => Sys2Proof.Machine.execBltS hint off a b s
  | .bgeS hint off a b => Sys2Proof.Machine.execBgeS hint off a b s
  | .bltN hint off a b => Sys2Proof.Machine.execBltN hint off a b s
  | .bgeN hint off a b => Sys2Proof.Machine.execBgeN hint off a b s
  | .bz hint off a => Sys2Proof.Machine.execBz hint off a s
  | .bnz hint off a => Sys2Proof.Machine.execBnz hint off a s
  | .b hint off => Sys2Proof.Machine.execB hint off s
  | .call hint off => Sys2Proof.Machine.execCall hint off s
  | .jr a => Sys2Proof.Machine.execJr a s
  | .callr a => Sys2Proof.Machine.execCallr a s
  | .loop hint off a => Sys2Proof.Machine.execLoop hint off a s
  | .ld8N d a imm => Sys2Proof.Machine.execLd8N d a imm s
  | .ld8NLiteral d a lit => Sys2Proof.Machine.execLd8NLiteral d a lit s
  | .ld8S d a imm => Sys2Proof.Machine.execLd8S d a imm s
  | .ld8SLiteral d a lit => Sys2Proof.Machine.execLd8SLiteral d a lit s
  | .ld16N d a imm => Sys2Proof.Machine.execLd16N d a imm s
  | .ld16NLiteral d a lit => Sys2Proof.Machine.execLd16NLiteral d a lit s
  | .ld16S d a imm => Sys2Proof.Machine.execLd16S d a imm s
  | .ld16SLiteral d a lit => Sys2Proof.Machine.execLd16SLiteral d a lit s
  | .ld32N d a imm => Sys2Proof.Machine.execLd32N d a imm s
  | .ld32NLiteral d a lit => Sys2Proof.Machine.execLd32NLiteral d a lit s
  | .ld32S d a imm => Sys2Proof.Machine.execLd32S d a imm s
  | .ld32SLiteral d a lit => Sys2Proof.Machine.execLd32SLiteral d a lit s
  | .ld64 d a imm => Sys2Proof.Machine.execLd64 d a imm s
  | .ld64Literal d a lit => Sys2Proof.Machine.execLd64Literal d a lit s
  | .ldc d a imm => Sys2Proof.Machine.execLdc d a imm s
  | .ldcLiteral d a lit => Sys2Proof.Machine.execLdcLiteral d a lit s
  | .st8 d a imm => Sys2Proof.Machine.execSt8 d a imm s
  | .st8Literal d a lit => Sys2Proof.Machine.execSt8Literal d a lit s
  | .st16 d a imm => Sys2Proof.Machine.execSt16 d a imm s
  | .st16Literal d a lit => Sys2Proof.Machine.execSt16Literal d a lit s
  | .st32 d a imm => Sys2Proof.Machine.execSt32 d a imm s
  | .st32Literal d a lit => Sys2Proof.Machine.execSt32Literal d a lit s
  | .st64 d a imm => Sys2Proof.Machine.execSt64 d a imm s
  | .st64Literal d a lit => Sys2Proof.Machine.execSt64Literal d a lit s
  | .stc d a imm => Sys2Proof.Machine.execStc d a imm s
  | .stcLiteral d a lit => Sys2Proof.Machine.execStcLiteral d a lit s
  | .ldv d a off tag m => Sys2Proof.Machine.execLdv d a off tag m s
  | .stv d a off m => Sys2Proof.Machine.execStv d a off m s
  | .ldvs d a b off tag ew m => Sys2Proof.Machine.execLdvs d a b off tag ew m s
  | .stvs d a b off ew m => Sys2Proof.Machine.execStvs d a b off ew m s
  | .ldvg d a vi off tag ew m => Sys2Proof.Machine.execLdvg d a vi off tag ew m s
  | .stvg d a vi off ew m => Sys2Proof.Machine.execStvg d a vi off ew m s
  | .rel a => Sys2Proof.Machine.execRel a s
  | .acq a b => Sys2Proof.Machine.execAcq a b s
  | .phase a => Sys2Proof.Machine.execPhase a s
  | .pref a b => Sys2Proof.Machine.execPref a b s
  | .trailq d sel => Sys2Proof.Machine.execTrailq d sel s
  | .atomAdd order w32 d a b => Sys2Proof.Machine.execAtomAdd order w32 d a b s
  | .atomAnd order w32 d a b => Sys2Proof.Machine.execAtomAnd order w32 d a b s
  | .atomOr order w32 d a b => Sys2Proof.Machine.execAtomOr order w32 d a b s
  | .atomXor order w32 d a b => Sys2Proof.Machine.execAtomXor order w32 d a b s
  | .atomMinS order w32 d a b => Sys2Proof.Machine.execAtomMinS order w32 d a b s
  | .atomMinN order w32 d a b => Sys2Proof.Machine.execAtomMinN order w32 d a b s
  | .atomMaxS order w32 d a b => Sys2Proof.Machine.execAtomMaxS order w32 d a b s
  | .atomMaxN order w32 d a b => Sys2Proof.Machine.execAtomMaxN order w32 d a b s
  | .atomSwap order w32 d a b => Sys2Proof.Machine.execAtomSwap order w32 d a b s
  | .cas order w32 d a b => Sys2Proof.Machine.execCas order w32 d a b s
  | .cas2 order d a b => Sys2Proof.Machine.execCas2 order d a b s
  | .atomfAdd order w32 d a b => Sys2Proof.Machine.execAtomfAdd order w32 d a b s
  | .halloc h rows cols tag level retain shatom => Sys2Proof.Machine.execHalloc h rows cols tag level retain shatom s
  | .hfree h => Sys2Proof.Machine.execHfree h s
  | .hretain h k => Sys2Proof.Machine.execHretain h k s
  | .hquery d h sel => Sys2Proof.Machine.execHquery d h sel s
  | .hexport h => Sys2Proof.Machine.execHexport h s
  | .hunexport h => Sys2Proof.Machine.execHunexport h s
  | .hzero h => Sys2Proof.Machine.execHzero h s
  | .hwait h => Sys2Proof.Machine.execHwait h s
  | .ldh32 d h b => Sys2Proof.Machine.execLdh32 d h b s
  | .ldh64 d h b => Sys2Proof.Machine.execLdh64 d h b s
  | .sth32 d h b => Sys2Proof.Machine.execSth32 d h b s
  | .sth64 d h b => Sys2Proof.Machine.execSth64 d h b s
  | .ldhv d h b => Sys2Proof.Machine.execLdhv d h b s
  | .sthv d h b => Sys2Proof.Machine.execSthv d h b s
  | .hatom order w32 op d h b => Sys2Proof.Machine.execHatom order w32 op d h b s
  | .hcas order w32 d h b cmp => Sys2Proof.Machine.execHcas order w32 d h b cmp s
  | .hcasx order w32 d h b cmp vtr => Sys2Proof.Machine.execHcasx order w32 d h b cmp vtr s
  | .cpy t out h a b => Sys2Proof.Machine.execCpy t out h a b s
  | .cpys t out h a b rows rowb => Sys2Proof.Machine.execCpys t out h a b rows rowb s
  | .cpyv t out h a b hx hy hz => Sys2Proof.Machine.execCpyv t out h a b hx hy hz s
  | .cpyg t h a b count eb => Sys2Proof.Machine.execCpyg t h a b count eb s
  | .cpym t h a count => Sys2Proof.Machine.execCpym t h a count s
  | .cshd t h a b => Sys2Proof.Machine.execCshd t h a b s
  | .cpub t a => Sys2Proof.Machine.execCpub t a s
  | .cred t op h a b => Sys2Proof.Machine.execCred t op h a b s
  | .barx t b => Sys2Proof.Machine.execBarx t b s
  | .cwait mask => Sys2Proof.Machine.execCwait mask s
  | .cstat d q => Sys2Proof.Machine.execCstat d q s
  | .ccancel mask => Sys2Proof.Machine.execCcancel mask s
  | .vadd m d a b => Sys2Proof.Machine.execVadd m d a b s
  | .vsub m d a b => Sys2Proof.Machine.execVsub m d a b s
  | .vmul m d a b => Sys2Proof.Machine.execVmul m d a b s
  | .vfma m d a b => Sys2Proof.Machine.execVfma m d a b s
  | .vfms m d a b => Sys2Proof.Machine.execVfms m d a b s
  | .vmin m d a b => Sys2Proof.Machine.execVmin m d a b s
  | .vmax m d a b => Sys2Proof.Machine.execVmax m d a b s
  | .vdiv m d a b => Sys2Proof.Machine.execVdiv m d a b s
  | .vsqrt m d a => Sys2Proof.Machine.execVsqrt m d a s
  | .vrcp m d a => Sys2Proof.Machine.execVrcp m d a s
  | .vrsq m d a => Sys2Proof.Machine.execVrsq m d a s
  | .vexp2 m d a => Sys2Proof.Machine.execVexp2 m d a s
  | .vlog2 m d a => Sys2Proof.Machine.execVlog2 m d a s
  | .vabs m d a => Sys2Proof.Machine.execVabs m d a s
  | .vneg m d a => Sys2Proof.Machine.execVneg m d a s
  | .vand m d a b => Sys2Proof.Machine.execVand m d a b s
  | .vor m d a b => Sys2Proof.Machine.execVor m d a b s
  | .vxor m d a b => Sys2Proof.Machine.execVxor m d a b s
  | .vnot m d a => Sys2Proof.Machine.execVnot m d a s
  | .vshl m d a b => Sys2Proof.Machine.execVshl m d a b s
  | .vshr m d a b => Sys2Proof.Machine.execVshr m d a b s
  | .vsar m d a b => Sys2Proof.Machine.execVsar m d a b s
  | .vpopc m d a => Sys2Proof.Machine.execVpopc m d a s
  | .vclz m d a => Sys2Proof.Machine.execVclz m d a s
  | .vcmpeq m d a b => Sys2Proof.Machine.execVcmpeq m d a b s
  | .vcmpne m d a b => Sys2Proof.Machine.execVcmpne m d a b s
  | .vcmplt m d a b => Sys2Proof.Machine.execVcmplt m d a b s
  | .vcmple m d a b => Sys2Proof.Machine.execVcmple m d a b s
  | .vcmpun m d a b => Sys2Proof.Machine.execVcmpun m d a b s
  | .vsel mr d a b => Sys2Proof.Machine.execVsel mr d a b s
  | .vmerge m d a b => Sys2Proof.Machine.execVmerge m d a b s
  | .vpopm mr d a => Sys2Proof.Machine.execVpopm mr d a s
  | .vfirst mr d a => Sys2Proof.Machine.execVfirst mr d a s
  | .viota m d a k => Sys2Proof.Machine.execViota m d a k s
  | .vmaskand m d a b => Sys2Proof.Machine.execVmaskand m d a b s
  | .vmaskor m d a b => Sys2Proof.Machine.execVmaskor m d a b s
  | .vmasknot m d a => Sys2Proof.Machine.execVmasknot m d a s
  | .vshuf m d a b => Sys2Proof.Machine.execVshuf m d a b s
  | .vrot m d a b => Sys2Proof.Machine.execVrot m d a b s
  | .vbcast m d a => Sys2Proof.Machine.execVbcast m d a s
  | .vext d a b => Sys2Proof.Machine.execVext d a b s
  | .vins d a b => Sys2Proof.Machine.execVins d a b s
  | .vredadd mr d a b => Sys2Proof.Machine.execVredadd mr d a b s
  | .vredmin mr d a b => Sys2Proof.Machine.execVredmin mr d a b s
  | .vredmax mr d a b => Sys2Proof.Machine.execVredmax mr d a b s
  | .vscan m d a => Sys2Proof.Machine.execVscan m d a s
  | .vmov m d a => Sys2Proof.Machine.execVmov m d a s
  | .vslide m d a b => Sys2Proof.Machine.execVslide m d a b s
  | .vcvt tag rm sat m d a => Sys2Proof.Machine.execVcvt tag rm sat m d a s
  | .vpack tag rm sat m d a b => Sys2Proof.Machine.execVpack tag rm sat m d a b s
  | .vunpk tag rm sat m d a => Sys2Proof.Machine.execVunpk tag rm sat m d a s
  | .vsat tag m d a => Sys2Proof.Machine.execVsat tag m d a s
  | .vtag tag d a => Sys2Proof.Machine.execVtag tag d a s
  | .vtagq d a => Sys2Proof.Machine.execVtagq d a s
  | .vdot m d a b => Sys2Proof.Machine.execVdot m d a b s
  | .mma x => Sys2Proof.Machine.execMma x s
  | .mmas x y => Sys2Proof.Machine.execMmas x y s
  | .mlda t acc h => Sys2Proof.Machine.execMlda t acc h s
  | .msta t h acc => Sys2Proof.Machine.execMsta t h acc s
  | .mzero t acc => Sys2Proof.Machine.execMzero t acc s
  | .mtrn t d h => Sys2Proof.Machine.execMtrn t d h s
  | .mcvt t rm sat h acc => Sys2Proof.Machine.execMcvt t rm sat h acc s
  | .mwait id => Sys2Proof.Machine.execMwait id s
  | .mcons id => Sys2Proof.Machine.execMcons id s
  | .mspill acc slot => Sys2Proof.Machine.execMspill acc slot s
  | .mfill acc slot => Sys2Proof.Machine.execMfill acc slot s
  | .licq d => Sys2Proof.Machine.execLicq d s
  | .accq d sel => Sys2Proof.Machine.execAccq d sel s
  | .fmtset f a => Sys2Proof.Machine.execFmtset f a s
  | .fmtget d f => Sys2Proof.Machine.execFmtget d f s
  | .send rel a b hdl npay => Sys2Proof.Machine.execSend rel a b hdl npay s
  | .sendh rel a b hdl npay h => Sys2Proof.Machine.execSendh rel a b hdl npay h s
  | .spawn a b hdl nreg => Sys2Proof.Machine.execSpawn a b hdl nreg s
  | .fork a b off nreg => Sys2Proof.Machine.execFork a b off nreg s
  | .join a b => Sys2Proof.Machine.execJoin a b s
  | .launch a b hdl => Sys2Proof.Machine.execLaunch a b hdl s
  | .sethdl d a b => Sys2Proof.Machine.execSethdl d a b s
  | .gethdl d b => Sys2Proof.Machine.execGethdl d b s
  | .myid d => Sys2Proof.Machine.execMyid d s
  | .gridq d sel => Sys2Proof.Machine.execGridq d sel s
  | .ganghint a => Sys2Proof.Machine.execGanghint a s
  | .barinit n a => Sys2Proof.Machine.execBarinit n a s
  | .bararr n a => Sys2Proof.Machine.execBararr n a s
  | .barwait n => Sys2Proof.Machine.execBarwait n s
  | .semup x => Sys2Proof.Machine.execSemup x s
  | .semdn x => Sys2Proof.Machine.execSemdn x s
  | .semtry d x => Sys2Proof.Machine.execSemtry d x s
  | .qstat d k => Sys2Proof.Machine.execQstat d k s
  | .evcfg t a => Sys2Proof.Machine.execEvcfg t a s
  | .evpulse k => Sys2Proof.Machine.execEvpulse k s
  | .evread d k => Sys2Proof.Machine.execEvread d k s
  | .srd d num => Sys2Proof.Machine.execSrd d num s
  | .swr num a => Sys2Proof.Machine.execSwr num a s
  | .tstamp d => Sys2Proof.Machine.execTstamp d s
  | .cstamp d => Sys2Proof.Machine.execCstamp d s
  | .trap code => Sys2Proof.Machine.execTrap code s
  | .brk code => Sys2Proof.Machine.execBrk code s
  | .ret => Sys2Proof.Machine.execRet s
  | .acqa => Sys2Proof.Machine.execAcqa s
  | .licreq => Sys2Proof.Machine.execLicreq s
  | .licrel => Sys2Proof.Machine.execLicrel s
  | .halt => Sys2Proof.Machine.execHalt s
  | .yield => Sys2Proof.Machine.execYield s
  | .rft => Sys2Proof.Machine.execRft s
  | .sigchk => Sys2Proof.Machine.execSigchk s
  | .nop => Sys2Proof.Machine.execNop s
  | .moduleReset => Sys2Proof.Machine.execModuleReset s
  | .glideStart => Sys2Proof.Machine.execGlideStart s
  | .glideStage => Sys2Proof.Machine.execGlideStage s
  | .checkpoint => Sys2Proof.Machine.execCheckpoint s
  | .restore => Sys2Proof.Machine.execRestore s

end Sys2Proof.Machine
end

