-- ==== Sys2Proof/Machine/Clock.lean ====
section
/-! DEFINITION. What a reference tick brings: its events (R98, R317, R325, R328 to R332, R407 and others) and then the core clock edges
(R418, R423); and what a core does on its turn (R24, R322, R330, R382, R383). Log entry 1. -/

namespace Sys2Proof.Machine

open Sys2Proof

/-! Events of a tick. -/

def when (b : Bool) (e : Instr) : List Instr := if b then [e] else []

/-- Events of a partition. -/
def State.partDue (s : State) (p : Nat) : List Instr :=
  let q := s.part p
  let round := s.tick % 256 == 0 && q.enabled
  when (s.snapshotDue p) (.meterSnapshot p) ++
    (if round then
      q.sliceIds.flatMap (fun sl => when (s.foldable sl).isSome (.segmentFold sl)) ++ [.frontierReduction p] ++
        q.sliceIds.flatMap (fun sl => (s.slice sl).staging.filterMap fun e => if e.2.any (·.flip.isSome) then some (.shadowFinalise sl e.1) else none) ++
        [.chairliftEvaluation p]
    else [])

/-- Events of a region. -/
def State.regionDue (s : State) (r : Nat) : List Instr := when (s.refillDue r) (.bucketRefill r) ++ when (s.watchdogDue r) (.watchdog r)

/-- A place of a context moves up a class. -/
def State.agingDue (s : State) (x : Nat) : Bool :=
  let age := (s.inh 9 (ctxRegion x)).age
  age != 0 && (s.ctx x).places.any fun p => p.cls < 3 && decide (p.since + age ≤ s.tick)

/-- A slice ends so that something changes. -/
def State.sliceEnds (s : State) (site : Nat) : Bool :=
  let t := s.tile site
  s.sliceDue site && !s.pinnedTile site &&
    ((s.nextReady site t.run).isSome || t.yielded || s.slotReady site t.run || !t.idle)

/-- Events of one core of a tile. -/
def State.mcoreDue (s : State) (c : CoreId) : List Instr :=
  let m := s.mcore c
  when (m.mode && decide (m.entered + 2 ^ 20 ≤ s.edgesAt c.site)) (.monitorTimeout c) ++
    when (m.backoff.any fun e => decide (e ≤ s.edgesAt c.site)) (.stealBackoffEnd c)

/-- Events of a tile. -/
def State.tileDue (s : State) (site : Nat) : List Instr :=
  let t := s.tile site
  let odd := s.oddCycle site
  when (s.sliceEnds site) (.sliceEnd site) ++
    s.mcoreDue ⟨site, false⟩ ++ s.mcoreDue ⟨site, true⟩ ++
    when (!odd && ((s.pickCopy site).isSome || (s.tile site).copyGrant)) (.copyChunk site) ++
    when (!odd && ((s.matCtx site).any fun x => !(s.ctx x).cmds.isEmpty)) (.matrixStep site) ++
    when (s.vecIdle site) (.vectorUnitSleep site) ++ when (t.rampEnd.any fun e => decide (e ≤ s.edgesAt site)) (.vectorWakeRampEnd site) ++
    t.vbanks.filterMap fun e => if s.bankIdle site (e.1 / 8) (e.1 % 8) then some (.bankDrowsy site (e.1 / 8) (e.1 % 8)) else none

/-- Events of a cluster. -/
def State.clusterDue (s : State) (cl : Nat) : List Instr :=
  when ((s.cluster cl).stretch == 1) (.stretchEnd cl) ++ when ((s.cluster cl).halved == 1) (.halvedIssueEnd cl)

/-- The device may take an entry of a window. -/
def State.hqReady (s : State) (v : Nat) : Bool :=
  let f := s.vf v
  f.en && (s.rootLive v).isSome && !s.inFlight (windowSource v) &&
    (!f.linkIn.isEmpty || (f.route.isNone && ringOn f.hqbase && f.hqhead % ringSize f.hqbase != f.hqtail % ringSize f.hqbase))

/-- Events of a VF. -/
def State.vfDue (s : State) (v : Nat) : List Instr :=
  when (s.hqReady v) (.hqEntryTake v) ++ when ((s.vf v).fenceReady && (s.rootLive v).isSome) (.fenceComplete v) ++
    when (s.hacqDue v) (.hacqComplete v)

/-- ACCEPTs that a slice still owes (R93). -/
def delayedOf (id : Nat) (p : Pub) : List Instr :=
  p.shares.filterMap fun e => if e.2.any fun h => h.st == .delayed then some (.noticeAcceptDelayed id e.1) else none

/-- Events of this tick, in the order they run. -/
def State.dueNow (s : State) : List Instr :=
  s.clusters.flatMap (fun e => s.clusterDue e.1) ++ s.parts.flatMap (fun e => s.partDue e.1) ++ s.regions.flatMap (fun e => s.regionDue e.1) ++
    s.ctxs.flatMap (fun e => when (s.agingDue e.1) (.messageAging e.1)) ++ s.tiles.flatMap (fun e => s.tileDue e.1) ++
    s.pubs.flatMap (fun e => (e.2.map (delayedOf e.1)).getD []) ++ s.vfs.flatMap (fun e => s.vfDue e.1) ++
    s.kwe.flatMap (fun e => when (s.linkLate e.1) (.kwelinkDown e.1)) ++
    s.chans.flatMap (fun e => e.2.rows.filterMap fun b => if s.rowIdle e.1 b.1 then some (.idlePrecharge e.1 b.1) else none) ++
    when s.glideStartDue .glideStart ++ when s.stageDue .glideStage

/-- STATE of a region as its block shows it (R323). -/
def State.stateByte (s : State) (r : Nat) : Nat :=
  let g := s.region r
  if g.st != 0 then g.st else if s.suspended r then 1 else 0

/-- Writes the STATE bytes that have changed (R323, R387). -/
def State.showStates (s : State) : State :=
  s.regions.foldl (fun s e =>
    let r := e.1
    let n := s.stateByte r
    if !e.2.launched || e.2.shown == n then s
    else
      let va := e.2.blk.va + 136
      let s := s.modRegion r fun g => { g with shown := n }
      (engineAct s (s.engineOf e.2.part va) e.2.part r va 1 (fun _ => some n) 0 .device).2) s

/-- A new reference tick: rails take their new ratios, and the tick's events come before its clock edges. -/
def State.newTick (s : State) : State :=
  let s := { s with
    tick := s.tick + 1
    edging := true
    rails := s.rails.map fun (e : Nat × Rail) => (e.1, { e.2 with m := e.2.next.getD e.2.m, next := none }) }
  let s := if s.tick % 256 == 0 then s.parts.foldl (fun s e => if e.2.enabled then s.noteCounters e.1 else s) s else s
  let s := s.showStates
  { s with agenda := s.dueNow.map .event ++ s.agenda ++ [.tick] }

/-! Core clock edges (R418, R332). -/

/-- A cluster's edge of this tick, if it has one. -/
def State.edge (s : State) (cl : Nat) : State × Bool :=
  if edgeAt s.tick (s.rail (s.railOf cl)).m then
    let r := (s.cluster cl).offered
    (s.modCluster cl fun _ => r.1, r.2)
  else (s, false)

/-- The clusters with their edges given out, and those that got one. -/
def State.edgesOf (s : State) : List Nat → State × List Nat
  | [] => (s, [])
  | cl :: cls =>
    let a := s.edge cl
    let r := a.1.edgesOf cls
    (r.1, if a.2 then cl :: r.2 else r.2)

/-- The pushes of the cycle before enter the queues of a tile's contexts, and its window writes the window (R208, R211). -/
def State.settleTile (s : State) (site : Nat) : State :=
  let xs := (s.tile site).slots.filterMap (·.2)
  let s := xs.foldl (fun s x => if (s.ctx x).qNew.isEmpty then s else s.modCtx x Ctx.settleQueues) s
  if (s.pair (pairOf site)).winNew.isEmpty then s else s.modPair (pairOf site) Pair.settleWindow

/-- At a tile's edge: what the cycle before left is there, pulses are counted, and the running context's core cycles (R332, R415). -/
def State.tileEdge (s : State) (site : Nat) : State :=
  let s := (s.settleTile site).modTile site fun t =>
    let ev := t.evNext.foldl (fun m e => tput 0 e.1 (min 65535 (tget 0 m e.1 + e.2)) m) t.ev
    { t with evNext := [], ev := ev, evWas := ev }
  match s.running site with
  | some x => s.modCluster (clusterOf site) fun c => { c with cycles := tput 0 (ctxRegion x) (tget 0 c.cycles (ctxRegion x) + 1) c.cycles }
  | none => s

/-- The terms of a tile that may fire in this core cycle, lowest first: those configured before it (R332, R355). -/
def State.termsOf (s : State) (site : Nat) : List Turn :=
  let t := s.tile site
  t.terms.filterMap fun e => if (t.trueProduct e.2).isSome then some (.event (.eventTermFire site e.1)) else none

/-- Cores of a tile that issue: those of the running slot and those in monitor mode, but in odd cycles of halved issue (R423). -/
def State.turnsOf (s : State) (site : Nat) : List Turn :=
  if s.oddCycle site then []
  else [false, true].filterMap fun r =>
    let c : CoreId := ⟨site, r⟩
    let awake (x : Nat) : Bool := !(s.mcore c).asleep || (s.core (coreKey x r)).aside.isSome
    if (s.mcore c).mode || (s.running site).any awake then some (.core c) else none

/-- The edges of this tick, of the clusters that belong to a partition: a spare one is powered down; at each the event terms come first, then
a turn for each core (R332, R398). -/
def State.giveEdges (s : State) : State :=
  let r := s.edgesOf ((List.range 121).filter fun cl => (s.cluster cl).part.isSome)
  let sites := (s.tiles.map (·.1)).filter fun i => r.2.contains (clusterOf i)
  let s := sites.foldl State.tileEdge r.1
  { s with agenda := sites.flatMap s.termsOf ++ sites.flatMap s.turnsOf ++ s.agenda, edging := false }

/-- Time goes on: to the next tick's events, or from them to its edges. -/
def State.advance (s : State) : State := if s.edging then s.giveEdges else s.newTick

/-! The turn of a core. -/

/-- The step that a stalled core waits for. -/
def State.stallStep (s : State) (k : Nat) (c : CoreId) : Option Instr :=
  match (s.core k).stall with
  | .none => none
  | .release _ => none
  | .refused => none
  | .fp _ _ => some (.fpWaitComplete k)
  | .reply _ => none
  | .copy _ => some (.copyAccept k)
  | .matrix _ => some (.matrixAccept k)
  | .scratch _ => some (.scoreboardStallEnd k)
  | .trail _ => some (.trailStallEnd k)
  | .push _ _ => some (.queuePush k)
  | .pop _ _ => some (.queuePop k)
  | .launch _ _ _ => some (.launchHelpStart k)
  | .ramp => some (.vectorWakeRampEnd c.site)
  | .duplex => some (.duplexCompare (coreCtx k))

/-- An activation set aside may go on. -/
def State.asideReady (s : State) (k : Nat) : Bool := (s.core k).aside.any fun d => s.ringRoom (s.corePart k) d.ring d.cap

/-- An instruction is under way that has done a part of its work and does not wait: it goes on before anything else. -/
def Core.midway (c : Core) : Bool := decide (c.stall = .none) && !c.prog.waits && (c.prog.rel.isSome || c.prog.step != 0)

/-- The boundary of a core's view that is due, if any: the core is before an instruction or blocked in one, and its activation has made
its starting acquire (R105, R106, R455). -/
def State.boundaryDue (s : State) (k : Nat) : Option Instr :=
  let t := s.core k
  if t.midway || s.actBusy k || t.killed != .no || t.arriving then none
  else if s.horizonDue k then some (.horizonBoundary k)
  else if s.pressureDue k then some (.pressureBoundary k)
  else none

/-- A deferred trap is taken now: no request is outstanding, and the instruction under way, if any, waits at its boundary for
what has not come yet (R121, R284, R383). -/
def State.trapDue (s : State) (k : Nat) : Bool :=
  let t := s.core k
  !t.pend.isEmpty && t.stall.idle && t.act.isSome && t.killed == .no && !s.inAct k && !t.midway && !s.matWaitOver k &&
    !t.reqs.any fun e => e.2.isSome

/-- The tile would switch to another slot but for requests outstanding: nothing more is issued (R121, R329). -/
def State.switchHeld (s : State) (site x : Nat) : Bool :=
  s.outstanding x && s.sliceDue site && (s.nextReady site (s.tile site).run).isSome

/-- A deferred trap is pending that waits for requests alone: nothing more is issued before it, as before a slot switch (R121, R383; log
entry 76). -/
def Core.trapHeld (c : Core) : Bool := !c.pend.isEmpty && c.reqs.any fun e => e.2.isSome

/-- What a core does before it fetches, if anything; some none is to do nothing (R330, R322). -/
def State.beforeFetch (s : State) (c : CoreId) (x : Nat) : Option (Option Instr) :=
  let k := coreKey x c.compute
  let t := s.core k
  let act := s.inAct k
  if (s.ctx x).st != 1 && !((s.ctx x).st == 3 && act) then some none
  else if t.due.isSome then some (some (.fpWaitComplete k))
  else if t.killed == .dead then some (some (.restart k))
  else if !s.regionRuns (ctxRegion x) && !act && !t.joining then some none
  else match s.boundaryDue k with
  | some e => some (some e)
  | none =>
    if s.trapDue k then some (some (.deferredTrap c))
    else if t.stall != .none then some (s.stallStep k c)
    else match t.killed with
      | .ready => some (if t.waitPage.isSome then none else some (.restart k))
      | .dead => some none
      | .held => some none
      | .no =>
        if t.act.isNone then some (if s.asideReady k then some (.launchHelpResume k) else if s.idle c then some (.coreDispatch c) else none)
        else if !t.midway && (s.switchHeld c.site x || (t.trapHeld && !act)) then some none
        else none

/-- Word 0 as the fetch read it, for a trap that is taken now; 0 where it was not read (R384 gives TRAPWORD no value there; log
entry 73). -/
def State.readWord (s : State) (w : Option W32) : State :=
  if s.pendingReqs then s else s.modMy fun c => { c with prog := { c.prog with words := w.toList } }

/-- Decodes words that were fetched; words that no instruction has trap ILLEGAL_INSTRUCTION (R39). -/
noncomputable def State.decodeTurn (s : State) (ws : List W32) : Option Instr × State :=
  match decodeWords ws with
  | .ok i => (some i, s)
  | .error _ => (none, s.trapNow .illegal 0 0 false)

/-- The turn of a core: the instruction or step it runs, and the state to run it in. -/
noncomputable def State.turn (s : State) (c : CoreId) : Option Instr × State :=
  let s := { s with focus := c }
  if (s.cluster (clusterOf c.site)).viral || (s.cluster (clusterOf c.site)).part.isNone then (none, s)
  else if s.monitor then
    match fetchMon s with
    | .words ws => s.decodeTurn ws
    | _ => (none, s.clusterViral (clusterOf c.site))
  else match s.running c.site with
    | none => (none, s)
    | some x => match s.beforeFetch c x with
      | some e => (e, s)
      | none => match s.my.prog.words with
        | w :: ws => s.decodeTurn (w :: ws)
        | [] => match fetchAct s with
          | (.words ws, s) => (s.modMy fun c => { c with prog := { c.prog with words := ws } }).decodeTurn ws
          | (.trap e va w, s) => (none, (s.readWord w).trapNow e va 0 false)
          | (.abort e va info w, s) => (none, (s.readWord w).trapNow e va info true)
          | (.fatal, s) => (none, s.clusterViral (clusterOf c.site))
          | (.wait, s) => (none, s)

end Sys2Proof.Machine
end

