-- ==== Sys2Proof/Machine/Loader.lean ====
section
/-! DEFINITION. Placing one instruction where a core fetches its next: the smallest configured module that has an activation
(partition 0 on cluster 0, one device table of one leaf, region 1 on tile 0; log entry 2). -/

namespace Sys2Proof.Machine

open Sys2Proof

/-- Where the placed instruction stands in device memory, and the rim address the table below gives it. -/
def loadOff : Nat := 0x20040
def loadVa : Nat := 2 ^ 55 + loadOff
def loadTable : Nat := 0x10000

/-- The code capability of the placed region: 64 KiB around the instruction, L and X (R53). -/
def loadCap : CReg := mkCap (2 ^ 55 + 0x20000) (2 ^ 55 + 0x20000) 64 10 5

def loadAct : Activation := ⟨0, loadVa, 64, 0#32, 32, 32, 0, 0, .record ⟨0, 0, none, [], 0, true⟩, true⟩

/-- One leaf at level 1 that maps rim address 0 writable, executable and taggable (R62, R63). -/
def loadRim (q : Partition) (t : List Host.Cell) (nbits w : Nat) : List Host.Cell :=
  rimPut q (rimPut q t loadTable 8 0x1F) loadOff 20 (w % 2 ^ nbits)

/-- The partition of the placed region: cluster 0 and pseudo-channel 0 (R61, R76, R398). -/
def loadPart (q : Partition) : Partition :=
  { q with enabled := true, clusters := [0], key := 0#8, base := 0, pccount := 1, rimEn := true, pclist := [0],
           ptroot := BitVec.ofNat 64 loadTable, pressure := none, fp := 0 }

def loadRegion (g : Region) : Region :=
  { g with launched := true, part := 0, parent := none, st := 0,
           blk := { va := 2 ^ 55 + 0x30000, code := loadCap, horizon := 2 ^ 32, width := 1, height := 1, trailsz := 14 } }

def loadCore (c : Core) : Core :=
  { c with pc := loadVa, act := some loadAct, pend := [], stall := .none, prog := {}, killed := .no, killLater := none, due := none }

/-- The instruction placed, the compute core of tile 0 about to fetch it. -/
def State.placeInstr (s : State) (nbits w : Nat) : State :=
  let x := ctxKey 1 0
  let q := loadPart (s.part 0)
  let s := (s.modPart 0 fun _ => q).modRegion 1 loadRegion
  let s := { s with rim := loadRim q s.rim nbits w, poison := tput false (loadOff / 64) false s.poison }
  let s := (s.modCluster 0 fun c => { c with ready := 1, part := some 0, viral := false, pool := c.pool ||| 1#128 }).modSlice
    (q.home loadVa) fun l => { l with stb := [], chains := tput none (loadOff / 64) none l.chains }
  let s := (s.modTile 0 fun t => { t with slots := tput none 0 (some x) t.slots, run := 0 }).modMcore ⟨0, true⟩ fun m => { m with mode := false }
  let s := (s.modCtx x fun c => { c with st := 1, site := 0, slot := 0 }).modCore (coreKey x true) loadCore
  { s with agenda := [.core ⟨0, true⟩] }

end Sys2Proof.Machine
end

