-- ==== Sys2Proof/Machine/Step.lean ====
section
/-! DEFINITION. One step (log entry 1): the head of the agenda, or, where it is empty, the next point of time. -/

namespace Sys2Proof.Machine

open Sys2Proof

/-- One step: an event runs; a core takes its turn, which runs one instruction or one step of its own; else time goes on. -/
noncomputable def step (s : State) : Host.Outcome State Fault Refusal :=
  match s.agenda with
  | [] => .next s.advance
  | .tick :: rest => .next ({ s with agenda := rest } : State).advance
  | .event e :: rest => exec e { s with agenda := rest }
  | .core c :: rest => match ({ s with agenda := rest } : State).turn c with
    | (some i, s') => exec i s'
    | (none, s') => .next s'

/-- The state with an instruction placed where the next step fetches it (log entry 2). -/
def State.withFetchWord (s : State) (nbits w : Nat) : State := s.placeInstr nbits w

end Sys2Proof.Machine
end

