-- ==== Sys2Proof/Safety/Events.lean ====
section
/-! DEFINITION. What an event leaves unchanged: the frames that the statements about the machine's own steps (R6) share. -/

namespace Sys2Proof.Machine

open Sys2Proof

/-- The module's memory is the same: rim memory, its tags, and the host's memory. -/
def SameMemory (s t : State) : Prop := t.rim = s.rim ∧ t.rimTags = s.rimTags ∧ t.host = s.host

/-- Event e answers t, with every core and all memory as before. -/
def RunsAside (e : Instr) (s t : State) : Prop := exec e s = .next t ∧ t.cores = s.cores ∧ SameMemory s t

/-- Event e answers t, with every core but k, and all memory, as before. -/
def RunsAtCore (e : Instr) (k : Nat) (s t : State) : Prop := exec e s = .next t ∧ (∀ j, j ≠ k → t.core j = s.core j) ∧ SameMemory s t

/-- An event that changes no memory and no c register: pages come, or are refused. -/
def RunsAtPage (e : Instr) (s t : State) : Prop := exec e s = .next t ∧ SameMemory s t ∧ ∀ k, (t.core k).c = (s.core k).c

/-- Where a publication stands at a slice (R92, R93). -/
def State.shareAt (s : State) (pub sl : Nat) : Option ShareSt :=
  (s.pub pub).bind fun p => (tget none p.shares sl).map fun h => h.st

end Sys2Proof.Machine
end

