-- ==== Sys2Proof/Safety.lean ====
section
/-! DEFINITION. The terms claims are made in: what each instruction declares to decode and to the checker (R23, R26, R39, R46,
R121, R382), when it starts, how it ends, and which part of the machine it leaves as it was. -/

namespace Sys2Proof.Machine

open Sys2Proof

/-- A vector instruction of one word. -/
def vecDecl (vr : List Reg) : Issue := { computeOnly := true, vr := vr }
/-- One with a second and third word. -/
def vecDecl12 (vr : List Reg) : Issue := { len := 12, computeOnly := true, vr := vr }
/-- A copy or a matrix command: it waits for every request outstanding (R121). -/
def waitDecl (len : Nat) (cr : List Reg) : Issue := { len := len, cr := cr, waitAll := true }

/-- What an instruction declares: length, whether it ends a block, where it may run, what it waits for, the registers it
names (R23, R26, R46, R121, R382). An event is no instruction of a core and declares nothing. -/
def decl : Instr → Issue
  | .add d a b | .sub d a b | .and d a b | .or d a b | .xor d a b | .shl d a b | .shr d a b | .sar d a b | .mul d a b
  | .mulhS d a b | .mulhN d a b | .divS d a b | .divN d a b | .remS d a b | .remN d a b | .minS d a b | .minN d a b
  | .maxS d a b | .maxN d a b | .sel d a b | .csetb d a b | .csetp d a b | .cinc d a b | .ctest d a b | .sethdl d a b =>
    { mon := true, cr := [d, a, b] }
  | .cmp _ d a b | .fcmp _ _ d a b | .fmin _ d a b | .fmax _ d a b => { mon := true, cr := [d, a, b] }
  | .fadd _ _ d a b | .fsub _ _ d a b | .fmul _ _ d a b | .ffma _ _ d a b => { mon := true, cr := [d, a, b] }
  | .addLiteral d a _ | .subLiteral d a _ | .andLiteral d a _ | .orLiteral d a _ | .xorLiteral d a _ | .shlLiteral d a _
  | .shrLiteral d a _ | .sarLiteral d a _ | .mulLiteral d a _ | .mulhSLiteral d a _ | .mulhNLiteral d a _ | .divSLiteral d a _
  | .divNLiteral d a _ | .remSLiteral d a _ | .remNLiteral d a _ | .minSLiteral d a _ | .minNLiteral d a _
  | .maxSLiteral d a _ | .maxNLiteral d a _ | .selLiteral d a _ | .addiLiteral d a _ | .andiLiteral d a _ | .oriLiteral d a _
  | .xoriLiteral d a _ | .shliLiteral d a _ | .shriLiteral d a _ | .sariLiteral d a _ => { len := 12, mon := true, cr := [d, a] }
  | .cmpLiteral _ d a _ | .fcmpLiteral _ _ d a _ | .fminLiteral _ d a _ | .fmaxLiteral _ d a _ => { len := 12, mon := true, cr := [d, a] }
  | .faddLiteral _ _ d a _ | .fsubLiteral _ _ d a _ | .fmulLiteral _ _ d a _ | .ffmaLiteral _ _ d a _ =>
    { len := 12, mon := true, cr := [d, a] }
  | .clz d a | .ctz d a | .popc d a | .mov d a | .cgetb d a | .cgetl d a | .cgetp d a | .cclr d a => { mon := true, cr := [d, a] }
  | .addi d a _ | .andi d a _ | .ori d a _ | .xori d a _ | .shli d a _ | .shri d a _ | .sari d a _ => { mon := true, cr := [d, a] }
  | .fabs _ d a | .fneg _ d a | .fcvt _ _ _ d a => { mon := true, cr := [d, a] }
  | .li d _ => { mon := true, cr := [d] }
  | .liLiteral d _ => { len := 12, mon := true, cr := [d] }
  | .beq _ _ a b | .bne _ _ a b | .bltS _ _ a b | .bgeS _ _ a b | .bltN _ _ a b | .bgeN _ _ a b =>
    { mon := true, ender := true, cr := [a, b] }
  | .bz _ _ a | .bnz _ _ a => { mon := true, ender := true, cr := [a, 0#5] }
  | .b _ _ => { mon := true, ender := true, j := true }
  | .call _ _ => { mon := true, ender := true, j := true, cr := [31#5] }
  | .ret => { mon := true, ender := true, cr := [31#5] }
  | .jr a | .loop _ _ a => { mon := true, ender := true, cr := [a] }
  | .callr a => { mon := true, ender := true, cr := [a, 31#5] }
  | .ld8N d a _ | .ld8S d a _ | .ld16N d a _ | .ld16S d a _ | .ld32N d a _ | .ld32S d a _ | .ld64 d a _ | .ldc d a _
  | .st8 d a _ | .st16 d a _ | .st32 d a _ | .st64 d a _ | .stc d a _ => { cr := [d, a] }
  | .ld8NLiteral d a _ | .ld8SLiteral d a _ | .ld16NLiteral d a _ | .ld16SLiteral d a _ | .ld32NLiteral d a _
  | .ld32SLiteral d a _ | .ld64Literal d a _ | .ldcLiteral d a _ | .st8Literal d a _ | .st16Literal d a _
  | .st32Literal d a _ | .st64Literal d a _ | .stcLiteral d a _ => { len := 12, cr := [d, a] }
  | .ldv d a _ _ m | .stv d a _ m => { len := 12, computeOnly := true, cr := [a], vr := d :: maskRegs m }
  | .ldvs d a b _ _ _ m | .stvs d a b _ _ m => { len := 12, computeOnly := true, cr := [a, b], vr := d :: maskRegs m }
  | .ldvg d a vi _ _ _ m | .stvg d a vi _ _ m => { len := 12, computeOnly := true, cr := [a], vr := [d, vi] ++ maskRegs m }
  | .rel a | .phase a => { ender := true, waitAll := true, cr := [a] }
  | .acq a b => { waitAll := true, cr := [a, b] }
  | .acqa => { waitAll := true }
  | .pref a b => { cr := [a, b] }
  | .trailq d _ | .qstat d _ | .hquery d _ _ => { cr := [d] }
  | .atomAdd _ _ d a b | .atomAnd _ _ d a b | .atomOr _ _ d a b | .atomXor _ _ d a b | .atomMinS _ _ d a b
  | .atomMinN _ _ d a b | .atomMaxS _ _ d a b | .atomMaxN _ _ d a b | .atomSwap _ _ d a b | .cas _ _ d a b
  | .atomfAdd _ _ d a b => { cr := [d, a, b] }
  | .cas2 _ d a b => { cr := [d, a, b, d + 1#5, b + 1#5] }
  | .halloc _ _ _ _ _ _ _ => waitDecl 12 []
  | .hfree _ | .hzero _ => waitDecl 4 []
  | .hretain _ _ | .hexport _ | .hunexport _ | .hwait _ => {}
  | .ldh32 d _ b | .ldh64 d _ b => { cr := [d, b] }
  | .sth32 d _ b | .sth64 d _ b => waitDecl 4 [d, b]
  | .ldhv d _ b => { computeOnly := true, cr := [b], vr := [d] }
  | .sthv d _ b => { computeOnly := true, cr := [b], vr := [d], waitAll := true }
  | .hatom _ _ _ d _ b => waitDecl 12 [d, b]
  | .hcas _ _ d _ b cmp => waitDecl 12 [d, b, cmp]
  | .hcasx _ _ d _ b cmp vtr => waitDecl 12 [d, b, cmp, vtr]
  | .cpy _ _ _ a b | .cpys _ _ _ a b _ _ | .cpyv _ _ _ a b _ _ _ | .cpyg _ _ a b _ _ | .cshd _ _ a b | .cred _ _ _ a b =>
    waitDecl 12 [a, b]
  | .cpym _ _ a _ | .cpub _ a => waitDecl 12 [a]
  | .barx _ b => waitDecl 12 [b]
  | .cwait _ | .ccancel _ => { mon := true, waitAll := true }
  | .cstat d _ => { mon := true, cr := [d], waitAll := true }
  | .vadd m d a b | .vsub m d a b | .vmul m d a b | .vfma m d a b | .vfms m d a b | .vmin m d a b | .vmax m d a b
  | .vdiv m d a b | .vand m d a b | .vor m d a b | .vxor m d a b | .vshl m d a b | .vshr m d a b | .vsar m d a b
  | .vcmpeq m d a b | .vcmpne m d a b | .vcmplt m d a b | .vcmple m d a b | .vcmpun m d a b | .vmerge m d a b
  | .vmaskand m d a b | .vmaskor m d a b | .vshuf m d a b | .vrot m d a b | .vslide m d a b | .vdot m d a b =>
    vecDecl ([d, a, b] ++ maskRegs m)
  | .vsqrt m d a | .vrcp m d a | .vrsq m d a | .vexp2 m d a | .vlog2 m d a | .vabs m d a | .vneg m d a | .vnot m d a
  | .vpopc m d a | .vclz m d a | .vmasknot m d a | .vscan m d a | .vmov m d a => vecDecl ([d, a] ++ maskRegs m)
  | .viota m d a _ => vecDecl ([d, a] ++ maskRegs m)
  | .vsel mr d a b => vecDecl [d, a, b, mr.zeroExtend 5]
  | .vpopm mr d a | .vfirst mr d a => vecDecl ([d, a] ++ srcRegs mr)
  | .vredadd mr d a b | .vredmin mr d a b | .vredmax mr d a b => vecDecl ([d, a, b] ++ srcRegs mr)
  | .vbcast m d a => { computeOnly := true, cr := [a], vr := d :: maskRegs m }
  | .vext d a b => { computeOnly := true, cr := [d, b], vr := [a] }
  | .vins d a b => { computeOnly := true, cr := [a, b], vr := [d] }
  | .vcvt _ _ _ m d a | .vsat _ m d a => vecDecl12 ([d, a] ++ maskRegs m)
  | .vpack _ _ _ m d a b => vecDecl12 ([d, a, b] ++ maskRegs m)
  | .vunpk _ _ _ m d a => vecDecl12 ([d, d + 1#5, a] ++ maskRegs m)
  | .vtag _ d a => vecDecl12 [d, a]
  | .vtagq d a => { computeOnly := true, cr := [d], vr := [a] }
  | .mma x => { waitDecl 12 (x.ra.toList ++ x.rb.toList) with computeOnly := true }
  | .mmas x y => { waitDecl 20 (x.ra.toList ++ x.rb.toList ++ [y.ta, y.tb]) with computeOnly := true }
  | .mlda _ _ _ | .msta _ _ _ | .mtrn _ _ _ => { waitDecl 12 [] with computeOnly := true }
  | .mzero _ _ => { waitDecl 12 [] with computeOnly := true }
  | .mcvt _ _ _ _ _ => { waitDecl 12 [] with computeOnly := true }
  | .mwait _ | .mcons _ => { mon := true }
  | .mspill _ _ | .mfill _ _ => { monOnly := true, computeOnly := true }
  | .licreq | .licrel => { mon := true, computeOnly := true }
  | .licq d | .myid d | .tstamp d | .cstamp d => { mon := true, cr := [d] }
  | .accq d _ => { mon := true, cr := [d] }
  | .gridq d _ | .fmtget d _ => { mon := true, cr := [d] }
  | .evread d _ => { mon := true, cr := [d] }
  | .srd d _ => { mon := true, cr := [d] }
  | .fmtset _ a | .evcfg _ a => { mon := true, cr := [a] }
  | .swr _ a => { mon := true, cr := [a] }
  | .ganghint a => { mon := true, cr := [a] }
  | .send _ a b _ npay | .sendh _ a b _ npay _ => waitDecl 12 (a :: regRange b npay.toNat)
  | .spawn a b _ nreg => waitDecl 12 (a :: regRange b nreg.toNat)
  | .fork a b _ nreg => waitDecl 12 (a :: regRange b nreg.toNat)
  | .join a b => { ender := true, cr := [a, b], waitAll := true }
  | .launch a b _ => waitDecl 12 (a :: regRange b 6)
  | .halt => { ender := true, waitAll := true }
  | .yield => { ender := true, waitAll := true }
  | .gethdl d b => { mon := true, cr := [d, b] }
  | .barinit _ a => { cr := [a] }
  | .bararr _ a => { cr := [a], waitAll := decide (a ≠ 0#5) }
  | .barwait _ | .semup _ | .semdn _ => {}
  | .semtry d _ => { cr := [d] }
  | .evpulse _ => { mon := true }
  | .trap _ | .brk _ => { ender := true, trapEnds := true }
  | .sigchk => { ender := true, mon := true }
  | .nop => { mon := true }
  | .rft => { monOnly := true }
  | _ => {}

/-- With what the format registers make of it: a load by elements whose tag has another width than its elements is no instruction
(R127). -/
def State.declared (s : State) (i : Instr) : Issue :=
  match i with
  | .ldvs _ _ _ _ tag ew _ | .ldvg _ _ _ _ tag ew _ => { decl i with illegal := s.widthBad tag ew }
  | _ => decl i

/-- No check that every instruction shares fails, and nothing holds the instruction back: the core has a stream of
instructions, the mode, the role and the format registers allow this one, its vector registers are declared, no request is
outstanding on a register it names, and no kill waits (R39, R121, R127, R203, R382, R388). -/
structure Free (i : Issue) (s : State) : Prop where
  stream : s.monitor = true ∨ s.my.act.isSome = true
  mode : if s.monitor then i.mon = true ∨ i.monOnly = true else i.monOnly = false
  role : i.computeOnly = true → s.focus.compute = true
  legal : i.illegal = false
  range : s.regRange i = none
  hazard : s.monitor = true ∨ s.hazard i = false
  kill : s.my.killLater = none

/-- The checker lets the instruction begin, with s' the state in which it does, and lets it end, taken or not; in monitor
mode it does not check, and a handler without a table passes (R45 to R48). -/
def Checked (i : Issue) (s s' : State) (taken : Bool) : Prop :=
  if s.monitor then s' = s
  else ∃ a es g, s.my.act = some a ∧ s.sigTable = (.ok es, s) ∧ sigReach s a (codeOffset a s.my.pc) es = .ok g ∧
    sigEnd a g es i s.word0 taken = none ∧ s' = s.modMy fun c => { c with sig := g }

/-- The instruction starts at s, and s' is s as its effect finds it: s but for the checker's state. -/
def Starts (i : Instr) (s s' : State) (taken : Bool) : Prop := Free (s.declared i) s ∧ Checked (s.declared i) s s' taken

/-- t is u but for the registers, the pc, the checker and the progress of the focus core: of its context, or, in monitor
mode, of the monitor. All memory, every other core, context, tile, region and partition is as in u. -/
structure OnlyIssuer (u t : State) : Prop where
  rest : t = { u with cores := t.cores, tiles := t.tiles }
  others : ∀ k, k ≠ u.myKey → t.core k = u.core k
  mine : ∃ c pc sig, t.core u.myKey = { u.my with c := c, pc := pc, sig := sig, prog := {} } ∧
    (u.monitor = true → c = u.my.c ∧ pc = u.my.pc ∧ sig = u.my.sig)
  tiles : u.monitor = false → t.tiles = u.tiles
  monitor : ∃ c pc, ∀ i, t.tile i = (u.modMcore u.focus fun m => if u.monitor then { m with c := c, pc := pc } else m).tile i

/-- An instruction whose effect made u ends at next: the registers are u's. -/
structure Ends (u t : State) (next : Nat) : Prop where
  frame : OnlyIssuer u t
  regs : ∀ r, t.rc r = u.rc r
  pc : t.pcNow = next % 2 ^ 64

/-- It ends at next with v in register d; writes of c0 are ignored (R53). -/
structure EndsWith (u t : State) (next : Nat) (d : Reg) (v : CReg) : Prop where
  frame : OnlyIssuer u t
  regs : ∀ r, t.rc r = if r = d ∧ d ≠ 0#5 then v else u.rc r
  pc : t.pcNow = next % 2 ^ 64

/-- The monitor was entered at u: the cause, the pc and the word are saved, FAULTVA and FAULTINFO set, the core goes on at the
monitor's entry, address 0; nothing but the core's progress and stall and its monitor's registers has changed (R383). -/
structure Trapped (u t : State) (cause va info : Nat) (aborted : Bool) : Prop where
  rest : t = { u with cores := t.cores, tiles := t.tiles }
  mode : t.monitor = true
  pc : t.pcNow = 0
  saved : t.mcore u.focus = { u.mcore u.focus with
    mode := true, pc := 0, entered := (u.cluster (clusterOf u.focus.site)).edges, cause := cause, defer := false, aborted := aborted
    act := 0, trapCtx := u.running u.focus.site, kept := {}, trappc := BitVec.ofNat 64 u.my.pc, trapword := u.word0
    faultva := BitVec.ofNat 56 va, faultinfo := BitVec.ofNat 64 info }
  others : ∀ k, k ≠ u.myKey → t.core k = u.core k
  mine : t.core u.myKey = { u.my with prog := {}, stall := if u.my.leaving.isEmpty then .none else .refused }
  sites : ∀ i, i ≠ u.focus.site → t.tile i = u.tile i

/-- A vector unit that sleeps in a cluster that reserves for vectors: a vector access waits for its ramp (R421). -/
def State.vecRests (s : State) : Bool := (s.tile s.focus.site).vecAsleep && (s.cluster (clusterOf s.focus.site)).vec

/-- The unit is awake and holds a grant, which the next vector instruction gives back (R419). -/
def State.vecHolds (s : State) : Bool := !(s.tile s.focus.site).vecAsleep && (s.tile s.focus.site).vecGrant

/-- A vector access of registers vr has the unit at work, with their banks awake; one that names none leaves the unit alone
(R205, R421; log entry 78). -/
def State.atWork (s : State) (vr : List Reg) : State :=
  if vr.isEmpty then s
  else
    let s' := if s.vecHolds then s.modTile s.focus.site fun t => { t with vecGrant := false } else s
    (s'.modTile s.focus.site fun t => { t with vecAsleep := false, vecLast := s.edgesAt s.focus.site }).touchBanks vr

/-- State u, in which a vector access that began in s has acted: a grant is given back (R419). -/
def State.givenBack (s : State) (vr : List Reg) (u : State) : State :=
  if !vr.isEmpty && s.vecHolds then u.releaseUnits (clusterOf s.focus.site) 2 else u

/-- What a vector access does instead where the unit's ramp comes first. -/
def State.rampAsked (s : State) : State := s.requestVector.modMy fun c => { c with stall := .ramp }

/-- The bytes of the machine's memories, by their cells (R76) and host addresses. -/
def State.rimByte (s : State) (a : Nat) : Byte := tget 0#8 s.rim a
def State.hostByte (s : State) (a : Nat) : Byte := tget 0#8 s.host a

/-- The bytes of a canonical memory: addresses strictly rising, no byte listed that an unlisted address reads as. -/
abbrev Memory.wf (m : List Host.Cell) : Bool := Tbl.wf (0#8 : Byte) m

/-- Rim memory, host memory and the rim memory a checkpoint holds are canonical. -/
def State.memWf (s : State) : Bool := Memory.wf s.rim && Memory.wf s.host && s.image.all fun i => Memory.wf i.rim

end Sys2Proof.Machine
end

