-- ==== Sys2Proof/Safety/Memory.lean ====
section
/-! DEFINITION. The forms of loads, stores and atomics as the spec's tables give them (R123, R124, R126 to R131, R138 to R141),
and what of a load the core's own trail serves (R101). -/

namespace Sys2Proof.Machine

open Sys2Proof

/-- A load: base register, displacement, bytes, where its value goes, the tag its own trail brings, and whether memory brings
the tag (R123, R124). -/
def loadForm (i : Instr) (s : State) : Option (Reg × Int × Nat × ReqKind × Bool × Bool) :=
  let f (d a : Reg) (disp : Int) (n : Nat) (signed : Bool) := some (a, disp, n, ReqKind.scalar d n signed, false, false)
  let cap (d a : Reg) (disp : Int) :=
    let ea := ((s.rc a).addr + disp).toNat
    let own := s.my.forwardEntry (ea / 16)
    some (a, disp, 16, ReqKind.cap d ((s.rc a).permK && devHalf ea), own.any (fun e => e.tag && e.mask == BitVec.allOnes 16), own.isNone)
  match i with
  | .ld8N d a m => f d a m.toInt 1 false
  | .ld8NLiteral d a x => f d a x.toInt 1 false
  | .ld8S d a m => f d a m.toInt 1 true
  | .ld8SLiteral d a x => f d a x.toInt 1 true
  | .ld16N d a m => f d a m.toInt 2 false
  | .ld16NLiteral d a x => f d a x.toInt 2 false
  | .ld16S d a m => f d a m.toInt 2 true
  | .ld16SLiteral d a x => f d a x.toInt 2 true
  | .ld32N d a m => f d a m.toInt 4 false
  | .ld32NLiteral d a x => f d a x.toInt 4 false
  | .ld32S d a m => f d a m.toInt 4 true
  | .ld32SLiteral d a x => f d a x.toInt 4 true
  | .ld64 d a m => f d a m.toInt 8 false
  | .ld64Literal d a x => f d a x.toInt 8 false
  | .ldc d a m => cap d a m.toInt
  | .ldcLiteral d a x => cap d a x.toInt
  | _ => none

/-- The bytes of n at va that the own trail does not hold, and the value of those it holds (R101). -/
def wantedBytes (c : Core) (ps : List (Nat × Nat)) : List (Nat × Nat) := ps.filter fun p => (c.forward p.2).isNone
def ownBytes (c : Core) (ps : List (Nat × Nat)) : Nat := (ps.map fun p => ((c.forward p.2).elim 0 (·.toNat)) * 256 ^ p.1).sum

/-- A loaded value in its register: zero- or sign-extended data, or a capability (R123, R124). -/
def loadedReg (k : ReqKind) (x : Nat) (tag : Bool) : Reg × CReg :=
  match k with
  | .scalar d n signed => (d, dataReg (if signed then (BitVec.ofNat (8 * n) x).signExtend 64 else BitVec.ofNat 64 (x % 256 ^ n)))
  | .cap d keep => (d, { bits := BitVec.ofNat 128 x, tag := tag && keep })
  | _ => (0#5, {})

/-- A store: base register, displacement, bytes, value, tag, permissions it needs (R126, R59). -/
def storeForm (i : Instr) (s : State) : Option (Reg × Int × Nat × Nat × Bool × Perms) :=
  let f (d a : Reg) (disp : Int) (n : Nat) := some (a, disp, n, (s.rd d).toNat, false, ({ s := true } : Perms))
  let cap (d a : Reg) (disp : Int) := some (a, disp, 16, (s.rc d).bits.toNat, (s.rc d).tag, ({ s := true, k := (s.rc d).tag } : Perms))
  match i with
  | .st8 d a m => f d a m.toInt 1
  | .st8Literal d a x => f d a x.toInt 1
  | .st16 d a m => f d a m.toInt 2
  | .st16Literal d a x => f d a x.toInt 2
  | .st32 d a m => f d a m.toInt 4
  | .st32Literal d a x => f d a x.toInt 4
  | .st64 d a m => f d a m.toInt 8
  | .st64Literal d a x => f d a x.toInt 8
  | .stc d a m => cap d a m.toInt
  | .stcLiteral d a x => cap d a x.toInt
  | _ => none

/-- A vector load: destination, tag, its elements, mask, what its tag checks ask, and the failed capability check
(R127 to R130). -/
def vloadForm (i : Instr) (s : State) : Option (Reg × Byte × VAccess × Option Mask × Bool × Option (Cause × Int)) :=
  let byElem (ew : Ew) (d a : Reg) (tag : Byte) (m : Option Mask) (extra : Bool) (v : VAccess) :=
    some (d, tag, v, m, (s.kind tag).any (fun k => tag == 0#8 || k.width == ewBits ew) && s.maskOk m && extra && s.keepOk m d tag,
      checkElems (s.rc a) v (v.live s m) { l := true })
  match i with
  | .ldv d a off tag m => (s.kind tag).bind fun k =>
    let ea0 : Int := (s.rc a).addr + off.toInt
    let v := blockAccess k.width ea0
    some (d, tag, v, m, s.maskOk m && s.keepOk m d tag, checkBlock (s.rc a) v (v.live s m) ea0 { l := true })
  | .ldvs d a b off tag ew m => byElem ew d a tag m true (strideAccess ew ((s.rc a).addr + off.toInt) (s.rd b).toInt)
  | .ldvg d a vi off tag ew m =>
    byElem ew d a tag m ((s.vr vi).tag == 0x14#8 || (s.vr vi).tag == 0x15#8) (gatherAccess ew ((s.rc a).addr + off.toInt) s vi)
  | _ => none

/-- A vector store: its granule writes, what its tag checks ask, and the failed capability check (R127 to R129, R131). -/
def vstoreForm (i : Instr) (s : State) : Option (List TrailEntry × Bool × Option (Cause × Int)) :=
  let byElem (ew : Ew) (d a : Reg) (m : Option Mask) (extra : Bool) (v : VAccess) :=
    some (trailAddAll [] (vstoreEntries (s.vbits d) v (v.live s m)),
      s.maskOk m && extra && ((s.vr d).tag == 0#8 || (s.kind (s.vr d).tag).any fun k => k.typed && k.width == ewBits ew),
      checkElems (s.rc a) v (v.live s m) { s := true })
  match i with
  | .stv d a off m => (s.kind (s.vr d).tag).bind fun k =>
    let ea0 : Int := (s.rc a).addr + off.toInt
    let v := blockAccess k.width ea0
    some (vblockEntries (s.vbits d) v (v.live s m) ea0.toNat, s.maskOk m && (m.isNone || (k.typed && decide (8 ≤ k.width))),
      checkBlock (s.rc a) v (v.live s m) ea0 { s := true })
  | .stvs d a b off ew m => byElem ew d a m true (strideAccess ew ((s.rc a).addr + off.toInt) (s.rd b).toInt)
  | .stvg d a vi off ew m =>
    byElem ew d a m ((s.vr vi).tag == 0x14#8 || (s.vr vi).tag == 0x15#8) (gatherAccess ew ((s.rc a).addr + off.toInt) s vi)
  | _ => none

/-- An atomic: minor of R138, ordering, bytes, c(D), c(A), operand, compare value (R138 to R141). -/
def atomForm (i : Instr) (s : State) : Option (Nat × Order × Nat × Reg × Reg × Nat × Nat) :=
  let f (minor : Nat) (o : Order) (w32 : Bool) (d a b : Reg) :=
    let n := if w32 then 4 else 8
    some (minor, o, n, d, a, (s.rd b).toNat % 256 ^ n, (s.rd d).toNat % 256 ^ n)
  match i with
  | .atomAdd o w d a b => f 0 o w d a b
  | .atomAnd o w d a b => f 1 o w d a b
  | .atomOr o w d a b => f 2 o w d a b
  | .atomXor o w d a b => f 3 o w d a b
  | .atomMinS o w d a b => f 4 o w d a b
  | .atomMinN o w d a b => f 5 o w d a b
  | .atomMaxS o w d a b => f 6 o w d a b
  | .atomMaxN o w d a b => f 7 o w d a b
  | .atomSwap o w d a b => f 8 o w d a b
  | .cas o w d a b => f 9 o w d a b
  | .cas2 o d a b => some (10, o, 16, d, a, (s.rd b).toNat + 2 ^ 64 * (s.rd (b + 1#5)).toNat, (s.rd d).toNat + 2 ^ 64 * (s.rd (d + 1#5)).toNat)
  | .atomfAdd o w d a b => f 11 o w d a b
  | _ => none

end Sys2Proof.Machine
end

