-- ==== Sys2Proof/Safety/Scalar.lean ====
section
/-! DEFINITION. What the scalar instructions write, from the tables of the spec in whole numbers: R220 to R223, R226 to R228,
R230 to R237. -/

namespace Sys2Proof.Machine

open Sys2Proof

/-- r of the two-operand minors (R220, R221); / and % of a negative whole number round toward −∞, tdiv and tmod toward 0. -/
def specAlu (op : Alu) (x y : W64) : Nat :=
  let a := x.toNat
  let b := y.toNat
  let sa := x.toInt
  let sb := y.toInt
  let s := b % 64
  match op with
  | .add => (a + b) % 2 ^ 64
  | .sub => (2 ^ 64 + a - b) % 2 ^ 64
  | .and => a &&& b
  | .or => a ||| b
  | .xor => a ^^^ b
  | .shl => a * 2 ^ s % 2 ^ 64
  | .shr => a / 2 ^ s
  | .sar => (sa / 2 ^ s % 2 ^ 64).toNat
  | .mul => a * b % 2 ^ 64
  | .mulhS => (sa * sb / 2 ^ 64 % 2 ^ 64).toNat
  | .mulhN => a * b / 2 ^ 64
  | .divS => if b = 0 then 2 ^ 64 - 1 else (sa.tdiv sb % 2 ^ 64).toNat
  | .divN => if b = 0 then 2 ^ 64 - 1 else a / b
  | .remS => if b = 0 then a else (sa.tmod sb % 2 ^ 64).toNat
  | .remN => if b = 0 then a else a % b
  | .minS => if sb < sa then b else a
  | .minN => min a b
  | .maxS => if sa < sb then b else a
  | .maxN => max a b

/-- The conditions of R222. -/
def specCond (q : Cond) (x y : W64) : Bool :=
  match q with
  | .eq => decide (x.toNat = y.toNat)
  | .ne => decide (x.toNat ≠ y.toNat)
  | .ltS => decide (x.toInt < y.toInt)
  | .geS => decide (y.toInt ≤ x.toInt)
  | .ltN => decide (x.toNat < y.toNat)
  | .geN => decide (y.toNat ≤ x.toNat)
  | .z => decide (x.toNat = 0)
  | .nz => decide (x.toNat ≠ 0)

/-- Leading zeros, trailing zeros and ones, counted bit by bit (R220). -/
def specClz (x : W64) : Nat := ((List.range 64).takeWhile fun i => !bitAt x (63 - i)).length
def specCtz (x : W64) : Nat := ((List.range 64).takeWhile fun i => !bitAt x i).length
def specPopc (x : W64) : Nat := ((List.range 64).filter fun i => bitAt x i).length

/-- The register an integer instruction of majors 0x01 and 0x02 writes, and r (R219 to R223). -/
def intResult (i : Instr) (s : State) : Option (Reg × Nat) :=
  let rr (op : Alu) (d a b : Reg) := some (d, specAlu op (s.rd a) (s.rd b))
  let ri (op : Alu) (d a : Reg) (x : W64) := some (d, specAlu op (s.rd a) x)
  match i with
  | .add d a b => rr .add d a b | .addLiteral d a x => ri .add d a x
  | .sub d a b => rr .sub d a b | .subLiteral d a x => ri .sub d a x
  | .and d a b => rr .and d a b | .andLiteral d a x => ri .and d a x
  | .or d a b => rr .or d a b | .orLiteral d a x => ri .or d a x
  | .xor d a b => rr .xor d a b | .xorLiteral d a x => ri .xor d a x
  | .shl d a b => rr .shl d a b | .shlLiteral d a x => ri .shl d a x
  | .shr d a b => rr .shr d a b | .shrLiteral d a x => ri .shr d a x
  | .sar d a b => rr .sar d a b | .sarLiteral d a x => ri .sar d a x
  | .mul d a b => rr .mul d a b | .mulLiteral d a x => ri .mul d a x
  | .mulhS d a b => rr .mulhS d a b | .mulhSLiteral d a x => ri .mulhS d a x
  | .mulhN d a b => rr .mulhN d a b | .mulhNLiteral d a x => ri .mulhN d a x
  | .divS d a b => rr .divS d a b | .divSLiteral d a x => ri .divS d a x
  | .divN d a b => rr .divN d a b | .divNLiteral d a x => ri .divN d a x
  | .remS d a b => rr .remS d a b | .remSLiteral d a x => ri .remS d a x
  | .remN d a b => rr .remN d a b | .remNLiteral d a x => ri .remN d a x
  | .minS d a b => rr .minS d a b | .minSLiteral d a x => ri .minS d a x
  | .minN d a b => rr .minN d a b | .minNLiteral d a x => ri .minN d a x
  | .maxS d a b => rr .maxS d a b | .maxSLiteral d a x => ri .maxS d a x
  | .maxN d a b => rr .maxN d a b | .maxNLiteral d a x => ri .maxN d a x
  | .clz d a => some (d, specClz (s.rd a))
  | .ctz d a => some (d, specCtz (s.rd a))
  | .popc d a => some (d, specPopc (s.rd a))
  | .sel d a b => some (d, if (s.rd d).toNat ≠ 0 then (s.rd a).toNat else (s.rd b).toNat)
  | .selLiteral d a x => some (d, if (s.rd d).toNat ≠ 0 then (s.rd a).toNat else x.toNat)
  | .cmp q d a b => some (d, if specCond q (s.rd a) (s.rd b) then 1 else 0)
  | .cmpLiteral q d a x => some (d, if specCond q (s.rd a) x then 1 else 0)
  | .addi d a m => ri .add d a (m.signExtend 64) | .addiLiteral d a x => ri .add d a x
  | .andi d a m => ri .and d a (m.signExtend 64) | .andiLiteral d a x => ri .and d a x
  | .ori d a m => ri .or d a (m.signExtend 64) | .oriLiteral d a x => ri .or d a x
  | .xori d a m => ri .xor d a (m.signExtend 64) | .xoriLiteral d a x => ri .xor d a x
  | .shli d a m => ri .shl d a (m.signExtend 64) | .shliLiteral d a x => ri .shl d a x
  | .shri d a m => ri .shr d a (m.signExtend 64) | .shriLiteral d a x => ri .shr d a x
  | .sari d a m => ri .sar d a (m.signExtend 64) | .sariLiteral d a x => ri .sar d a x
  | .li d m => some (d, (m.signExtend 64).toNat)
  | .liLiteral d x => some (d, x.toNat)
  | _ => none

/-- What a floating instruction writes (R225 to R228): operands decoded in the format Q[0] names, the exact result rounded
once; the sign operations and FCMP as their tables say. -/
def floatResult (i : Instr) (s : State) : Option (Reg × W64) :=
  let v (f64 : Bool) (x : W64) : Val := decodeFloat (if f64 then fp64 else fp32) (if f64 then x.toNat else x.toNat % 2 ^ 32)
  let out (f64 : Bool) (rm : Rm) (x : Val) : W64 := BitVec.ofNat 64 (roundTo (if f64 then fp64 else fp32) (Rm.vrm rm) false 0 x).1
  let cmp (f64 : Bool) (q : FCond) (x y : W64) : W64 :=
    let a := v f64 x
    let b := v f64 y
    BitVec.ofNat 64 (if (match q with
      | .eq => a.eq b
      | .lt => a.lt b
      | .le => a.lt b || a.eq b
      | .un => a.isNan || b.isNan) then 1 else 0)
  match i with
  | .fadd f rm d a b => some (d, out f rm ((v f (s.rd a)).add (Rm.vrm rm) (v f (s.rd b))))
  | .faddLiteral f rm d a x => some (d, out f rm ((v f (s.rd a)).add (Rm.vrm rm) (v f x)))
  | .fsub f rm d a b => some (d, out f rm ((v f (s.rd a)).add (Rm.vrm rm) (v f (s.rd b)).negate))
  | .fsubLiteral f rm d a x => some (d, out f rm ((v f (s.rd a)).add (Rm.vrm rm) (v f x).negate))
  | .fmul f rm d a b => some (d, out f rm ((v f (s.rd a)).mul (v f (s.rd b))))
  | .fmulLiteral f rm d a x => some (d, out f rm ((v f (s.rd a)).mul (v f x)))
  | .ffma f rm d a b => some (d, out f rm (((v f (s.rd a)).mul (v f (s.rd b))).add (Rm.vrm rm) (v f (s.rd d))))
  | .ffmaLiteral f rm d a x => some (d, out f rm (((v f (s.rd a)).mul (v f x)).add (Rm.vrm rm) (v f (s.rd d))))
  | .fmin f d a b => some (d, out f .rne ((v f (s.rd a)).minOf (v f (s.rd b))))
  | .fminLiteral f d a x => some (d, out f .rne ((v f (s.rd a)).minOf (v f x)))
  | .fmax f d a b => some (d, out f .rne ((v f (s.rd a)).maxOf (v f (s.rd b))))
  | .fmaxLiteral f d a x => some (d, out f .rne ((v f (s.rd a)).maxOf (v f x)))
  | .fcmp f q d a b => some (d, cmp f q (s.rd a) (s.rd b))
  | .fcmpLiteral f q d a x => some (d, cmp f q (s.rd a) x)
  | .fcvt f rm .xf d a => some (d, out f rm (v (!f) (s.rd a)))
  | .fcvt f rm .sf d a => some (d, out f rm (.ofInt (s.rd a).toInt))
  | .fcvt f rm .nf d a => some (d, out f rm (.ofInt (s.rd a).toNat))
  | .fcvt f rm .fs d a => some (d, if (v f (s.rd a)).isNan then 0#64 else BitVec.ofNat 64 (toInt 64 true (Rm.vrm rm) 0 (v f (s.rd a))).1)
  | .fcvt f rm .fn d a => some (d, if (v f (s.rd a)).isNan then 0#64 else BitVec.ofNat 64 (toInt 64 false (Rm.vrm rm) 0 (v f (s.rd a))).1)
  | .fabs f d a => some (d, BitVec.ofNat 64 ((s.rd a).toNat % 2 ^ (if f then 63 else 31)))
  | .fneg true d a => some (d, BitVec.ofNat 64 ((s.rd a).toNat + 2 ^ 63))
  | .fneg false d a => some (d, BitVec.ofNat 64 (((s.rd a).toNat + 2 ^ 31) % 2 ^ 32))
  | _ => none

/-- What MOV, the derivations and the queries of capabilities write (R222, R230 to R232). -/
def capResult (i : Instr) (s : State) : Option (Reg × CReg) :=
  match i with
  | .mov d a => some (d, s.rc a)
  | .csetb d a b =>
    let c := s.rc a
    let e := canonical (s.rd b).toNat
    some (d, if !c.tag then dataReg (s.rd a)
      else if 31 < e.1 ∨ c.top < c.addr + e.2 * 2 ^ e.1 then dataReg (BitVec.ofNat 64 c.addr)
      else mkCap c.addr c.addr e.2 e.1 c.perms)
  | .csetp d a b =>
    let c := s.rc a
    some (d, if !c.tag then dataReg (s.rd a)
      else { bits := BitVec.ofNat 128 (c.bits.toNat % 2 ^ 124 + (c.perms &&& ((s.rd b).toNat % 16)) * 2 ^ 124), tag := true })
  | .cinc d a b =>
    let c := s.rc a
    let n : Int := c.addr + (s.rd b).toInt
    some (d, if !c.tag then dataReg (BitVec.ofNat 64 ((s.rd a).toNat + (s.rd b).toNat))
      else if n < c.base ∨ (c.top : Int) < n ∨ n = 2 ^ 56 then dataReg (BitVec.ofInt 64 n)
      else { c with bits := BitVec.ofNat 128 (c.bits.toNat / 2 ^ 56 * 2 ^ 56 + n.toNat) })
  | .cgetb d a => some (d, dataReg (if (s.rc a).tag then BitVec.ofNat 64 (s.rc a).base else 0#64))
  | .cgetl d a => some (d, dataReg (if (s.rc a).tag then BitVec.ofNat 64 (s.rc a).len else 0#64))
  | .cgetp d a => some (d, dataReg (if (s.rc a).tag then BitVec.ofNat 64 ((s.rc a).perms + 16) else 0#64))
  | .cclr d a => some (d, dataReg (s.rd a))
  | .ctest d a b =>
    let c := s.rc a
    let e := s.rc b
    some (d, dataReg (BitVec.ofNat 64 (if (if b = 0#5 then c.tag
      else c.tag && e.tag && decide (c.base ≤ e.base) && decide (e.top ≤ c.top) && decide (e.perms &&& c.perms = e.perms)) then 1 else 0)))
  | _ => none

/-- A branch of format B or J and LOOP: whether it is taken, its offset in words, and the register it writes, c0 for none
(R233, R234, R236). -/
def branchResult (i : Instr) (s : State) : Option (Bool × Int × Reg × W64) :=
  let c (q : Cond) (a b : Reg) (off : BitVec 9) := some (specCond q (s.rd a) (s.rd b), off.toInt, 0#5, 0#64)
  match i with
  | .beq _ off a b => c .eq a b off
  | .bne _ off a b => c .ne a b off
  | .bltS _ off a b => c .ltS a b off
  | .bgeS _ off a b => c .geS a b off
  | .bltN _ off a b => c .ltN a b off
  | .bgeN _ off a b => c .geN a b off
  | .bz _ off a => c .z a 0#5 off
  | .bnz _ off a => c .nz a 0#5 off
  | .b _ off => some (true, off.toInt, 0#5, 0#64)
  | .call _ off => some (true, off.toInt, 31#5, BitVec.ofNat 64 (s.pcNow + 4))
  | .loop _ off a => some (decide ((s.rd a).toNat ≠ 1), off.toInt, a, BitVec.ofInt 64 ((s.rd a).toNat - 1))
  | _ => none

/-- A jump to a register: the register, and whether c31 takes the return address (R235). -/
def jumpResult (i : Instr) : Option (Reg × Bool) :=
  match i with
  | .ret => some (31#5, false)
  | .jr a => some (a, false)
  | .callr a => some (a, true)
  | _ => none

end Sys2Proof.Machine
end

