-- ==== Sys2Proof/Safety/System.lean ====
section
/-! DEFINITION. What claims say of the instructions that read a figure of the machine into a c register, of handle accesses,
copies, matrix commands and messages: the value, access, command or message that an instruction's operands describe where
its checks pass. -/

namespace Sys2Proof.Machine

open Sys2Proof

/-- Fields of a word side by side: (offset, value). -/
def packed (fs : List (Nat × Nat)) : W64 := BitVec.ofNat 64 (fs.map fun f => f.2 * 2 ^ f.1).sum

/-- TRAILQ (R137). -/
def trailqValue (s : State) (sel : Nat) : Option Nat :=
  let k := s.myKey
  let area := s.trailArea s.myRegion
  match sel with
  | 0 => some s.my.trail.length
  | 1 => some (area / 64 - s.my.trail.length)
  | 2 => some (s.sealedCount k)
  | 3 => some (area / 32 - s.my.trail.length - s.sealedCount k)
  | 4 => some (stampTick s.my.view)
  | 5 => some (stampTick s.my.tail)
  | 6 => some (stampTick (s.fpOf k))
  | 7 => some area
  | _ => none

/-- HQUERY on a declared handle (R165). -/
def hqueryValue (s : State) (h sel : Nat) : Option W64 :=
  let t := s.handle s.me h
  let x := s.ctx s.me
  let held (n : Nat) : Option W64 := some (BitVec.ofNat 64 (if t.st = 0 then 0 else n))
  match sel with
  | 0 => if t.st = 0 then some 0#64 else some (packed [(0, t.st), (2, match t.level with | .tile => 0 | .twin => 1 | .cluster => 2),
      (4, bit01 t.retain), (5, bit01 t.shatom), (8, t.tag.toNat)])
  | 1 => held t.rows
  | 2 => held t.cols
  | 3 => held t.pitch
  | 4 => held (t.size * 16384)
  | 5 => some (BitVec.ofNat 64 (min (min x.quota 384 - x.used) (s.granuleRoom x.site)))
  | 6 => held (s.covering s.me h).length
  | _ => none

/-- GRIDQ (R347). -/
def gridqValue (s : State) (sel : Nat) : Option Nat :=
  let b := (s.region s.myRegion).blk
  match sel with
  | 0 => some b.width
  | 1 => some b.height
  | 2 => some (ctxVt s.me % b.width)
  | 3 => some (ctxVt s.me / b.width)
  | 4 => some ((s.gangOf s.myRegion (ctxVt s.me)).headD 0)
  | 5 => some (s.gangOf s.myRegion (ctxVt s.me)).length
  | 6 => some (s.prio s.myRegion)
  | _ => none

/-- ACCQ (R309). -/
def accqValue (s : State) (sel : Nat) : Option W64 :=
  let own := (s.tile s.focus.site).accown
  let cs := (s.ctx s.me).cmds
  let four (at_ : Nat) (f : Nat → Bool) : List (Nat × Nat) := (List.range 4).map fun i => (at_ + i, bit01 (f i))
  match sel with
  | 0 => some (packed (four 0 (fun i => accValid own i && accSlot own i == s.mySlot) ++ four 4 (accValid own) ++
      four 8 fun i => cs.any fun c => c.acc == some i))
  | 1 => some (packed (cs.map fun c => (c.id, 1)))
  | 2 => some (BitVec.ofNat 64 cs.length)
  | _ => none

/-- SRD of a register that is no queue, where the checks of R213 pass. -/
def srdValue (s : State) (num : Nat) : Option Nat :=
  match sysReg num with
  | some (.queue _) => none
  | some r => if (r.monRead && !s.monitor) || r.refused s.focus.compute false then none else some (sysRead s r)
  | none => none

/-- Instructions that write a figure of the machine to c(D): the register and the value (R137, R165, R198, R213, R295, R309, R311,
R347, R353, R355, R357). -/
def readResult (i : Instr) (s : State) : Option (Reg × W64) :=
  let nat (d : Reg) (x : Option Nat) : Option (Reg × W64) := x.map fun v => (d, BitVec.ofNat 64 v)
  match i with
  | .trailq d sel => nat d (trailqValue s sel.toNat)
  | .hquery d h sel => if s.declaredHandles ≤ h.toNat then none else (hqueryValue s h.toNat sel.toNat).map fun v => (d, v)
  | .cstat d q =>
    let t := tget {} (s.ctx s.me).copyq q.toNat
    some (d, packed [(0, t.cmds.length), (4, bit01 t.faulted), (8, t.done.toNat), (24, t.refused.toNat)])
  | .licq d => some (d, BitVec.ofNat 64 (s.licWord s.focus.site s.mySlot))
  | .accq d sel => (accqValue s sel.toNat).map fun v => (d, v)
  | .fmtget d f => some (d, tget 0#64 s.my.f f.toNat)
  | .gridq d sel => nat d (gridqValue s sel.toNat)
  | .myid d =>
    some (d, packed ([(0, ctxVt s.me), (24, bit01 s.focus.compute)] ++ if s.monitor then [(34, s.focus.site), (48, s.mySlot)] else []))
  | .qstat d k => some (d, BitVec.ofNat 64 (tget [] (s.ctx s.me).q k.toNat).length)
  | .evread d k => if s.evOk k.toNat then some (d, BitVec.ofNat 64 (tget 0 (s.tile s.focus.site).evWas k.toNat)) else none
  | .tstamp d => some (d, BitVec.ofNat 64 s.tick)
  | .cstamp d => some (d, BitVec.ofNat 64 (s.cluster (clusterOf s.focus.site)).edges)
  | .srd d num => nat d (srdValue s num.toNat)
  | _ => none

/-! Handle accesses (R168 to R170). -/

/-- A handle load, store or atomic: order, the access, what its tag check asks, and whether it reads or writes. -/
def scrForm (i : Instr) (s : State) : Option (Order × Scr × Bool × Bool × Bool) :=
  let f (h b : Reg) (n : Nat) (op : ScrOp) (rd wr : Bool) : Option (Order × Scr × Bool × Bool × Bool) :=
    some (.plain, { h := h.toNat, off := (s.rd b).toNat * n, n := n, op := op }, true, rd, wr)
  match i with
  | .ldh32 d h b => f h b 4 (.load d) true false
  | .ldh64 d h b => f h b 8 (.load d) true false
  | .sth32 d h b => f h b 4 (.store ((s.rd d).toNat % 2 ^ 32)) false true
  | .sth64 d h b => f h b 8 (.store (s.rd d).toNat) false true
  | .ldhv d h b => f h b 128 (.loadV d (s.handle s.me h.toNat).tag) true false
  | .sthv d h b =>
    let t := (s.handle s.me h.toNat).tag
    let v := (s.vr d).tag
    some (.plain, { h := h.toNat, off := (s.rd b).toNat * 128, n := 128, op := .storeV (s.vbits d) },
      v == t || v == 0#8 || t == 0#8, false, true)
  | .hatom o w op d h b =>
    let n := if w then 4 else 8
    some (o, { h := h.toNat, off := (s.rd b).toNat * n, n := n, op := .atom d (AtomOp.minor op) ((s.rd d).toNat % 256 ^ n) 0 (o == .acq || o == .ar) },
      true, true, true)
  | .hcas o w d h b cmp =>
    let n := if w then 4 else 8
    some (o, { h := h.toNat, off := (s.rd b).toNat * n, n := n
               op := .atom d 9 ((s.rd d).toNat % 256 ^ n) ((s.rd cmp).toNat % 256 ^ n) (o == .acq || o == .ar) }, true, true, true)
  | _ => none

/-- The first check of R169 that an access fails: its cause and reason. -/
def scrFault (s : State) (a : Scr) (ok rd wr : Bool) : Option (Cause × Nat) :=
  let t := s.handle s.me a.h
  if s.declaredHandles ≤ a.h then some (.handleInvalid, 0)
  else if t.st = 0 then some (.handleInvalid, 1)
  else if t.image < a.off + a.n then some (.handleBounds, 0)
  else if wr && t.st == 2 then some (.handleExported, 0)
  else if rd && badIn t a.off (a.off + a.n) then some (.uncorrectable, 0)
  else if !ok then some (.format, 0)
  else none

/-! Copies (R187 to R195). -/

/-- The checks every copy shares pass (R187): handles declared, semaphore and event assigned, the handle there and writable. -/
def copyChecks (s : State) (t : CopyTags) (h : Option Reg) (writes : Bool) : Bool :=
  (!t.semV || s.semOk t.sem.toNat) && (!t.evV || s.evOk t.ev.toNat) &&
    h.all fun r => decide (r.toNat < s.declaredHandles) && (s.handle s.me r.toNat).st != 0 &&
      (!writes || (s.handle s.me r.toNat).st != 2)

/-- What every copy names: its tags, and its handle with whether it writes it (R35, R187 to R196). -/
def copyNames (i : Instr) : Option (CopyTags × Option (Reg × Bool)) :=
  match i with
  | .cpy t out h _ _ | .cpys t out h _ _ _ _ | .cpyv t out h _ _ _ _ _ => some (t, some (h, !out))
  | .cpyg t h _ _ _ _ => some (t, some (h, true))
  | .cpym t h _ _ | .cshd t h _ _ | .cred t _ h _ _ => some (t, some (h, false))
  | .cpub t _ | .barx t _ => some (t, none)
  | _ => none

/-- The accesses of a copy. -/
def copyPerm (out : Bool) : Perms := if out then { s := true } else { l := true }

/-- The command that a copy's operands describe where every check passes, and the state once its operands are read
(R188 to R190, R192 to R195). -/
def copyForm (i : Instr) (s : State) : Option (CopyCmd × State) :=
  match i with
  | .cpy t out h a b =>
    let c := s.rc a
    let n := (s.rd b).toNat
    let v := (s.rd a).toNat
    if !copyChecks s t (some h) (!out) || decide ((s.handle s.me h.toNat).image < n) then none
    else if remoteSource c out then
      if v / 2 ^ 29 % 2 ^ 34 != 0 then none
      else some ({ mkCopy s t .remote h.toNat with chunks := pieces n, srcVt := v % 2 ^ 24, srcH := v / 2 ^ 24 % 32 }, s)
    else if (checkRange c c.addr (c.addr + n) (copyPerm out)).isSome then none
    else some ({ mkCopy s t (.cpy out) h.toNat with chunks := chunksOf [{ va := c.addr, off := 0, len := n }] }, s)
  | .cpys t out h a b rows rowb =>
    let c := s.rc a
    let g := s.handle s.me h.toNat
    let row (r : Int) : Int := c.addr + r * (s.rd b).toInt
    let last := row ((rows.toNat : Int) - 1)
    if !copyChecks s t (some h) (!out) || decide (g.pitch < rowb.toNat) || decide (g.rows < rows.toNat) ||
        (checkRange c (min (c.addr : Int) last) (max (c.addr : Int) last + rowb.toNat) (copyPerm out)).isSome then none
    else some ({ mkCopy s t (.cpys out) h.toNat with
      chunks := chunksOf ((List.range rows.toNat).map fun (r : Nat) => { va := (row r).toNat, off := r * g.pitch, len := rowb.toNat }) }, s)
  | .cpyv t out h a b hx hy hz =>
    let c := s.rc a
    let l := s.rc b
    let d := s.handle s.me h.toNat
    if !copyChecks s t (some h) (!out) || (checkCap l l.addr 32 1 { l := true }).isSome then none
    else match readOwn s l.addr 32 with
      | (.ok x _, u) =>
        let g := geometry x
        let es := boxElems g c.addr d.pitch hx.toNat hy.toNat hz.toNat out
        let lo := ((es.map (·.1)).min?).getD 0
        if g.bad x || decide (d.pitch < (g.nx + 2 * hx.toNat) * g.eb) || decide (d.rows < (g.ny + 2 * hy.toNat) * (g.nz + 2 * hz.toNat)) ||
            (checkRange c lo (((es.map (·.1)).max?).getD 0 + g.eb) (copyPerm out)).isSome then none
        else some ({ mkCopy u t (.cpyv out) h.toNat with
          chunks := chunksOf (es.map fun e => { va := e.1.toNat, off := e.2, len := g.eb }) }, u)
      | _ => none
  | .cpyg t h a b count eb =>
    let c := s.rc a
    let l := s.rc b
    if !copyChecks s t (some h) true || (checkCap l l.addr (8 * count.toNat) 1 { l := true }).isSome || !c.tag || !c.permL ||
        decide ((s.handle s.me h.toNat).image < count.toNat * eb.toNat) then none
    else some ({ mkCopy s t .cpyg h.toNat with
      list := l.addr, count := count.toNat, eb := eb.toNat, capLo := c.base, capHi := c.top, lo := c.addr }, s)
  | .cpym t h a count =>
    let c := s.rc a
    if !copyChecks s t (some h) false || (checkCap c c.addr (4 * count.toNat) 1 { l := true }).isSome then none
    else match readOwn s c.addr (4 * count.toNat) with
      | (.ok x _, u) =>
        if destsBad x count.toNat then none
        else some ({ mkCopy u t .cpym h.toNat with chunks := pieces (s.handle s.me h.toNat).image, dests := destsOf x count.toNat }, u)
      | _ => none
  | .cshd t h a b =>
    let c := s.rc a
    let n := (s.rd b).toNat
    if !copyChecks s t (some h) false || c.addr % 65536 != 0 || !devHalf c.addr || decide ((s.handle s.me h.toNat).image < n) ||
        (checkRange c c.addr (c.addr + n) { s := true }).isSome then none
    else some ({ mkCopy s t .cshd h.toNat with chunks := chunksOf [{ va := c.addr, off := 0, len := n }], lo := c.addr, hi := c.addr + n }, s)
  | .cpub t a =>
    let c := s.rc a
    if !copyChecks s t none false || c.addr % 65536 != 0 || (checkRange c c.addr c.top { s := true }).isSome then none
    else some ({ mkCopy s t .cpub 0 with chunks := [[]], lo := c.addr, hi := c.top }, s)
  | .cred t op h a b =>
    let c := s.rc a
    let g := s.handle s.me h.toNat
    let e := (s.rd b).toNat
    match credKind g.tag with
    | none => none
    | some (n, _, _) =>
      if !copyChecks s t (some h) false || c.addr % n != 0 || decide (g.image < e * n) ||
          (checkRange c c.addr (c.addr + e * n) { l := true, s := true }).isSome then none
      else some ({ mkCopy s t .cred h.toNat with chunks := chunksOf [{ va := c.addr, off := 0, len := e * n }], op := op, eb := n }, s)
  | _ => none

/-- The command as its core hands it in: its view is the read stamp (R175), its place in the order of acceptance, and the bytes that
its handle holds then, where it reads them (R158). -/
def CopyCmd.handedIn (c : CopyCmd) (s : State) : CopyCmd :=
  { c with readStamp := s.my.view, seg := s.my.seg, order := s.seq, src := if c.kind.fromHandle then (s.handle s.me c.h).bytes else [] }

/-- The entry of the scoreboard that a copy takes over its handle (R157). -/
def CopyCmd.boardEntry (c : CopyCmd) (s : State) : Entry :=
  let rs := c.chunks.flatten
  let r : Nat × Nat := if c.kind = .cpyg then (0, c.count * c.eb)
    else (((rs.map (·.off)).min?).getD 0, rs.foldl (fun m r => max m (r.off + r.len)) 0)
  { ctx := s.me, h := c.h, lo := r.1, hi := r.2, writes := c.kind.intoHandle, kind := 0 }

/-- The command joins its queue. -/
def State.queued (s : State) (c : CopyCmd) : State := (s.modQueue s.me c.q fun q => { q with cmds := q.cmds ++ [c] }).bump

/-! Matrix commands (R300 to R304). -/

/-- The command a matrix instruction's fields and registers describe: its tags, accumulator and kind. -/
def matForm (i : Instr) (s : State) : Option (MTags × Option (BitVec 2) × MatKind) :=
  match i with
  | .mma x => some (x.tags, some x.acc, .mma (s.mOperand x.a x.ra) (s.mOperand x.b x.rb) (16 * x.k16.toNat) x.za)
  | .mmas x y => some (x.tags, some x.acc, .mmas (s.mOperand x.a x.ra) (s.mOperand x.b x.rb) (s.mOperand y.sa none) (s.mOperand y.sb none)
      (16 * x.k16.toNat) x.za (tensorScale s y.ta) (tensorScale s y.tb) (BlockSize.count y.bs))
  | .mlda t acc h => some (t, some acc, .mlda h.toNat)
  | .msta t h acc => some (t, some acc, .msta h.toNat)
  | .mzero t acc => some (t, some acc, .mzero)
  | .mtrn t d h => some (t, none, .mtrn d.toNat h.toNat)
  | .mcvt t rm sat h acc => some (t, some acc, .mcvt h.toNat rm sat (s.fmtOf (s.handle s.me h.toNat).tag))
  | _ => none

/-- The checks of R300 pass: semaphore and event assigned, every local handle there, its tag and shape fit, none written while
exported. -/
def matChecks (s : State) (t : MTags) (k : MatKind) : Bool :=
  (!t.semV || s.semOk t.sem.toNat) && (!t.evV || s.evOk t.ev.toNat) &&
    (k.uses.all fun u => decide (u.h % 32 < s.declaredHandles) && (s.handle s.me (u.h % 32)).st != 0) && tagsOk s k &&
    (shapeFail s k).isNone && k.uses.all fun u => !(u.write && (s.handle s.me u.h).st == 2)

/-- The command as it enters its table, with the bytes its operands hold then (R158). -/
def matCmd (s : State) (t : MTags) (acc : Option (BitVec 2)) (k : MatKind) (ids : List (Nat × Nat)) : MatCmd :=
  { id := t.id.toNat, p0 := t.p0.toNat, p1 := t.p1.toNat, acc := acc.map (·.toNat), kind := k.freeze s s.me, src := k.source s s.me
    sem := if t.semV then some t.sem.toNat else none
    ev := if t.evV then some t.ev.toNat else none, entries := ids, seg := s.my.seg }

/-! Messages (R336, R337, R351). -/

/-- The target of a message, and whether it may be the host, 0xFFFFFF (R335, R337). -/
def msgTarget (i : Instr) (s : State) : Option (Nat × Bool) :=
  let tile (a : Reg) : Nat := (s.rd a).toNat % 2 ^ 24
  match i with
  | .send _ a _ _ _ => some (tile a, true)
  | .sendh _ a _ _ _ _ | .spawn a _ _ _ => some (tile a, false)
  | .bararr _ a => if a = 0#5 then none else some (tile a, false)
  | _ => none

/-- The message that SEND, SENDH, SPAWN or a remote BARARR holds where its checks pass, and whether it carries .REL. -/
def msgForm (i : Instr) (s : State) : Option (Msg × Bool) :=
  let tile (a : Reg) : Nat := (s.rd a).toNat % 2 ^ 24
  let inGrid (t : Nat) : Bool := t != 0xFFFFFF && decide (t < s.gridSize s.myRegion)
  let msg (t : Nat) (hdl : Byte) (k : MsgKind) (rs : List Reg) : Msg :=
    { region := s.myRegion, target := t, hdl := hdl, kind := k, source := s.myKey, sender := ctxVt s.me, payload := rs.map s.rc }
  match i with
  | .send rel a b hdl n =>
    if tile a = 0xFFFFFF then some ({ msg (tile a) hdl .send (regRange b n.toNat) with region := s.rootOf s.myRegion, toHost := true }, rel)
    else if inGrid (tile a) then some (msg (tile a) hdl .send (regRange b n.toNat), rel) else none
  | .sendh rel a b hdl n h =>
    if inGrid (tile a) && (checkHandle s h.toNat true).isNone then some (msg (tile a) hdl (.sendh h.toNat) (regRange b n.toNat), rel) else none
  | .spawn a b hdl n => if inGrid (tile a) then some (msg (tile a) hdl (.spawn b.toNat) (regRange b n.toNat), false) else none
  | .bararr n a => if a ≠ 0#5 ∧ inGrid (tile a) then some (msg (tile a) 0#8 (.arrive n.toNat) [], false) else none
  | _ => none

end Sys2Proof.Machine
end

