-- ==== Sys2Proof/Safety/Vector.lean ====
section
/-! DEFINITION. What claims say of vector instructions: what each asks of tags, the elements it writes and how (R259 to R279),
when its unit runs it, and what it leaves as it was. -/

namespace Sys2Proof.Machine

open Sys2Proof

/-- What a vector instruction does: whether its tags pass, its mask, the registers it writes (a pair for VUNPK) and their tag, the
width and number of its elements, whether enabled elements draw from the generator, element i from its draw with the flags it
raises, the c register it writes, and its weighted MACs (R260, R405). -/
structure VForm where
  ok : Bool := false
  mask : Option Mask := none
  regs : List Reg := []
  tag : Byte := 0#8
  w : Nat := 1024
  n : Nat := 0
  draws : Bool := false
  el : Nat → Nat → Nat × Flags := fun _ _ => (0, 0#6)
  creg : Option (Reg × W64) := none
  macs : Nat := 0

/-- Majors 0x20: two operands or three, and one (R265, R266). -/
def vbinForm (op : VBin) (m : Option Mask) (d a b : Reg) (s : State) : VForm :=
  let t := (s.vr a).tag
  let fused := op == .fma || op == .fms
  match s.kind t with
  | some k =>
    { ok := s.maskOk m && t == (s.vr b).tag && (!fused || (s.vr d).tag == t) && arithTag k (op == .div) && s.keepOk m d t
      mask := m, regs := [d], tag := t, w := k.width, n := k.count, draws := s.stepsSR k op.draws
      el := fun i r => vbinElem op k s.vrm (elemOf (s.vbits a) k.width i) (elemOf (s.vbits b) k.width i) (elemOf (s.vbits d) k.width i) r
      macs := macWeight k fused * s.enabledCount m k.count }
  | none => {}

def vunForm (op : VUn) (m : Option Mask) (d a : Reg) (s : State) : VForm :=
  let t := (s.vr a).tag
  match s.kind t with
  | some k =>
    { ok := s.maskOk m && arithTag k (op != .abs && op != .neg) && s.keepOk m d t
      mask := m, regs := [d], tag := t, w := k.width, n := k.count, draws := s.stepsSR k op.draws
      el := fun i r => vunElem op k s.vrm (elemOf (s.vbits a) k.width i) r
      macs := macWeight k false * s.enabledCount m k.count }
  | none => {}

/-- Element i computed without flag or draw, in the format of v(VA). -/
def vplain (m : Option Mask) (d : Reg) (t : Byte) (k : Kind) (ok : Bool) (f : Nat → Nat) (s : State) : VForm :=
  { ok := s.maskOk m && ok && s.keepOk m d t, mask := m, regs := [d], tag := t, w := k.width, n := k.count, el := fun i _ => (f i, 0#6) }

/-- Majors 0x21: logic on any one tag, shifts on integers of one width (R268). -/
def vlogForm (op : VLog) (m : Option Mask) (d a b : Reg) (s : State) : VForm :=
  let t := (s.vr a).tag
  match s.kind t, s.kind (s.vr b).tag with
  | some k, some j =>
    vplain m d t k (if op.shift then k.isInt && j.isInt && k.width == j.width else t == (s.vr b).tag && (m.isNone || k.typed))
      (fun i => vlogElem op k.bits (k.elem (s.vbits a) i) (k.elem (s.vbits b) i)) s
  | _, _ => {}

def vlog1Form (op : VLog1) (m : Option Mask) (d a : Reg) (s : State) : VForm :=
  let t := (s.vr a).tag
  match s.kind t with
  | some k => vplain m d t k (if op == .not then m.isNone || k.typed else k.isInt) (fun i => vlog1Elem op k.bits (k.elem (s.vbits a) i)) s
  | none => {}

/-- A result that is a mask: n bits (R269, R271). -/
def vmaskForm (m : Option Mask) (d : Reg) (ok : Bool) (n : Nat) (f : Nat → Nat) (s : State) : VForm :=
  { ok := s.maskOk m && ok && s.keepOk m d 0x40#8, mask := m, regs := [d], tag := 0x40#8, w := 1, n := n, el := fun i _ => (f i, 0#6) }

def vcmpForm (op : VCmp) (m : Option Mask) (d a b : Reg) (s : State) : VForm :=
  let t := (s.vr a).tag
  match s.kind t with
  | some k => vmaskForm m d (t == (s.vr b).tag && k.sums) k.count
      (fun i => bit01 (vcmpHolds op k (elemOf (s.vbits a) k.width i) (elemOf (s.vbits b) k.width i))) s
  | none => {}

/-- A permute of v(VA) by v(VB); none picks zero (R273). -/
def vpermForm (m : Option Mask) (d a b : Reg) (bytes : Bool) (pick : Kind → Kind → Nat → Option Nat) (s : State) : VForm :=
  let t := (s.vr a).tag
  match s.kind t, s.kind (s.vr b).tag with
  | some k, some j =>
    vplain m d t k (k.typed && j.isInt && (!bytes || (decide (8 ≤ k.width) && k.width == j.width)))
      (fun i => (pick k j i).elim 0 fun x => k.elem (s.vbits a) x) s
  | _, _ => {}

/-- One result in element 0, of the terms v(VB)[0] and the enabled elements of v(VA) (R274). -/
def vredForm (op : VRed) (mr : Option (BitVec 2)) (d a b : Reg) (s : State) : VForm :=
  let t := (s.vr a).tag
  let m := srcMask mr
  match s.kind t with
  | some k =>
    { ok := s.maskOk m && t == (s.vr b).tag && k.sums, regs := [d], tag := t, w := k.width, n := 1, draws := s.stepsSR k (op == .add)
      el := fun _ r => redElem op k s.vrm r (elemOf (s.vbits b) k.width 0 :: liveElems s m k a k.count)
      macs := macWeight k false * s.enabledCount m k.count }
  | none => {}

/-- A whole register written with x and a tag. -/
def vwhole (ok : Bool) (d : Reg) (x : Nat) (tag : Byte) : VForm :=
  { ok := ok, regs := [d], tag := tag, w := 1024, n := 1, el := fun _ _ => (x, 0#6) }

/-- Conversions (R276): element i of the source is src i, of kind j. -/
def vconvForm (tag : Byte) (rm : Vrm) (sat : Bool) (m : Option Mask) (regs : List Reg) (ok : Bool) (j k : Kind) (n : Nat)
    (src : Nat → Nat) (s : State) : VForm :=
  { ok := s.maskOk m && ok && regs.all fun d => s.keepOk m d tag
    mask := m, regs := regs, tag := tag, w := k.width, n := n, draws := rm == .sr
    el := fun i r => convElem tag j k rm sat r (src i) }

/-- Every vector instruction of majors 0x20 to 0x24 at a state (R265 to R279). -/
def vecForm (i : Instr) (s : State) : Option VForm :=
  let kinds (a b : Byte) (f : Kind → Kind → VForm) : VForm := match s.kind a, s.kind b with
    | some j, some k => f j k
    | _, _ => {}
  match i with
  | .vadd m d a b => some (vbinForm .add m d a b s)
  | .vsub m d a b => some (vbinForm .sub m d a b s)
  | .vmul m d a b => some (vbinForm .mul m d a b s)
  | .vfma m d a b => some (vbinForm .fma m d a b s)
  | .vfms m d a b => some (vbinForm .fms m d a b s)
  | .vmin m d a b => some (vbinForm .min m d a b s)
  | .vmax m d a b => some (vbinForm .max m d a b s)
  | .vdiv m d a b => some (vbinForm .div m d a b s)
  | .vsqrt m d a => some (vunForm .sqrt m d a s)
  | .vrcp m d a => some (vunForm .rcp m d a s)
  | .vrsq m d a => some (vunForm .rsq m d a s)
  | .vexp2 m d a => some (vunForm .exp2 m d a s)
  | .vlog2 m d a => some (vunForm .log2 m d a s)
  | .vabs m d a => some (vunForm .abs m d a s)
  | .vneg m d a => some (vunForm .neg m d a s)
  | .vand m d a b => some (vlogForm .and m d a b s)
  | .vor m d a b => some (vlogForm .or m d a b s)
  | .vxor m d a b => some (vlogForm .xor m d a b s)
  | .vshl m d a b => some (vlogForm .shl m d a b s)
  | .vshr m d a b => some (vlogForm .shr m d a b s)
  | .vsar m d a b => some (vlogForm .sar m d a b s)
  | .vnot m d a => some (vlog1Form .not m d a s)
  | .vpopc m d a => some (vlog1Form .popc m d a s)
  | .vclz m d a => some (vlog1Form .clz m d a s)
  | .vcmpeq m d a b => some (vcmpForm .eq m d a b s)
  | .vcmpne m d a b => some (vcmpForm .ne m d a b s)
  | .vcmplt m d a b => some (vcmpForm .lt m d a b s)
  | .vcmple m d a b => some (vcmpForm .le m d a b s)
  | .vcmpun m d a b => some (vcmpForm .un m d a b s)
  | .vsel mr d a b =>
    let sel : Mask := { agnostic := false, reg := mr }
    some (match s.kind (s.vr a).tag with
      | some k => { vplain none d (s.vr a).tag k (s.maskOk (some sel) && (s.vr a).tag == (s.vr b).tag && k.typed)
          (fun i => if s.enabled (some sel) i then k.elem (s.vbits a) i else k.elem (s.vbits b) i) s with mask := none }
      | none => {})
  | .vmerge m d a b =>
    some (match s.kind (s.vr a).tag with
      | some k => vplain m d (s.vr a).tag k (k.typed && (s.vr b).tag == 0x40#8 && (s.vr d).tag == (s.vr a).tag)
          (fun i => if s.vbits b / 2 ^ i % 2 = 1 then k.elem (s.vbits a) i else k.elem (s.vbits d) i) s
      | none => {})
  | .vpopm mr d a => some (vwhole (maskSource s mr a) d (onesOf (countedBits s mr a) 1024) 0x17#8)
  | .vfirst mr d a => some (vwhole (maskSource s mr a) d ((firstBit (countedBits s mr a) 1024).getD (2 ^ 64 - 1)) 0x16#8)
  | .viota m d a k =>
    let t := iotaTag k
    some { ok := s.maskOk m && (s.vr a).tag == 0x40#8 && s.keepOk m d t, mask := m, regs := [d], tag := t, w := 8 * 2 ^ k.toNat
           n := 1024 / (8 * 2 ^ k.toNat), el := fun i _ => (onesOf (s.vbits a) i, 0#6) }
  | .vmaskand m d a b =>
    some (vmaskForm m d ((s.vr a).tag == 0x40#8 && (s.vr b).tag == 0x40#8) 1024 (fun i => bit01 (s.vbits a / 2 ^ i % 2 = 1 && s.vbits b / 2 ^ i % 2 = 1)) s)
  | .vmaskor m d a b =>
    some (vmaskForm m d ((s.vr a).tag == 0x40#8 && (s.vr b).tag == 0x40#8) 1024 (fun i => bit01 (s.vbits a / 2 ^ i % 2 = 1 || s.vbits b / 2 ^ i % 2 = 1)) s)
  | .vmasknot m d a => some (vmaskForm m d ((s.vr a).tag == 0x40#8) 1024 (fun i => 1 - s.vbits a / 2 ^ i % 2) s)
  | .vshuf m d a b => some (vpermForm m d a b true (fun k j i => some (elemOf (s.vbits b) j.width i % k.count)) s)
  | .vrot m d a b => some (vpermForm m d a b false (fun k j i => some (((i : Int) + amount s j b) % (k.count : Int)).toNat) s)
  | .vslide m d a b =>
    some (vpermForm m d a b false (fun k j i => let x : Int := i - amount s j b; if 0 ≤ x ∧ x < k.count then some x.toNat else none) s)
  | .vbcast m d a =>
    some (match s.kind (s.vr d).tag with
      | some k => { vplain m d (s.vr d).tag k k.typed (fun _ => (s.rd a).toNat % 2 ^ k.bits) s with ok := s.maskOk m && k.typed }
      | none => {})
  | .vext d a b =>
    some (match s.kind (s.vr a).tag with
      | some k => { ok := k.typed, creg := some (d, BitVec.ofInt 64 (decodeInt k.width k.signedInt (k.elem (s.vbits a) ((s.rd b).toNat % k.count)))) }
      | none => {})
  | .vins d a b =>
    some (match s.kind (s.vr d).tag with
      | some k => { ok := k.typed, regs := [d], tag := (s.vr d).tag, w := k.width, n := k.count
                    el := fun i _ => (if i = (s.rd b).toNat % k.count then (s.rd a).toNat % 2 ^ k.bits else elemOf (s.vbits d) k.width i, 0#6) }
      | none => {})
  | .vredadd mr d a b => some (vredForm .add mr d a b s)
  | .vredmin mr d a b => some (vredForm .min mr d a b s)
  | .vredmax mr d a b => some (vredForm .max mr d a b s)
  | .vscan m d a =>
    some (match s.kind (s.vr a).tag with
      | some k => { ok := s.maskOk m && k.sums && s.keepOk m d (s.vr a).tag, mask := m, regs := [d], tag := (s.vr a).tag, w := k.width
                    n := k.count, draws := s.stepsSR k true, el := fun i r => redElem .add k s.vrm r (liveElems s m k a (i + 1))
                    macs := macWeight k false * s.enabledCount m k.count }
      | none => {})
  | .vmov none d a => some (vwhole ((s.kind (s.vr a).tag).isSome) d (s.vbits a) (s.vr a).tag)
  | .vmov (some m) d a =>
    some (match s.kind (s.vr a).tag with
      | some k => vplain (some m) d (s.vr a).tag k k.typed (fun i => k.elem (s.vbits a) i) s
      | none => {})
  | .vcvt tag rm sat m d a =>
    some (kinds (s.vr a).tag tag fun j k =>
      vconvForm tag rm sat m [d] j.typed j k (1024 / max j.width k.width) (fun i => elemOf (s.vbits a) j.width i) s)
  | .vpack tag rm sat m d a b =>
    some (kinds (s.vr a).tag tag fun j k =>
      vconvForm tag rm sat m [d] ((s.vr a).tag == (s.vr b).tag && j.typed && j.width == 2 * k.width) j k k.count
        (fun i => if i < j.count then elemOf (s.vbits a) j.width i else elemOf (s.vbits b) j.width (i - j.count)) s)
  | .vunpk tag rm sat m d a =>
    some (kinds (s.vr a).tag tag fun j k =>
      vconvForm tag rm sat m [d, d + 1#5] (j.typed && k.width == 2 * j.width) j k j.count (fun i => elemOf (s.vbits a) j.width i) s)
  | .vsat tag m d a =>
    some (kinds (s.vr a).tag tag fun k g =>
      { ok := s.maskOk m && k.sums && s.keepOk m d (s.vr a).tag, mask := m, regs := [d], tag := (s.vr a).tag, w := k.width, n := k.count
        el := fun i _ => vsatElem k g (elemOf (s.vbits a) k.width i) })
  | .vtag tag d a => some (vwhole (s.kind tag).isSome d (s.vbits a) tag)
  | .vtagq d a => some { ok := true, creg := some (d, (s.vr a).tag.zeroExtend 64) }
  | .vdot m d a b =>
    some (kinds (s.vr a).tag (s.vr b).tag fun j k =>
      { ok := s.maskOk m && vdotOk s d a b, mask := m, regs := [d], tag := (s.vr d).tag, w := 32, n := 32
        el := fun i _ => (vdotElem j k (s.vbits a) (s.vbits b) (s.vbits d) i, 0#6)
        macs := s.enabledCount m 32 * (32 / j.width) * dotWeight j k })
  | _ => none

/-- Steps of a generator whose halves are lo and hi (R252). -/
def drawn (lo hi : W64) : Nat → W64 × W64
  | 0 => (lo, hi)
  | n + 1 => let g := drawn lo hi n; ((nextSR g.1 g.2).1, (nextSR g.1 g.2).2.1)

/-- The draw of the element that n enabled elements come before: the high half of the generator's next word (R252). -/
def drawOf (lo hi : W64) (n : Nat) : Nat := let g := drawn lo hi n; (nextSR g.1 g.2).2.2.toNat / 2 ^ 32

/-- Element i as it is written: its result where it is enabled; else all ones, or the old element (R260). -/
def VForm.written (f : VForm) (s : State) (i : Nat) : Nat :=
  let per := 1024 / f.w
  if i < f.n then
    if s.enabled f.mask i then (f.el i (if f.draws then drawOf s.my.seedLo s.my.seedHi (s.enabledCount f.mask i) else 0)).1 % 2 ^ f.w
    else if agnosticOf f.mask then 2 ^ f.w - 1 else elemOf (s.vbits (f.regs.getD (i / per) 0#5)) f.w (i % per)
  else 0

/-- Register j of those written. -/
def VForm.bitsOf (f : VForm) (s : State) (j : Nat) : BitVec 1024 :=
  let per := 1024 / f.w
  BitVec.ofNat 1024 ((List.range per).map fun e => f.written s (j * per + e) * 2 ^ (f.w * e)).sum

/-- The flags that the enabled elements raise. -/
def VForm.raised (f : VForm) (s : State) : Flags :=
  (List.range f.n).foldl (fun g i =>
    if s.enabled f.mask i then g ||| (f.el i (if f.draws then drawOf s.my.seedLo s.my.seedHi (s.enabledCount f.mask i) else 0)).2 else g) 0#6

/-- The unit runs the instruction at once: asleep, it wakes without a reservation; else it holds its grant, or its cluster has room
(R419, R421). -/
def State.vecReady (s : State) : Bool :=
  let t := s.tile s.focus.site
  let c := s.cluster (clusterOf s.focus.site)
  if t.vecAsleep then !c.vec else t.vecGrant || c.grants 2

/-- A vector instruction of form f that started at s has ended at t: its registers, tags, flags and generator, its c register and
its metering; and nothing else but the unit's own state and what metering and a returned reservation bring about. -/
structure VecDone (f : VForm) (s t : State) (len : Nat) : Prop where
  pc : t.pcNow = (s.pcNow + len) % 2 ^ 64
  written : ∀ j r, f.regs[j]? = some r → t.vr r = { bits := f.bitsOf s j, tag := f.tag }
  kept : ∀ r, r ∉ f.regs → t.vr r = s.vr r
  flags : (t.ctx s.me).flags = (s.ctx s.me).flags ||| f.raised s
  seeds : (t.my.seedLo, t.my.seedHi) =
    drawn s.my.seedLo s.my.seedHi (if f.draws then s.enabledCount f.mask f.n else 0)
  cregs : ∀ r, t.rc r = if (f.creg.any fun x => x.1 == r) ∧ r ≠ 0#5 then dataReg ((f.creg.map (·.2)).getD 0#64) else s.rc r
  metered : t.parts = (s.chargeOps s.me s.my.seg f.macs).parts
  mine : t.my = { s.my with c := t.my.c, pc := t.my.pc, sig := t.my.sig, prog := {}, seedLo := t.my.seedLo, seedHi := t.my.seedHi }
  others : ∀ k, k ≠ s.myKey → t.core k = s.core k
  ctxs : ∀ x, t.ctx x = if x = s.me then { s.ctx x with v := (t.ctx x).v, flags := (t.ctx x).flags } else s.ctx x
  tiles : ∀ i, t.tile i = { s.tile i with
    vecAsleep := (t.tile i).vecAsleep, vecLast := (t.tile i).vecLast, vecGrant := (t.tile i).vecGrant, vbanks := (t.tile i).vbanks }
  clusters : (s.tile s.focus.site).vecGrant = false → t.clusters = s.clusters
  rest : t = { s with
    cores := t.cores, ctxs := t.ctxs, tiles := t.tiles, clusters := t.clusters, regions := t.regions, parts := t.parts
    flight := t.flight, agenda := t.agenda, seq := t.seq }

end Sys2Proof.Machine
end

