-- ==== Sys2Proof/Certificates/Slice0/Obligations.lean ====
section
/-! DEFINITION. The statements for the provers: what the instructions and the events of the device do, what they leave
unchanged, and where they trap, wait or are refused. -/

open Sys2Proof Sys2Proof.Machine

/-- R220, R221, R223 (and CMP of R222): every integer instruction ends with the result of its table in c(D) as data; writes of c0 are
discarded; nothing else changes but the pc, which passes the instruction. -/
def Obligations.IntegerResults : Prop :=
  ∀ (i : Instr) (s s' : State) (d : Reg) (n : Nat), intResult i s = some (d, n) → Starts i s s' false →
    ∃ t, exec i s = .next t ∧ EndsWith s t (s.pcNow + (decl i).len) d (dataReg (BitVec.ofNat 64 n))

/-- R224 to R228: every float instruction of the scalar core ends with the result of its table in c(D) as data: the exact result,
rounded once in the mode of its words, or the quiet NaN, the comparison or the sign change that its table gives; nothing else
changes but the pc. -/
def Obligations.FloatResults : Prop :=
  ∀ (i : Instr) (s s' : State) (d : Reg) (x : W64), floatResult i s = some (d, x) → Starts i s s' false →
    ∃ t, exec i s = .next t ∧ EndsWith s t (s.pcNow + (decl i).len) d (dataReg x)

/-- R222 (MOV), R230 to R232: every derivation, query and test of a capability ends with the result of its table in c(D), a capability
or data as its rule says; none of them traps and nothing else changes but the pc. -/
def Obligations.CapabilityResults : Prop :=
  ∀ (i : Instr) (s s' : State) (d : Reg) (v : CReg), capResult i s = some (d, v) → Starts i s s' false →
    ∃ t, exec i s = .next t ∧ EndsWith s t (s.pcNow + (decl i).len) d v

/-- R233, R234, R236, R237: a branch, B, CALL or LOOP goes to its own address plus four times its signed offset where its condition
holds, and to the next instruction where it does not; CALL writes the return address to c31 and LOOP its count less one; nothing
else changes. -/
def Obligations.BranchesGoWhereTheySay : Prop :=
  ∀ (i : Instr) (s s' : State) (taken : Bool) (off : Int) (d : Reg) (x : W64), branchResult i s = some (taken, off, d, x) →
    Starts i s s' taken →
    ∃ t, exec i s = .next t ∧
      EndsWith s t (if taken then (((s.pcNow : Int) + 4 * off) % 2 ^ 64).toNat else s.pcNow + 4) d (dataReg x)

/-- R235: RET, JR and CALLR go to the address in their register, CALLR with the return address in c31. R24, R235: an address of 2^56
or more traps CAP_BOUNDS precisely, before anything is written. -/
def Obligations.JumpsGoToTheirRegister : Prop :=
  (∀ (i : Instr) (s s' : State) (r : Reg) (link : Bool), jumpResult i = some (r, link) → Starts i s s' true →
     (s.rd r).toNat < 2 ^ 56 →
     ∃ t, exec i s = .next t ∧
       EndsWith s t (s.rd r).toNat (if link then 31#5 else 0#5) (dataReg (BitVec.ofNat 64 (s.pcNow + 4)))) ∧
  (∀ (i : Instr) (s s' : State) (r : Reg) (link : Bool), jumpResult i = some (r, link) → Starts i s s' false →
     s.monitor = false → s.pendingReqs = false → 2 ^ 56 ≤ (s.rd r).toNat →
     ∃ t, exec i s = .next t ∧ Trapped s' t Cause.capBounds.code ((s.rd r).toNat % 2 ^ 56) 0 false)

/-- A step at a core's turn is exec of the instruction that the words at its pc decode to (R24, R382; log entries 1, 13): in monitor
mode from the tile's store; in an activation from what fetchAct reads, the words being kept as the instruction's progress; and
from the kept words where an instruction under way goes on. -/
def Obligations.StepRunsTheDecodedInstruction : Prop :=
  ∀ (s s1 : State) (c : CoreId) (rest : List Turn) (w : W32) (ws : List W32) (i : Instr),
    s.agenda = .core c :: rest → (s.cluster (clusterOf c.site)).viral = false → decodeWords (w :: ws) = .ok i →
    let s0 : State := { s with agenda := rest, focus := c }
    (s0.monitor = true → fetchMon s0 = .words (w :: ws) → step s = exec i s0) ∧
    (∀ x, s0.monitor = false → s0.running c.site = some x → s0.beforeFetch c x = none → s0.my.prog.words = [] →
      fetchAct s0 = (.words (w :: ws), s1) →
      step s = exec i (s1.modMy fun k => { k with prog := { k.prog with words := w :: ws } })) ∧
    (∀ x, s0.monitor = false → s0.running c.site = some x → s0.beforeFetch c x = none → s0.my.prog.words = w :: ws →
      step s = exec i s0)

/-- The head of the agenda is what a step does: an event runs whole; the tick, or an empty agenda, moves time on; a core before whose
fetch a step of its own is due takes that step (log entry 1). R24 and R382, what fetch checks: in an activation every word lies at
a 4-byte boundary, inside the code capability, which has X, in the device half; in monitor mode the words are those of the tile's
store, little-endian. -/
def Obligations.StepFollowsTheAgenda : Prop :=
  (∀ (s : State) (rest : List Turn),
     (∀ e, s.agenda = .event e :: rest → step s = exec e { s with agenda := rest }) ∧
     (s.agenda = .tick :: rest → step s = .next ({ s with agenda := rest } : State).advance) ∧
     (s.agenda = [] → step s = .next s.advance) ∧
     (∀ (c : CoreId) (x : Nat) (e : Option Instr), s.agenda = .core c :: rest →
       let s0 : State := { s with agenda := rest, focus := c }
       (s.cluster (clusterOf c.site)).viral = false → s0.monitor = false → s0.running c.site = some x → s0.beforeFetch c x = some e →
       step s = match e with
         | some i => exec i s0
         | none => .next s0) ∧
     (∀ c, s.agenda = .core c :: rest → (s.cluster (clusterOf c.site)).viral = true →
       step s = .next { s with agenda := rest, focus := c })) ∧
  ((∀ (s t : State) (ws : List W32), fetchAct s = (.words ws, t) →
     s.my.pc % 4 = 0 ∧ s.codeCap.base ≤ s.my.pc ∧ s.my.pc + 4 * ws.length ≤ s.codeCap.top ∧ s.codeCap.permX = true ∧
       devHalf s.my.pc = true ∧ ∃ w0 rest, ws = w0 :: rest ∧ ws.length = lenOf w0) ∧
   (∀ (s t : State) (c : Cause) (va : Nat) (w : Option W32), fetchAct s = (.trap c va w, t) → va = s.my.pc ∧
     (c = .misaligned ∧ s.my.pc % 4 ≠ 0 ∨ c = .capBounds ∧ s.my.pc % 4 = 0 ∨ c = .capPerm ∧ s.my.pc % 4 = 0)) ∧
   (∀ (s : State) (ws : List W32), fetchMon s = .words ws →
     let pc := (s.mcore s.focus).pc
     let byte (a : Nat) : Nat := (tget 0#8 (s.tile s.focus.site).store a).toNat
     pc % 4 = 0 ∧ pc + 4 * ws.length ≤ 65536 ∧
       ∀ j, j < ws.length → (ws.getD j 0#32).toNat =
         byte (pc + 4 * j) + 256 * byte (pc + 4 * j + 1) + 65536 * byte (pc + 4 * j + 2) + 16777216 * byte (pc + 4 * j + 3)))

/-- Words written out from the spec's encodings (the tables of R219, R223, R224, R229, R233 to R236, R39 and the families' own) decode
to the instructions they stand for. -/
def Obligations.SpecWordsDecode : Prop :=
  decodeWords [0x00148304#32] = .ok (.add 3#5 4#5 5#5) ∧
  decodeWords [0x00008306#32, 0#32, 1#32] = .ok (.addLiteral 3#5 4#5 0x100000000#64) ∧
  decodeWords [0x4C20E604#32] = .ok (.cmp .ltS 6#5 7#5 8#5) ∧
  decodeWords [0xFFE04208#32] = .ok (.addi 2#5 2#5 0x7FF#11) ∧
  decodeWords [0xC014830C#32] = .ok (.fadd false .rup 3#5 4#5 5#5) ∧
  decodeWords [0x039C2A10#32] = .ok (.ctest 10#5 1#5 7#5) ∧
  decodeWords [0xFEA40114#32] = .ok (.bne .t 0x1FD#9 1#5 0#5) ∧
  decodeWords [0xFFFFF018#32] = .ok (.b false 0x3FFFFC#22) ∧
  decodeWords [0xFEA00524#32] = .ok (.loop .t 0x1FD#9 5#5) ∧
  decodeWords [0x51A92880#32] = .ok (.vfma (some ⟨false, 1#2⟩) 8#5 9#5 10#5) ∧
  decodeWords [0x000C41B1#32, 0x00FC4144#32, 0#32] =
    .ok (.mma ⟨⟨5#6, 4#6, 63#6, 0#4, false, 0#4, false⟩, 1#2, 2#5, 3#5, none, none, 4#6, false⟩)

/-- Decoding the words of a well-formed instruction gives it back, whatever follows them: no bit of an encoding is dropped (R23 to
R38). -/
def Obligations.DecodeOfEncode : Prop :=
  ∀ (i : Instr) (rest : List W32), (toFields i).isSome = true → i.wf = true → decodeWords (encode i ++ rest) = .ok i

/-- Only well-formed instructions decode, and none of them is an event of the device: a field value outside its table is refused (R26,
R39). -/
def Obligations.DecodedInstructionsAreWellFormed : Prop :=
  ∀ (ws : List W32) (i : Instr), decodeWords ws = .ok i → i.wf = true ∧ (toFields i).isSome = true

/-- R39: words that no instruction has trap ILLEGAL_INSTRUCTION in an activation, the pc at word 0 and nothing else changed, and are
fatal to the cluster in monitor mode. R39, R382: an instruction for the monitor alone traps PRIVILEGE in an activation; one for
the compute core alone traps ILLEGAL_INSTRUCTION on the stage core, and so does a load by elements whose tag has another width
than its elements (R127), before its registers are compared; one that may not run in the monitor makes its cluster viral there;
and a vector register at or above the declared count traps REG_RANGE with its index. -/
def Obligations.DecodeChecksTrapInTheirOrder : Prop :=
  (∀ (s s1 : State) (c : CoreId) (rest : List Turn) (ws : List W32) (e : DecodeError),
     s.agenda = .core c :: rest → (s.cluster (clusterOf c.site)).viral = false → decodeWords ws = .error e →
     let s0 : State := { s with agenda := rest, focus := c }
     (s0.monitor = true → fetchMon s0 = .words ws → step s = .next (s0.clusterViral (clusterOf c.site))) ∧
     (∀ x, s0.monitor = false → s0.running c.site = some x → s0.beforeFetch c x = none → s0.my.prog.words = [] →
       fetchAct s0 = (.words ws, s1) → s1.focus = c → s1.monitor = false → s1.pendingReqs = false →
       let u := s1.modMy fun k => { k with prog := { k.prog with words := ws } }
       ∃ t, step s = .next t ∧ Trapped u t Cause.illegal.code 0 0 false)) ∧
  (∀ (i : Instr) (s : State), (toFields i).isSome = true →
     (s.monitor = true → (decl i).mon = false → (decl i).monOnly = false →
       exec i s = .next (s.clusterViral (clusterOf s.focus.site))) ∧
     (s.monitor = false → s.my.act.isSome = true → s.pendingReqs = false →
       ((decl i).computeOnly = true → s.focus.compute = false →
         ∃ t, exec i s = .next t ∧ Trapped s t Cause.illegal.code 0 0 false) ∧
       ((s.declared i).illegal = true → ∃ t, exec i s = .next t ∧ Trapped s t Cause.illegal.code 0 0 false) ∧
       ((decl i).monOnly = true → ((decl i).computeOnly = true → s.focus.compute = true) →
         ∃ t, exec i s = .next t ∧ Trapped s t Cause.privilege.code 0 0 false) ∧
       (∀ r, (decl i).monOnly = false → ((decl i).computeOnly = true → s.focus.compute = true) → s.regRange (decl i) = some r →
         (s.declared i).illegal = false → ∃ t, exec i s = .next t ∧ Trapped s t Cause.regRange.code 0 r false)))

/-- R121: an instruction that names a register an outstanding request will write, or that waits for every request, changes nothing
until then. R419, R421: a vector instruction of a sleeping unit whose cluster reserves for vectors asks the arbiter and waits for
the ramp; that of one awake without a grant or room asks and waits; no register changes. -/
def Obligations.HazardsAndCurrentAreWaitedFor : Prop :=
  (∀ (i : Instr) (s : State), (toFields i).isSome = true → s.monitor = false → s.my.act.isSome = true →
     (decl i).monOnly = false → ((decl i).computeOnly = true → s.focus.compute = true) → s.regRange (decl i) = none →
     (s.declared i).illegal = false → s.hazard (decl i) = true → exec i s = .next s) ∧
  (∀ (i : Instr) (s s' : State) (f : VForm), vecForm i s = some f → Starts i s s' false → f.ok = true → s.vecReady = false →
     ∃ u, exec i s = .next u ∧
       u.my = { s'.my with stall := if (s.tile s.focus.site).vecAsleep then .ramp else s.my.stall } ∧ u.pcNow = s.pcNow ∧
       (∀ r, u.vr r = s.vr r) ∧
       (((s.cluster (clusterOf s.focus.site)).waiting.any fun q => q.site == s.focus.site && q.unit == 1) = false →
         (u.cluster (clusterOf s.focus.site)).waiting = (s.cluster (clusterOf s.focus.site)).waiting ++
           [{ site := s.focus.site, unit := 1, units := 2, prio := s.prio s.myRegion, arrival := s.tick }]))

/-- R46, R47: SIGCHK ends a block: the checker compares the CRC with the stored value of the fall-through exit; where they agree the
next block begins at the next instruction, with the initial CRC, and where they differ the segment aborts with SIGNATURE. -/
def Obligations.SignaturesAreComparedAtTheEndOfABlock : Prop :=
  ∀ (s : State) (a : Activation) (es : List (Nat × Nat × Nat)) (g : Sig),
    Free (decl .sigchk) s → s.monitor = false → s.my.act = some a → s.sigTable = (.ok es, s) →
    sigReach s a (codeOffset a s.my.pc) es = .ok g → a.sigCount ≠ 0 → s.pendingReqs = false →
    let v := s.word0.toNat / 4 % 64 + s.word0.toNat / 2 ^ 8 % 1024 * 64
    let crc := crc16Byte (crc16Byte (crc16Byte g.crc (BitVec.ofNat 8 v)) (BitVec.ofNat 8 (v / 256))) 0#8
    if (es.find? fun e => e.1 == g.block).any fun e => e.2.1 == crc.toNat then
      ∃ t, exec .sigchk s = .next t ∧ t.my.pc = (s.my.pc + 4) % 2 ^ 64 ∧
        t.my.sig = { block := codeOffset a (s.my.pc + 4), crc := 0xFFFF#16 }
    else exec .sigchk s = .next (s.mismatch.takeAbort Cause.signature.code 0 (g.block % 2 ^ 32 + crc.toNat * 2 ^ 32) s.my.pc s.word0)

/-- R121, R123, R124: a scalar load that passes its capability check and whose bytes are not all in the own trail's buffer takes the
lowest free request slot, with its view as it issues, and asks the home slice, or first the trail area where it forwards from
spilled entries (R88); nothing else changes. R101, R123, R124: a load whose every byte lies in the own trail's buffer, above the
view, ends at once with those bytes, zero- or sign-extended. -/
def Obligations.LoadsReadTheirVersion : Prop :=
  (∀ (i : Instr) (s s' : State) (a : Reg) (disp : Int) (n : Nat) (kind : ReqKind) (tag memTag : Bool) (slot : Nat),
     loadForm i s = some (a, disp, n, kind, tag, memTag) → Starts i s s' false →
     checkCap (s.rc a) ((s.rc a).addr + disp) n n { l := true } = none → s.freeSlot = some slot →
     let ps := placesAt ((s.rc a).addr + disp).toNat n
     let spilled := s.my.refills (ps.map (·.2))
     wantedBytes s.my ps ≠ [] ∨ spilled ≠ [] →
     ∃ t, exec i s = .next t ∧
       Ends ((s'.modMy fun c => { c with reqs := tput none slot (some
         { kind := kind, v := s.my.view, va := ((s.rc a).addr + disp).toNat, want := wantedBytes s.my ps, got := ownBytes s.my ps
           tag := tag, memTag := memTag, refills := spilled, pc := s.my.pc, word := s.word0 }) c.reqs }).post
           (if spilled = [] then .loadRequest s.myKey slot else .trailRefill s.myKey slot))
         t (s.pcNow + (decl i).len)) ∧
  (∀ (i : Instr) (s s' : State) (a : Reg) (disp : Int) (n : Nat) (kind : ReqKind) (tag memTag : Bool) (slot : Nat),
     loadForm i s = some (a, disp, n, kind, tag, memTag) → Starts i s s' false →
     checkCap (s.rc a) ((s.rc a).addr + disp) n n { l := true } = none → s.freeSlot = some slot → s.monitor = false →
     let ps := placesAt ((s.rc a).addr + disp).toNat n
     wantedBytes s.my ps = [] → s.my.refills (ps.map (·.2)) = [] →
     ∃ t, exec i s = .next t ∧
       EndsWith s t (s.pcNow + (decl i).len) (loadedReg kind (ownBytes s.my ps) tag).1 (loadedReg kind (ownBytes s.my ps) tag).2)

/-- R126, R86, R107: a store that passes its check and finds room appends its granule writes to the trail as one act and ends; no byte
of memory changes, and no register. -/
def Obligations.StoresAppendToTheTrail : Prop :=
  ∀ (i : Instr) (s s' : State) (a : Reg) (disp : Int) (n x : Nat) (tag : Bool) (p : Perms),
    storeForm i s = some (a, disp, n, x, tag, p) → Starts i s s' false → s.monitor = false →
    s.my.prog.step = 0 → s.my.prog.rel = none →
    checkCap (s.rc a) ((s.rc a).addr + disp) n n p = none → (tag = true → devHalf ((s.rc a).addr + disp).toNat = true) →
    let es := granuleWrites ((s.rc a).addr + disp).toNat n x tag
    newGranules s.my.trail es ≤ s.segRoom s.myKey → newGranules s.my.trail es ≤ s.trailRoom s.myKey →
    ∃ t, exec i s = .next t ∧
      Ends ((s'.modMy fun c => { c with trail := trailAddAll s.my.trail es }).spillNote s.myKey (s.trailTotal s.myKey))
        t (s.pcNow + (decl i).len) ∧
      t.my.trail = trailAddAll s.my.trail es ∧ (∀ b, t.rimByte b = s.rimByte b) ∧ ∀ b, t.hostByte b = s.hostByte b

/-- R87, R101: after a store of n bytes at va, the own trail forwards exactly its bytes there, and everywhere else what it forwarded
before. -/
def Obligations.StoredBytesAreForwarded : Prop :=
  ∀ (c : Core) (va n x : Nat) (tag : Bool), 1 ≤ n → n ≤ 16 →
    let c' : Core := { c with trail := trailAddAll c.trail (granuleWrites va n x tag) }
    (∀ j, j < n → c'.forward (va + j) = some (BitVec.ofNat 8 (x / 256 ^ j))) ∧
    ∀ b, b < va ∨ va + n ≤ b → c'.forward b = c.forward b

/-- R57, R120: a load or store whose capability fails a check traps with the first failing check's cause and its address in FAULTVA;
nothing is loaded or stored. R107: a store that would outgrow the unsealed segment's room traps TRAIL_FULL where its region does
not release automatically, and stalls, with nothing appended, where the segment has room but the trail has none. -/
def Obligations.ScalarAccessesTrapOrStall : Prop :=
  ((∀ (i : Instr) (s s' : State) (a : Reg) (disp : Int) (n : Nat) (kind : ReqKind) (tag memTag : Bool) (c : Cause),
     loadForm i s = some (a, disp, n, kind, tag, memTag) → Starts i s s' false → s.monitor = false → s.pendingReqs = false →
     checkCap (s.rc a) ((s.rc a).addr + disp) n n { l := true } = some c →
     ∃ t, exec i s = .next t ∧ Trapped s' t c.code (va56 ((s.rc a).addr + disp)) 0 false) ∧
   (∀ (i : Instr) (s s' : State) (a : Reg) (disp : Int) (n x : Nat) (tag : Bool) (p : Perms) (c : Cause),
     storeForm i s = some (a, disp, n, x, tag, p) → Starts i s s' false → s.monitor = false → s.pendingReqs = false →
     checkCap (s.rc a) ((s.rc a).addr + disp) n n p = some c →
     ∃ t, exec i s = .next t ∧ Trapped s' t c.code (va56 ((s.rc a).addr + disp)) 0 false) ∧
   (∀ (i : Instr) (s s' : State) (a : Reg) (disp : Int) (n x : Nat) (p : Perms),
     storeForm i s = some (a, disp, n, x, true, p) → Starts i s s' false → s.monitor = false → s.pendingReqs = false →
     checkCap (s.rc a) ((s.rc a).addr + disp) n n p = none → devHalf ((s.rc a).addr + disp).toNat = false →
     ∃ t, exec i s = .next t ∧ Trapped s' t Cause.capPerm.code (va56 ((s.rc a).addr + disp)) 0 false)) ∧
  (∀ (i : Instr) (s s' : State) (a : Reg) (disp : Int) (n x : Nat) (tag : Bool) (p : Perms),
     storeForm i s = some (a, disp, n, x, tag, p) → Starts i s s' false → s.monitor = false → s.pendingReqs = false →
     s.my.prog.step = 0 → s.my.prog.rel = none →
     checkCap (s.rc a) ((s.rc a).addr + disp) n n p = none → (tag = true → devHalf ((s.rc a).addr + disp).toNat = true) →
     let es := granuleWrites ((s.rc a).addr + disp).toNat n x tag
     (s.autorel s.myRegion = false → s.segRoom s.myKey < newGranules s.my.trail es →
       ∃ t, exec i s = .next t ∧ Trapped s' t Cause.trailFull.code 0 0 false) ∧
     (newGranules s.my.trail es ≤ s.segRoom s.myKey → s.trailRoom s.myKey < newGranules s.my.trail es →
       exec i s = .next (s'.modMy fun c => { c with stall := .trail es })))

/-- R101, R127 to R130, R421: a vector load that passes its checks waits for the ramp of a resting unit; with the unit at work it asks
for the bytes of its enabled elements in one request, or ends at once where the own trail's buffer holds them all. Loads and
stores wake the unit and reserve nothing (log entry 78). R127 to R129, R131: a vector store that passes its checks, with the unit
at work and room, appends the writes of its enabled elements as one act; no byte of memory changes. -/
def Obligations.VectorAccessesReachMemory : Prop :=
  (∀ (i : Instr) (s s' : State) (d : Reg) (tag : Byte) (v : VAccess) (m : Option Mask) (slot : Nat),
     vloadForm i s = some (d, tag, v, m, true, none) → Starts i s s' false →
     let ps := vplaces v (v.live s m)
     let k := vkeep s v m d
     let spilled := s.my.refills (ps.map (·.2))
     let vr := (decl i).vr
     let atWork (u : State) : Prop :=
       (∀ j, { u.tile j with vbanks := [] } = { (s.atWork vr).tile j with vbanks := [] }) ∧ u.clusters = (s.givenBack vr s).clusters
     (s.vecRests = true → ∃ u, exec i s = .next u ∧ u.my = { s'.my with stall := .ramp } ∧ u.clusters = s'.rampAsked.clusters ∧
       u.ctxs = s.ctxs ∧ ∀ j, { u.tile j with vbanks := [] } = { s.tile j with vbanks := [] }) ∧
     (s.vecRests = false → s.freeSlot = some slot →
       (wantedBytes s.my ps ≠ [] ∨ spilled ≠ [] →
         ∃ t u, exec i s = .next t ∧ Ends u t (s.pcNow + (decl i).len) ∧ atWork u ∧
           u = { s' with cores := u.cores, tiles := u.tiles, clusters := u.clusters, agenda := u.agenda } ∧
           u.agenda = (s.givenBack vr (s.post (if spilled = [] then .loadRequest s.myKey slot else .trailRefill s.myKey slot))).agenda ∧
           ∀ j, u.core j = if j = s.myKey then { s'.my with reqs := tput none slot (some
             { kind := .vector d tag k.1 k.2, v := s.my.view, va := (v.addr ((v.live s m).headD 0)).toNat, want := wantedBytes s.my ps
               got := ownBytes s.my ps, refills := spilled, pc := s.my.pc, word := s.word0 }) s'.my.reqs } else s.core j) ∧
       (wantedBytes s.my ps = [] → spilled = [] →
         ∃ t u, exec i s = .next t ∧ Ends u t (s.pcNow + (decl i).len) ∧ atWork u ∧
           u = { s' with ctxs := u.ctxs, tiles := u.tiles, clusters := u.clusters, agenda := u.agenda } ∧
           u.agenda = (s.givenBack vr s).agenda ∧
           ∀ x, u.ctx x = if x = s.me then { s.ctx x with v := (tput {} d.toNat
             { bits := BitVec.ofNat 1024 (mixBits k.1 (ownBytes s.my ps) k.2), tag := tag } (s.ctx x).v) } else s.ctx x))) ∧
  (∀ (i : Instr) (s s' : State) (es : List TrailEntry),
     vstoreForm i s = some (es, true, none) → Starts i s s' false → s.my.prog.step = 0 → s.my.prog.rel = none → s.vecRests = false →
     newGranules s.my.trail es ≤ s.segRoom s.myKey → newGranules s.my.trail es ≤ s.trailRoom s.myKey →
     let vr := (decl i).vr
     ∃ t, exec i s = .next t ∧ t.my.trail = trailAddAll s.my.trail es ∧ (∀ r, t.rc r = s.rc r) ∧
       t.pcNow = (s.pcNow + (decl i).len) % 2 ^ 64 ∧ (∀ j, j ≠ s.myKey → t.core j = s.core j) ∧
       t = { s with cores := t.cores, tiles := t.tiles, clusters := t.clusters, agenda := t.agenda } ∧
       (∀ j, { t.tile j with vbanks := [] } = { (s.atWork vr).tile j with vbanks := [] }) ∧ t.clusters = (s.givenBack vr s).clusters ∧
       (∀ b, t.rimByte b = s.rimByte b) ∧ ∀ b, t.hostByte b = s.hostByte b)

/-- R138 to R141: an atomic that passes its check, after its release where it has one, takes a request slot and stands in the queue of
its line's home engine with the stamp its release carried; .ACQ and .AR wait for the reply, the others end. R139, R110: once its
reply is there, an atomic with .ACQ or .AR waits until FP reaches the stamp it took, and after that it ends. -/
def Obligations.AtomicsStandBeforeTheirEngine : Prop :=
  (∀ (i : Instr) (s s' : State) (minor n : Nat) (o : Order) (d a : Reg) (x y slot : Nat) (carried : Stamp),
     atomForm i s = some (minor, o, n, d, a, x, y) → Starts i s s' false → s.monitor = false →
     s.my.prog.step = 0 → checkCap (s.rc a) (s.rc a).addr n n { l := true, s := true } = none → s.freeSlot = some slot →
     (o = .rel ∨ o = .ar → s.my.prog.rel = some carried) → (o = .plain ∨ o = .acq → carried = 0) →
     s.duplex s.myRegion = false →
     let q : Req := { kind := .atomic d minor n x y carried, v := s.my.view, va := (s.rc a).addr, want := [], pc := s.my.pc, word := s.word0 }
     let u := (s'.modMy fun c => { c with reqs := tput none slot (some q) c.reqs }).askEngine s.myKey slot (s.rc a).addr
       (clusterOf s.focus.site)
     (o = .acq ∨ o = .ar → exec i s = .next (u.modMy fun c => { c with stall := .reply slot })) ∧
     (o = .plain ∨ o = .rel → ∃ t, exec i s = .next t ∧ Ends u t (s.pcNow + 4))) ∧
  (∀ (i : Instr) (s s' : State) (minor n : Nat) (o : Order) (d a : Reg) (x y : Nat),
     atomForm i s = some (minor, o, n, d, a, x, y) → Starts i s s' false → s.monitor = false →
     (s.my.prog.step = 2 → exec i s = .next (s'.modMy fun c => { c with stall := .fp s.my.prog.value .retire })) ∧
     (s.my.prog.step = 1 → ∃ t, exec i s = .next t ∧ Ends s t (s.pcNow + 4)))

/-- R139, R108: at the engine of its line an atomic on device memory reads the newest version, writes new where its minor gives one,
and returns the old value; its stamp lies above the line's newest version, the stamp carried and the engine's last. -/
def Obligations.EnginesActOnTheNewestVersion : Prop :=
  ∀ (s s1 : State) (cl p reg va n pa : Nat) (f : Nat → Option Nat) (carried : Stamp) (who : Asker),
    translate s p va .atomic reg (mkStamp (s.tick + 1) 0) who = (.ok pa, s1) → devHalf va = true →
    s1.poisoned (s1.part p) pa = false → s1.privateAt p pa = false →
    let sl := s1.homeOf p va
    let r := s1.engineChain cl p sl (pa / 64) (some reg)
    let old := r.1.newest.1.toNat / 256 ^ (pa % 64) % 256 ^ n
    ∃ st, stampTick r.1.newestStamp < stampTick st ∧ stampTick carried < stampTick st ∧ r.2.tick ≤ stampTick st ∧
      (r.2.cluster cl).engLast < stampTick st ∧
      let u := r.2.modCluster cl fun c => { c with engLast := stampTick st }
      engineAct s cl p reg va n f carried who = (some (.value old false st), match f old with
        | some x => u.enterWrite p sl (pa / 64)
          { stamp := st, mask := BitVec.ofNat 64 ((2 ^ n - 1) * 2 ^ (pa % 64)), data := BitVec.ofNat 512 (x * 256 ^ (pa % 64))
            tags := 0#4, region := reg }
        | none => u)

/-- R137, R165, R198, R213, R295, R309, R311, R347, R353, R355, R357: an instruction that reads a figure of the machine ends with it
in c(D) as data, and changes nothing else. R360: SIGCHK and NOP end with nothing changed but the pc, the checker and the
instruction's progress; SIGCHK alone ends a block. -/
def Obligations.FiguresAreRead : Prop :=
  (∀ (i : Instr) (s s' : State) (d : Reg) (x : W64), readResult i s = some (d, x) → Starts i s s' false →
     s.monitor = true ∨ s.my.prog.step ≠ 1 →
     ∃ t, exec i s = .next t ∧ EndsWith s t (s.pcNow + (decl i).len) d (dataReg x)) ∧
  ((decl .sigchk).ender = true ∧ (decl .nop).ender = false ∧
   ∀ (i : Instr) (s s' : State), i = .nop ∨ i = .sigchk → Starts i s s' false →
     ∃ t, exec i s = .next t ∧ Ends s t (s.pcNow + 4))

/-- R346: GETHDL ends with bits [63:0] of the newest version of its entry in c(D), as data; its bits [63:8] are ignored. -/
def Obligations.GethdlReadsTheNewestEntry : Prop :=
  ∀ (d b : Reg) (s s' u : State) (x : Nat), Starts (.gethdl d b) s s' false →
    readNewest s' (s.region s.myRegion).part s.myRegion (.core s.myKey) ((s.region s.myRegion).blk.htab + 16 * ((s.rd b).toNat % 256)) 8 = (.ok x, u) →
    ∃ t, exec (.gethdl d b) s = .next t ∧ EndsWith u t (s.pcNow + 4) d (dataReg (BitVec.ofNat 64 x))

/-- R92, R95, R133: where nothing is to be published and no message is held, REL completes at once: the checkpoint is the instruction
behind it with the registers of c(A)'s low half, and the segment's number moves on. R89, R90, R92: REL of a segment with entries
whose pages translate takes the tick's stamp, seals the segment under it, empties the unsealed part, sends each home slice its
notice and waits for the publication. -/
def Obligations.ReleasesEndOrSeal : Prop :=
  (∀ (a : Reg) (s s' : State), Starts (.rel a) s s' false → s.my.prog.rel = none → s.releaseReady s.myKey = true →
     s.duplex s.myRegion = false → s.heldOf s.myKey = [] → s.my.trail = [] → s.my.held = [] → s.my.leaving = [] →
     ∃ t u, exec (.rel a) s = .next t ∧ Ends u t (s.my.pc + 4) ∧ u = s'.finishRelease s.myKey (some (s'.relCkpt a)) ∧
       (∃ p, u.my.ckpt = some p ∧ p.pc = s.my.pc + 4 ∧ p.regs = s.my.c.filter fun e => decide ((s.rd a).toNat % 2 ^ 32 / 2 ^ e.1 % 2 = 1)) ∧
       u.my.seg = s.my.seg + 1) ∧
  (∀ (a : Reg) (s s' s1 : State), Starts (.rel a) s s' false → s.my.prog.rel = none → s.releaseReady s.myKey = true →
     s.duplex s.myRegion = false → s.heldOf s.myKey = [] → s.my.trail ≠ [] → s.mayStamp s.myKey = true →
     let k := s.myKey
     let st := mkStamp s.tick (s.originOf k)
     translatePages s' (s.corePart k) s.myRegion st (.core k) s.my.trail (pagesOf s.my.trail) = (none, s1) →
     ∃ u, exec (.rel a) s = .next u ∧ u.my.trail = [] ∧ u.my.stall = .release s1.seq ∧
       u.my.sealedSegs = s1.my.sealedSegs ++ [{ pub := s1.seq, stamp := st, entries := s.my.trail }] ∧
       (u.mcore (u.coreId k)).stampTick = some s.tick ∧
       u.pub s1.seq = some { part := s.corePart k, region := s.myRegion, core := k, stamp := st
                             shares := sharesOf (s1.part (s.corePart k)) s.my.trail, ckpt := some (s'.relCkpt a), after := .again } ∧
       u.agenda = s1.agenda ++ (sharesOf (s1.part (s.corePart k)) s.my.trail).map fun e => .event (.sliceNotice s1.seq e.1 true))

/-- R103, R104, R134, R135: ACQ and ACQA wait for their target, the highest published tail of the list or, for all, this tick's last
stamp plus the bound; when FP reaches it the view becomes FP, and the instruction ends with nothing else changed. R135: PHASE is a
release and then an acquire of everything: with its release done it waits for the target of ACQA, and ends once FP has reached it;
no instruction boundary falls between the two (R104). -/
def Obligations.AcquiresAdvanceTheView : Prop :=
  ((∀ (s s' : State), Starts .acqa s s' false → s.my.prog.step ≠ 1 →
     ∃ u, exec .acqa s = .next u ∧ u = s'.modMy (fun c => { c with acq := .all, stall := .fp s.allTarget .retire })) ∧
   (∀ (a b : Reg) (s s' : State), Starts (.acq a b) s s' false → s.my.prog.step ≠ 1 → (s.rd b).toNat = 0 →
     ∃ u, exec (.acq a b) s = .next u ∧ u = s'.modMy (fun c => { c with acq := .list [], stall := .fp 0 .retire })) ∧
   (∀ (a b : Reg) (s s' v : State) (x : Nat) (tag : Bool), Starts (.acq a b) s s' false → s.my.prog.step ≠ 1 →
     let n := (s.rd b).toNat
     1 ≤ n → n ≤ 64 → checkCap (s.rc a) (s.rc a).addr (4 * n) 4 { l := true } = none →
     readOwn s' (s.rc a).addr (4 * n) = (.ok x tag, v) →
     let ts := acqEntries (v.gridSize v.myRegion) x n
     ∃ u, exec (.acq a b) s = .next u ∧
       u = v.modMy (fun c => { c with acq := .list ts, stall := .fp (v.listTarget v.myRegion ts) .retire })) ∧
   (∀ (a b : Reg) (s s' : State), Starts (.acq a b) s s' false → s.my.prog.step = 1 →
     ∃ t, exec (.acq a b) s = .next t ∧ Ends s t (s.pcNow + 4)) ∧
   (∀ (s s' : State), Starts .acqa s s' false → s.my.prog.step = 1 → ∃ t, exec .acqa s = .next t ∧ Ends s t (s.pcNow + 4)) ∧
   (∀ (s : State) (k : Nat) (st : Stamp), (s.core k).due = none → (s.core k).stall = .fp st .retire → st ≤ s.fpOf k →
     ∃ u, exec (.fpWaitComplete k) s = .next u ∧ (u.core k).view = s.fpOf k ∧ (u.core k).stall = .none ∧
       (u.core k).prog.step = 1 ∧ (∀ j, j ≠ k → u.core j = s.core j) ∧ u = { s with cores := u.cores }) ∧
   (∀ (s : State) (k : Nat) (st : Stamp) (after : AfterFp), (s.core k).due = none → (s.core k).stall = .fp st after → s.fpOf k < st →
     exec (.fpWaitComplete k) s = .next s)) ∧
  (∀ (a : Reg) (s s' : State), Starts (.phase a) s s' false → s.my.prog.rel ≠ none →
     (s.my.prog.step ≠ 1 → ∃ u, exec (.phase a) s = .next u ∧
       u = s'.modMy (fun c => { c with prog := { c.prog with joined := true }, acq := .all, stall := .fp s.allTarget .retire })) ∧
     (s.my.prog.step = 1 → ∃ t, exec (.phase a) s = .next t ∧ Ends s t (s.my.pc + 4)))

/-- R136: PREF never traps: with a range of device memory it may read it asks the home slice for the lines up to the page's end, and
otherwise it has no effect. -/
def Obligations.PrefAsksAndNeverTraps : Prop :=
  ∀ (a b : Reg) (s s' : State), Starts (.pref a b) s s' false →
    let c := s.rc a
    let len := if b = 0#5 then 64 else (s.rd b).toNat
    let n := min len (65536 - c.addr % 65536)
    let asks := 1 ≤ len ∧ len ≤ 65536 ∧ devHalf c.addr = true ∧ checkCap c c.addr n 1 { l := true } = none
    (asks → ∃ t, exec (.pref a b) s = .next t ∧ Ends (s.post (.prefRequest s.myKey c.addr n)) t (s.pcNow + 4)) ∧
    (¬ asks → ∃ t, exec (.pref a b) s = .next t ∧ Ends s t (s.pcNow + 4))

/-- R149, R157, R162: HALLOC of a FREE handle that fits takes granules, records shape, tag and level, charges the quota, and starts
the zero fill as a command of the scoreboard; on a handle of the same parameters it has no effect; on another it traps. -/
def Obligations.HallocAllocates : Prop :=
  ∀ (h : Reg) (rows cols : W16) (tag : Byte) (level : Level) (retain shatom : Bool) (s s' : State),
    let i := Instr.halloc h rows cols tag level retain shatom
    Starts i s s' false → checkHandle s h.toNat false = none →
    let old := s.handle s.me h.toNat
    let same := old.rows = rows.toNat ∧ old.cols = cols.toNat ∧ old.tag = tag ∧ old.level = level ∧ old.retain = retain ∧ old.shatom = shatom
    (∀ (k : Kind) (e : Nat × Nat) (v : State), old.st = 0 → s.kind tag = some k →
      let site := if level = .twin then twin (s.ctx s.me).site else (s.ctx s.me).site
      let new : Handle := { st := 1, rows := rows.toNat, cols := cols.toNat, tag := tag, level := level, retain := retain, shatom := shatom
                            ebits := if k = .raw then 8 else k.width }
      (level = .twin → s.good (twin (s.ctx s.me).site) = true) → s.fits s.me new.size level = true →
      let u := (s'.modHandle s.me h.toNat fun _ => { new with granules := (s.granulesFree site).take new.size }).modCtx s.me fun c =>
        { c with used := c.used + new.size }
      u.addEntry { ctx := s.me, h := h.toNat, lo := 0, hi := new.image, writes := true, kind := 1 } = some (e, v) →
      ∃ t, exec i s = .next t ∧
        Ends ((v.modHandle s.me h.toNat fun g => { g with bytes := [], bad := [] }).post (.zeroFillComplete e.1 e.2)) t (s.pcNow + 12)) ∧
    (old.st ≠ 0 → same → ∃ t, exec i s = .next t ∧ Ends s t (s.pcNow + 12)) ∧
    (old.st ≠ 0 → ¬ same → s.pendingReqs = false →
      ∃ t, exec i s = .next t ∧ Trapped s' t Cause.handleInvalid.code 0 (h.toNat + 32 * 5) false)

/-- R163, R164, R166, R167: the other instructions of handle management on a handle that CheckHandle passes: HFREE returns its
granules once no entry covers it and the other core has no access to it under way, HRETAIN sets RETAIN, HEXPORT and HUNEXPORT set
its state, HZERO starts a zero fill, HWAIT waits for the entries that cover it. -/
def Obligations.HandlesAreManaged : Prop :=
  ∀ (h : Reg) (s s' : State),
    let g := s.handle s.me h.toNat
    let quiet := s.covering s.me h.toNat = []
    let idle := s.touching (coreKey s.me (!s.focus.compute)) h.toNat = false
    (Starts (.hfree h) s s' false → checkHandle s h.toNat false = none →
      (g.st = 0 → ∃ t, exec (.hfree h) s = .next t ∧ Ends s t (s.pcNow + 4)) ∧
      (g.st = 2 → s.pendingReqs = false →
        ∃ t, exec (.hfree h) s = .next t ∧ Trapped s' t Cause.handleExported.code 0 h.toNat false) ∧
      (g.st = 1 → quiet → idle → ∃ t, exec (.hfree h) s = .next t ∧
        Ends ((s'.modHandle s.me h.toNat fun _ => {}).modCtx s.me fun c => { c with used := c.used - g.size }) t (s.pcNow + 4)) ∧
      (g.st = 1 → ¬ (quiet ∧ idle) → exec (.hfree h) s = .next s')) ∧
    (∀ k, Starts (.hretain h k) s s' false → checkHandle s h.toNat true = none →
      ∃ t, exec (.hretain h k) s = .next t ∧ Ends (s'.modHandle s.me h.toNat fun g => { g with retain := k }) t (s.pcNow + 4)) ∧
    (Starts (.hexport h) s s' false → checkHandle s h.toNat true = none → g.st ≠ 2 →
      (g.level = .cluster → ((s.covering s.me h.toNat).any (·.writes)) = false → ∃ t, exec (.hexport h) s = .next t ∧
        Ends (s'.modHandle s.me h.toNat fun g => { g with st := 2 }) t (s.pcNow + 4)) ∧
      (g.level ≠ .cluster → s.pendingReqs = false →
        ∃ t, exec (.hexport h) s = .next t ∧ Trapped s' t Cause.handleInvalid.code 0 (h.toNat + 32 * 4) false)) ∧
    (Starts (.hunexport h) s s' false → checkHandle s h.toNat true = none → g.st ≠ 1 → s.remoteReaders s.me h.toNat = false →
      ∃ t, exec (.hunexport h) s = .next t ∧ Ends (s'.modHandle s.me h.toNat fun g => { g with st := 1 }) t (s.pcNow + 4)) ∧
    (∀ e v, Starts (.hzero h) s s' false → checkHandle s h.toNat true = none → g.st ≠ 2 →
      s'.addEntry { ctx := s.me, h := h.toNat, lo := 0, hi := g.image, writes := true, kind := 1 } = some (e, v) →
      ∃ t, exec (.hzero h) s = .next t ∧
        Ends ((v.modHandle s.me h.toNat fun g => { g with bytes := [], bad := [] }).post (.zeroFillComplete e.1 e.2)) t (s.pcNow + 4)) ∧
    (Starts (.hwait h) s s' false → checkHandle s h.toNat true = none →
      (quiet → ∃ t, exec (.hwait h) s = .next t ∧ Ends s t (s.pcNow + 4)) ∧ (¬ quiet → exec (.hwait h) s = .next s'))

/-- R151, R169, R170: a handle load, store or atomic that fails no check, with no entry of the scoreboard over its bytes and its
release done where it has one, takes effect at once: bytes little-endian at its unit's offset, a load's to its register, a store's
in the handle, an atomic's both; .ACQ and .AR then wait for the published tail of the context. A vector form has the unit at work
(R421; log entry 78). R150, R158, R161, R169, R386: a handle access traps by the first of its checks that fails, with the handle
and the reason in FAULTINFO and its offset in FAULTVA (log entry 57), an uncorrectable word with the offset alone and a tag
mismatch with neither, the checks of an atomic before its release alone (R170). A vector form of a resting unit waits for its ramp
(R421); an access that meets an entry of the scoreboard stalls, its unit at work and nothing else changed. -/
def Obligations.HandleAccessesTakeEffect : Prop :=
  (∀ (i : Instr) (s s' : State) (o : Order) (a : Scr) (rd wr : Bool), scrForm i s = some (o, a, true, rd, wr) → Starts i s s' false →
     s.my.prog.step = 0 → scrFault s a true rd wr = none → s.overlaps s.me a.h a.off (a.off + a.n) = [] →
     (decl i).vr = [] ∨ s.vecRests = false → (o = .rel ∨ o = .ar → s.my.prog.rel ≠ none) →
     let old := tread (s.handle s.me a.h).bytes a.off a.n
     let vr := (decl i).vr
     let put (u : State) (x : Nat) : State := u.modHandle s.me a.h fun t =>
       { t with bytes := twrite t.bytes a.off a.n x, bad := t.bad.filter fun w => !(decide (a.off ≤ 8 * w) && decide (8 * w + 8 ≤ a.off + a.n)) }
     match a.op with
     | .load d => ∃ t, exec i s = .next t ∧ EndsWith s t (s.pcNow + (decl i).len) d (dataReg (BitVec.ofNat 64 old))
     | .loadV d tag => ∃ t, exec i s = .next t ∧
       Ends (s.givenBack vr (((s'.atWork vr).setV d old tag).touchBanksAt (s.ctx s.me).site (s.ctx s.me).slot [d])) t (s.pcNow + (decl i).len)
     | .store x => ∃ t, exec i s = .next t ∧ Ends (put s' x) t (s.pcNow + (decl i).len)
     | .storeV x => ∃ t, exec i s = .next t ∧ Ends (s.givenBack vr (put (s'.atWork vr) x)) t (s.pcNow + (decl i).len)
     | .atom d minor x cmp acq =>
       let v := match atomNew minor a.n old x cmp with | some y => put s' y | none => s'
       if acq then
         exec i s = .next ((v.wd d (BitVec.ofNat 64 old)).modMy fun c =>
           { c with prog := { c.prog with step := 2, value := s.ctxTail s.me }, stall := .fp (s.ctxTail s.me) .retire })
       else ∃ t, exec i s = .next t ∧ EndsWith v t (s.pcNow + (decl i).len) d (dataReg (BitVec.ofNat 64 old))) ∧
  (∀ (i : Instr) (s s' : State) (o : Order) (a : Scr) (ok rd wr : Bool), scrForm i s = some (o, a, ok, rd, wr) → Starts i s s' false →
     s.my.prog.step = 0 →
     let vr := (decl i).vr
     (∀ c r, s.my.prog.rel = none → scrFault s a ok rd wr = some (c, r) → s.pendingReqs = false →
       ∃ t, exec i s = .next t ∧ Trapped s' t c.code (if c = .format then 0 else a.off % 2 ^ 56)
         (if c = .format ∨ c = .uncorrectable then 0 else a.h + 32 * r) false) ∧
     (scrFault s a ok rd wr = none → vr ≠ [] → s.vecRests = true → exec i s = .next s'.rampAsked) ∧
     (scrFault s a ok rd wr = none → s.overlaps s.me a.h a.off (a.off + a.n) ≠ [] → vr = [] ∨ s.vecRests = false →
       (o = .rel ∨ o = .ar → s.my.prog.rel ≠ none) →
       exec i s = .next (s.givenBack vr ((s'.atWork vr).modMy fun c => { c with stall := .scratch a }))))

/-- R171: HCASX, its release done, takes a request slot, asks the target tile and waits; the target compares and swaps the element
where its handle is allocated and SHATOM, refuses by the first check that fails, and tries again where the scoreboard holds the
element; the reply brings the old value, a failed compare of an absent target, or the refusal's trap (log entry 57). -/
def Obligations.HcasxActsAtItsTarget : Prop :=
  (∀ (o : Order) (w : Bool) (d h b cmp vtr : Reg) (s s' : State) (slot : Nat), Starts (.hcasx o w d h b cmp vtr) s s' false →
    s.my.prog.step = 0 → (o = .rel ∨ o = .ar → s.my.prog.rel ≠ none) → s.freeSlot = some slot →
    let n := if w then 4 else 8
    let vt := (s.rd vtr).toNat % 2 ^ 24
    let off := (s.rd b).toNat * n
    (vt < s.gridSize s.myRegion →
      exec (.hcasx o w d h b cmp vtr) s = .next ((s'.modMy fun c =>
        { c with stall := .reply slot, reqs := tput none slot (some
          { kind := .hcasx d n off ((s.rd d).toNat % 256 ^ n) ((s.rd cmp).toNat % 256 ^ n) vt h.toNat, v := s.my.view, va := off, want := []
            pc := s.my.pc, word := s.word0 }) c.reqs }).post (.hcasxTarget s.myKey slot))) ∧
    (s.gridSize s.myRegion ≤ vt → s.pendingReqs = false →
      ∃ t, exec (.hcasx o w d h b cmp vtr) s = .next t ∧ Trapped s' t Cause.handleInvalid.code (off % 2 ^ 56) (h.toNat + 32 * 7) false)) ∧
  (∀ (s : State) (k id n off new cmp vt h : Nat) (d : Reg) (q : Req), tget none (s.core k).reqs id = some q → q.done = none →
    q.kind = .hcasx d n off new cmp vt h →
    let x := ctxKey (ctxRegion (coreCtx k)) vt
    let g := s.handle x h
    let v := s.cacheEntry (coreCtx k) x
    let answered (u : State) (e : ReqEnd) : State := (u.modCore k fun c =>
      { c with reqs := tput none id (some { q with done := some e }) c.reqs }).post (.hcasxReply k id)
    let there := (s.ctx x).st = 1
    let clear := there ∧ g.st = 1 ∧ g.shatom = true ∧ off + n ≤ g.image
    let old := tread g.bytes off n
    (¬ there → exec (.hcasxTarget k id) s = .next (answered v .absent)) ∧
    (there → g.st = 0 ∨ g.shatom = false →
      exec (.hcasxTarget k id) s = .next (answered v (.refused Cause.handleInvalid.code (h % 32 + 32 * 6) (off % 2 ^ 56)))) ∧
    (there → g.st ≠ 0 → g.shatom = true → g.image < off + n →
      exec (.hcasxTarget k id) s = .next (answered v (.refused Cause.handleBounds.code (h % 32) (off % 2 ^ 56)))) ∧
    (there → g.st = 2 → g.shatom = true → off + n ≤ g.image →
      exec (.hcasxTarget k id) s = .next (answered v (.refused Cause.handleExported.code (h % 32) (off % 2 ^ 56)))) ∧
    (clear → s.overlaps x h off (off + n) ≠ [] → exec (.hcasxTarget k id) s = .next (v.later (.hcasxTarget k id))) ∧
    (clear → s.overlaps x h off (off + n) = [] → badIn g off (off + n) = false → exec (.hcasxTarget k id) s =
      .next (answered (if old = cmp then v.modHandle x h fun t => t.store off n new else v) (.value old false (s.ctxTail x))))) ∧
  (∀ (s : State) (k id n off new cmp vt h x : Nat) (d : Reg) (q : Req) (tail : Stamp), tget none (s.core k).reqs id = some q →
    q.kind = .hcasx d n off new cmp vt h → q.done = some (.value x false tail) →
    ∃ u, exec (.hcasxReply k id) s = .next u ∧ (u.core k).stall = .none ∧ tget none (u.core k).reqs id = none ∧
      (d ≠ 0#5 → tget {} (u.core k).c d.toNat = dataReg (BitVec.ofNat 64 (x % 256 ^ n))) ∧ (u.core k).prog.step = 2) ∧
  (∀ (s : State) (k id n off new cmp vt h : Nat) (d : Reg) (q : Req), tget none (s.core k).reqs id = some q →
    q.kind = .hcasx d n off new cmp vt h →
    let u := s.modCore k fun c => { c with reqs := tput none id none c.reqs, stall := .none }
    (q.done = some .absent → exec (.hcasxReply k id) s = .next ((u.wcOf k d (dataReg (BitVec.ofNat 64 (256 ^ n - 1 - cmp)))).modCore k fun c =>
      { c with prog := { c.prog with step := 1, value := 0 } })) ∧
    ∀ c info va, q.done = some (.refused c info va) →
      exec (.hcasxReply k id) s = .next (u.asCore k fun s => s.takeTrap c va info q.pc q.word false false))

/-- R157, R172, R175, R187 to R195: a copy whose checks pass joins its queue with the issuing view as its read stamp, and with an
entry of the scoreboard over its handle's bytes, CPUB excepted; it stalls, handing in nothing, while its queue or the scoreboard
is full. R187: before anything of its own, a copy traps ILLEGAL_INSTRUCTION where its activation declares no handle and it names
one, PRIVILEGE for a semaphore or event that is not the slot's, HANDLE_INVALID for a handle not declared or FREE, and
HANDLE_EXPORTED where it would write an exported one: CPY, CPYS, CPYV, CPYG, CPYM, CSHD and CRED; CPUB and BARX name no handle.
R198: CWAIT ends once every masked queue is empty or FAULTED, and waits till then; CCANCEL takes each masked queue out of FAULTED,
keeps its DONE, adds no command and leaves none uncancelled; the other queues are as they were. -/
def Obligations.CopiesJoinTheirQueue : Prop :=
  (∀ (i : Instr) (s s' u : State) (c : CopyCmd), copyForm i s' = some (c, u) → Starts i s s' false → s.my.prog.step ≠ 1 →
     let room := (tget {} (u.ctx u.me).copyq c.q).cmds.length < 8
     let d := c.handedIn u
     (c.kind = .cpub → room → ∃ t, exec i s = .next t ∧ Ends (u.queued d) t (s.pcNow + (decl i).len)) ∧
     (∀ e v, c.kind ≠ .cpub → room → u.addEntry (c.boardEntry u) = some (e, v) →
       ∃ t, exec i s = .next t ∧ Ends (v.queued { d with entry := some e }) t (s.pcNow + (decl i).len)) ∧
     (¬ room ∨ c.kind ≠ .cpub ∧ u.addEntry (c.boardEntry u) = none →
       exec i s = .next (u.modMy fun k => { k with stall := .copy c }))) ∧
  (∀ (i : Instr) (s s' : State) (t : CopyTags) (hw : Option (Reg × Bool)), copyNames i = some (t, hw) → Starts i s s' false →
     s.my.prog.step ≠ 1 → s.pendingReqs = false →
     let tags := (t.semV = true → s.semOk t.sem.toNat = true) ∧ (t.evV = true → s.evOk t.ev.toNat = true)
     (hw ≠ none → s.declaredHandles = 0 → ∃ u, exec i s = .next u ∧ Trapped s' u Cause.illegal.code 0 0 false) ∧
     (hw = none ∨ s.declaredHandles ≠ 0 → ¬ tags → ∃ u, exec i s = .next u ∧ Trapped s' u Cause.privilege.code 0 0 false) ∧
     ∀ h w, hw = some (h, w) → s.declaredHandles ≠ 0 → tags →
       let g := s.handle s.me h.toNat
       (s.declaredHandles ≤ h.toNat → ∃ u, exec i s = .next u ∧ Trapped s' u Cause.handleInvalid.code 0 h.toNat false) ∧
       (h.toNat < s.declaredHandles → g.st = 0 →
         ∃ u, exec i s = .next u ∧ Trapped s' u Cause.handleInvalid.code 0 (h.toNat + 32) false) ∧
       (h.toNat < s.declaredHandles → g.st = 2 → w = true →
         ∃ u, exec i s = .next u ∧ Trapped s' u Cause.handleExported.code 0 h.toNat false)) ∧
  ((∀ (m : BitVec 4) (s s' : State), Starts (.cwait m) s s' false →
     let idle := ∀ q, q < 4 → bitAt m q = true →
       (tget {} (s.ctx s.me).copyq q).cmds = [] ∨ (tget {} (s.ctx s.me).copyq q).faulted = true
     (idle → ∃ t, exec (.cwait m) s = .next t ∧ Ends s t (s.pcNow + 4)) ∧ (¬ idle → exec (.cwait m) s = .next s')) ∧
   (∀ (m : BitVec 4) (s s' : State), Starts (.ccancel m) s s' false →
     ∃ t, exec (.ccancel m) s = .next t ∧ t.pcNow = (s.pcNow + 4) % 2 ^ 64 ∧ (∀ r, t.rc r = s.rc r) ∧ t.rim = s.rim ∧ t.host = s.host ∧
       ∀ q, q < 4 → let old := tget {} (s.ctx s.me).copyq q
         let new := tget {} (t.ctx s.me).copyq q
         if bitAt m q then new.faulted = false ∧ new.done = old.done ∧ new.cmds.length ≤ old.cmds.length ∧ ∀ c ∈ new.cmds, c.cancelled = true
         else new = old))

/-- R182, R196, R351, R352: BARX arms its barrier for a count of bytes, BARINIT for arrivals; BARARR of c0 arrives at the own barrier
with the published tail; BARWAIT of an unarmed barrier ends at once and otherwise notes the firings so far and waits for one, and,
where it was of arrivals, for FP to reach the highest tail of its wait; the semaphore instructions raise, lower or try. -/
def Obligations.BarriersAndSemaphores : Prop :=
  (∀ (t : CopyTags) (b : Reg) (s s' : State), Starts (.barx t b) s s' false → s.my.prog.step ≠ 1 → t.semV = false → t.evV = false →
    (s.rd b).toNat < 2 ^ 40 → (tget {} (s.ctx s.me).copyq t.q.toNat).cmds.length < 8 →
    ∃ u, exec (.barx t b) s = .next u ∧
      Ends ((s'.modBar s.me t.bar.toNat fun r => r.arm (s.rd b).toNat).modQueue s.me t.q.toNat fun q => { q with done := q.done + 1#16 })
        u (s.pcNow + 12)) ∧
  (∀ (n : BitVec 6) (a : Reg) (s s' : State), Starts (.barinit n a) s s' false →
    ((s.rd a).toNat ≤ 65535 → ∃ t, exec (.barinit n a) s = .next t ∧
      Ends (s'.modBar s.me n.toNat fun b => ({ b with expect := (s.rd a).toNat, aarm := true } : Bar).onArrival) t (s.pcNow + 4)) ∧
    (65535 < (s.rd a).toNat → s.pendingReqs = false →
      ∃ t, exec (.barinit n a) s = .next t ∧ Trapped s' t Cause.illegal.code 0 0 false)) ∧
  (∀ (n : BitVec 6) (s s' : State), Starts (.bararr n 0#5) s s' false →
    ∃ t, exec (.bararr n 0#5) s = .next t ∧ Ends (s'.modBar s.me n.toNat fun b =>
      ({ b with arrived := min (b.arrived + 1) 65535, atail := max b.atail s.my.tail } : Bar).onArrival) t (s.pcNow + 4)) ∧
  (∀ (n : BitVec 6) (s s' : State), Starts (.barwait n) s s' false → s.my.prog.step = 0 →
    let b := s.bar s.me n.toNat
    (b.armed = false → b.aarm = false → ∃ t, exec (.barwait n) s = .next t ∧ Ends s t (s.pcNow + 4)) ∧
    (b.armed = true ∨ b.aarm = true → exec (.barwait n) s =
      .next ((s'.modBar s.me n.toNat fun b => if s.focus.compute then { b with computeTail := 0 } else { b with stageTail := 0 }).modMy fun c =>
        { c with prog := { c.prog with step := barStep, waits := true, value := b.fires % 2 ^ 64 + b.arrFires * 2 ^ 64 } }))) ∧
  (∀ (n : BitVec 6) (s s' : State), Starts (.barwait n) s s' false → s.my.prog.step = barStep →
    let b := s.bar s.me n.toNat
    let v := s.my.prog.value
    (b.fires = v % 2 ^ 64 → exec (.barwait n) s = .next s') ∧
    (b.fires ≠ v % 2 ^ 64 → b.arrFires = v / 2 ^ 64 → ∃ t, exec (.barwait n) s = .next t ∧ Ends s t (s.pcNow + 4)) ∧
    (b.fires ≠ v % 2 ^ 64 → b.arrFires ≠ v / 2 ^ 64 → exec (.barwait n) s =
      .next (s'.modMy fun c => { c with stall := .fp (if s.focus.compute then b.computeTail else b.stageTail) .retire }))) ∧
  (∀ (i : Instr) (n : BitVec 4) (s s' : State) (d : Reg), Starts i s s' false →
    let count := tget 0 (s.tile s.focus.site).sem n.toNat
    let set (x : Nat) : State := s'.modTile s.focus.site fun t => { t with sem := tput 0 n.toNat x t.sem }
    (i = .semup n ∨ i = .semdn n ∨ i = .semtry d n → s.semOk n.toNat = false → s.pendingReqs = false →
      ∃ t, exec i s = .next t ∧ Trapped s' t Cause.privilege.code 0 0 false) ∧
    (s.semOk n.toNat = true →
      (i = .semup n → ∃ t, exec i s = .next t ∧ Ends (set (min (count + 1) (2 ^ 32 - 1))) t (s.pcNow + 4)) ∧
      (i = .semdn n → count ≠ 0 → ∃ t, exec i s = .next t ∧ Ends (set (count - 1)) t (s.pcNow + 4)) ∧
      (i = .semdn n → count = 0 → exec i s = .next s') ∧
      (i = .semtry d n → count ≠ 0 → ∃ t, exec i s = .next t ∧ EndsWith (set (count - 1)) t (s.pcNow + 4) d (dataReg 1#64)) ∧
      (i = .semtry d n → count = 0 → ∃ t, exec i s = .next t ∧ EndsWith s t (s.pcNow + 4) d (dataReg 0#64))))

/-- R259 to R279: a vector instruction whose tags pass and whose unit runs it writes each element of its destination by its table:
enabled ones as computed, with the generator's draws where it rounds stochastically, others kept or set to ones; VFLAGS gains the
flags of enabled elements; OPS is metered. R258, R261: a vector instruction whose tags do not pass traps FORMAT_MISMATCH and
changes no register. -/
def Obligations.VectorResults : Prop :=
  (∀ (i : Instr) (s s' : State) (f : VForm), vecForm i s = some f → Starts i s s' false → f.ok = true → s.vecReady = true →
     ∃ t, exec i s = .next t ∧ VecDone f s t (decl i).len) ∧
  (∀ (i : Instr) (s s' : State) (f : VForm), vecForm i s = some f → Starts i s s' false → f.ok = false → s.pendingReqs = false →
     ∃ t, exec i s = .next t ∧ Trapped s' t Cause.format.code 0 0 false)

/-- R286, R289, R296, R300 to R304: a matrix instruction whose checks pass, whose ID and predecessors name no command, with room in
table and scoreboard, no conflict, the licence, and its accumulator free or its own, claims and zeroes a free accumulator and
enters the context's table. R289, R292, R296, R298: a matrix instruction that would use an accumulator another slot owns, or one
that a swap has left saved, all before it being met, traps ACC_FIRST_USE with the accumulator's number; one whose ID still names a
command stalls. That the trap clears the saved mark is the model's (log entry 24). -/
def Obligations.MatrixCommandsEnterTheTable : Prop :=
  (∀ (i : Instr) (s s' v : State) (m : MTags) (acc : Option (BitVec 2)) (k : MatKind) (ids : List (Nat × Nat)),
     matForm i s = some (m, acc, k) → Starts i s s' false → s.my.prog.step ≠ 1 → matChecks s m k = true →
     let x := s.me
     let c := s.ctx x
     let site := c.site
     (∀ d ∈ c.cmds, d.id ≠ m.id.toNat ∧ d.id ≠ m.p0.toNat ∧ d.id ≠ m.p1.toNat) → c.cmds.length < 16 →
     s.conflicts (k.entries s x) = false → s'.addEntries (k.entries s x) = some (ids, v) →
     (s.pair (pairOf site)).lic.holder = some (requester site c.slot) → (v.tile site).matGlide = false →
     let own := (s.tile site).accown
     (∀ a, acc = some a → (accValid own a.toNat = true → accSlot own a.toNat = c.slot) ∧ a.toNat ∉ c.saved) →
     let w := match acc with
       | some a => if accValid own a.toNat then v else v.modTile site fun u => { u.setAcc a.toNat [] with accown := accClaim own a.toNat c.slot }
       | none => v
     ∃ t, exec i s = .next t ∧
       Ends ((w.modCtx x fun c => { c with cmds := c.cmds ++ [matCmd s m acc k ids] }).post (.matrixStep site)) t (s.pcNow + (decl i).len)) ∧
  (∀ (i : Instr) (s s' : State) (m : MTags) (acc : Option (BitVec 2)) (k : MatKind),
     matForm i s = some (m, acc, k) → Starts i s s' false → s.my.prog.step ≠ 1 → matChecks s m k = true → s.pendingReqs = false →
     let x := s.me
     let c := s.ctx x
     let site := c.site
     (∀ (v : State) (ids : List (Nat × Nat)) (a : BitVec 2), (∀ d ∈ c.cmds, d.id ≠ m.id.toNat ∧ d.id ≠ m.p0.toNat ∧ d.id ≠ m.p1.toNat) →
       c.cmds.length < 16 → s.conflicts (k.entries s x) = false → s'.addEntries (k.entries s x) = some (ids, v) →
       (s.pair (pairOf site)).lic.holder = some (requester site c.slot) → acc = some a →
       (accValid (s.tile site).accown a.toNat = true ∧ accSlot (s.tile site).accown a.toNat ≠ c.slot) ∨ a.toNat ∈ c.saved →
       ∃ t, exec i s = .next t ∧ Trapped (s'.unsave x a.toNat) t Cause.accFirstUse.code 0 a.toNat false) ∧
     ((c.cmds.any fun d => d.id == m.id.toNat) = true → ∃ u, exec i s = .next u ∧ u.pcNow = s.pcNow ∧
       (∀ r, u.rc r = s.rc r) ∧ ∃ d, u.my.stall = .matrix d ∧ d.id = m.id.toNat ∧ d.kind = k))

/-- R306, R308, R311: MWAIT and MCONS end once the commands they name are gone, or consumed; LICREQ of the holder pins the licence
and, as LICREL, has no effect in a pair with one twin; LICREL of the owner frees the licence (a PARKED one by log entry 87), or
lets its borrower own it; FMTSET sets a format register to zero or a valid value, and traps otherwise. R307: in monitor mode
MSPILL copies an accumulator whole to the save area of the slot's context, and MFILL copies it back. -/
def Obligations.MatrixWaitsLicenceAndSpills : Prop :=
  ((∀ (i : Instr) (id : BitVec 6) (s s' : State), Starts i s s' false →
     let named (c : MatCmd) : Prop := id = 63#6 ∨ c.id = id.toNat
     let gone := ∀ c ∈ (s.ctx s.me).cmds, ¬ named c
     let eaten := ∀ c ∈ (s.ctx s.me).cmds, named c → c.consumed = true
     let waits (st : Nat) : State := s'.modMy fun c => { c with prog := { c.prog with step := st, value := id.toNat, waits := true } }
     (i = .mwait id → (gone → ∃ t, exec i s = .next t ∧ Ends s t (s.pcNow + 4)) ∧ (¬ gone → exec i s = .next (waits mwaitStep))) ∧
     (i = .mcons id → (eaten → ∃ t, exec i s = .next t ∧ Ends s t (s.pcNow + 4)) ∧ (¬ eaten → exec i s = .next (waits mconsStep)))) ∧
   (∀ (i : Instr) (s s' : State), i = .licreq ∨ i = .licrel → Starts i s s' false → s.sole (pairOf s.focus.site) = true →
     ∃ t, exec i s = .next t ∧ Ends s t (s.pcNow + 4)) ∧
   (∀ (s s' : State), Starts .licreq s s' false → s.sole (pairOf s.focus.site) = false →
     (s.pair (pairOf s.focus.site)).lic.holder = some (requester s.focus.site s.mySlot) →
     ∃ t, exec .licreq s = .next t ∧ Ends (s'.modLic (pairOf s.focus.site) fun l => { l with pin := true }) t (s.pcNow + 4)) ∧
   (∀ (s s' : State), Starts .licrel s s' false → s.sole (pairOf s.focus.site) = false → (s.ctx s.me).cmds = [] →
     let pair := pairOf s.focus.site
     let r := requester s.focus.site s.mySlot
     (s.pair pair).lic.moving ≠ some r → (s.pair pair).lic.owner = r → (s.pair pair).lic.st = 3 →
     ∃ t, exec .licrel s = .next t ∧
       Ends (s'.modLic pair fun l => { l with st := 1, owner := l.holder.getD l.owner, pin := false }) t (s.pcNow + 4)) ∧
   (∀ (s s' : State), Starts .licrel s s' false → s.sole (pairOf s.focus.site) = false → (s.ctx s.me).cmds = [] →
     let pair := pairOf s.focus.site
     let r := requester s.focus.site s.mySlot
     (s.pair pair).lic.moving ≠ some r → (s.pair pair).lic.owner = r → (s.pair pair).lic.st = 1 ∨ (s.pair pair).lic.st = 2 →
     ∃ t, exec .licrel s = .next t ∧ Ends (s'.licRelease s.focus.site s.mySlot) t (s.pcNow + 4) ∧ (t.pair pair).lic.st = 0 ∧
       (t.pair pair).lic.holder = none ∧ (t.pair pair).lic.pin = false) ∧
   (∀ (f : BitVec 3) (a : Reg) (s s' : State), Starts (.fmtset f a) s s' false →
     let valid := s.rd a = 0#64 ∨ (customFmt (s.rd a)).isSome = true
     (valid → ∃ t, exec (.fmtset f a) s = .next t ∧ Ends (s'.modMy fun c => { c with f := tput 0#64 f.toNat (s.rd a) c.f }) t (s.pcNow + 4)) ∧
     (¬ valid → s.monitor = false → s.pendingReqs = false →
       ∃ t, exec (.fmtset f a) s = .next t ∧ Trapped s' t Cause.format.code 0 0 false))) ∧
  (∀ (a slot : BitVec 2) (s : State) (x : Nat), s.monitor = true → s.focus.compute = true →
     let site := s.focus.site
     tget none (s.tile site).slots slot.toNat = some x → s.accBusy site a.toNat = false → s.my.killLater = none →
     (∃ t, exec (.mspill a slot) s = .next t ∧ Ends ((s.modCtx x fun c =>
       { c with save := tput [] a.toNat ((s.tile site).accAt a.toNat) c.save, saveBad := c.saveBad.filter (· != a.toNat) }).saveTouch x a.toNat true)
         t (s.pcNow + 4)) ∧
     (a.toNat ∉ (s.ctx x).saveBad → ∃ t, exec (.mfill a slot) s = .next t ∧
       Ends ((s.modTile site fun t => t.setAcc a.toNat (tget [] (s.ctx x).save a.toNat)).saveTouch x a.toNat false) t (s.pcNow + 4)))

/-- R334 to R337, R351: a message that passes its checks, with fewer than 16 held, is held for the core's next release, its payload
and published place as the instruction has them; with .REL the release follows, and the instruction ends once it is done. R335,
R336, R351: SEND, SENDH, SPAWN and a BARARR of another register than c0 trap HANDLE_INVALID with reason 7 for a tile outside the
grid, and hold nothing; 0xFFFFFF is the host for SEND and outside the grid for the others. -/
def Obligations.MessagesAreHeld : Prop :=
  (∀ (i : Instr) (s s' : State) (m : Msg) (rel : Bool), msgForm i s = some (m, rel) → Starts i s s' false →
     (s.my.prog.step = 0 → s.my.held.length < 16 → rel = false →
       ∃ t, exec i s = .next t ∧ Ends (s'.modMy fun c => { c with held := c.held ++ [m] }) t (s.pcNow + (decl i).len)) ∧
     (s.my.prog.step = 0 → s.my.held.length < 16 → rel = true → s.releaseReady s.myKey = true → s.duplex s.myRegion = false →
       s.heldOf s.myKey = [] → s.my.trail = [] →
       ∃ u, exec i s = .next u ∧ u.my.held = [] ∧ u.my.stall = .refused ∧ u.my.prog.step = sendHeldStep ∧ u.pcNow = s.pcNow ∧
         u.my.leaving = s.my.leaving ++ (s.my.held ++ [m]).map (fun (m : Msg) => { m with tail := s.my.tail }) ∧
         (∀ r, u.rc r = s.rc r) ∧ u.rim = s.rim ∧ u.host = s.host) ∧
     (rel = true → s.my.prog.step = sendHeldStep → s.my.prog.rel ≠ none →
       ∃ t, exec i s = .next t ∧ Ends s t (s.pcNow + (decl i).len))) ∧
  (∀ (i : Instr) (s s' : State) (t : Nat) (host : Bool), msgTarget i s = some (t, host) → Starts i s s' false → s.pendingReqs = false →
     s.my.prog.step ≠ sendHeldStep → (t = 0xFFFFFF ∧ host = false) ∨ (t ≠ 0xFFFFFF ∧ s.gridSize s.myRegion ≤ t) →
     ∃ u, exec i s = .next u ∧ Trapped s' u Cause.handleInvalid.code 0 (32 * 7) false)

/-- R318, R319, R339: FORK, with room in the deque and its release done, pushes a record for its target at the bottom: its header, the
target's offset, its registers and join cell, and the tick of the published tail; then it ends. R340: JOIN, its release done,
takes a request slot and asks its counter's engine for the old value, which falls by one; 0 traps SOFTWARE, the last arrival
acquires to the stamp its reply brought and then goes on behind the JOIN, where its checkpoint moves too, and another ends its
activation, as HALT does, and helps; a checkpoint keeps the arrival, so that a restart makes none again (log entry 90). -/
def Obligations.ForkPushesAndJoinCounts : Prop :=
  (∀ (a b : Reg) (off : W32) (n : BitVec 3) (s s' : State) (act : Activation), Starts (.fork a b off n) s s' false →
     s.my.act = some act → s.my.prog.rel ≠ none → s.my.prog.step ≠ spillStep → (s.ctx s.me).deque.length < 512 →
     let target := branchTo s.my.pc off
     b.toNat = firstOf act.mask.toNat → act.code ≤ target → target < act.code + act.codeLen →
     (a ≠ 0#5 → b.toNat + n.toNat ≤ 31 ∧ (s.rc a).tag = true) →
     ∃ t, exec (.fork a b off n) s = .next t ∧
       Ends (s'.dequePush s.me
         { hdr := act.hdr / 64, pcw := (target - act.code) / 4, join := if a = 0#5 then none else some (s.rc a)
           regs := (regRange b n.toNat).map s.rc, tailTick := stampTick s.my.tail, compute := s.focus.compute }) t (s.pcNow + 12)) ∧
  (∀ (a b : Reg) (s s' : State), Starts (.join a b) s s' false →
     (∀ slot carried, s.my.prog.step = 0 → s.my.prog.rel = some carried → s.freeSlot = some slot → s.duplex s.myRegion = false →
       checkCap (s.rc a) (s.rc a).addr 8 8 { l := true, s := true } = none →
       ∃ u, exec (.join a b) s = .next u ∧ u.my.stall = .reply slot ∧ u.my.prog.act = true ∧
         tget none u.my.reqs slot = some { kind := .atomic 0#5 12 8 0 0 carried, v := s.my.view, va := (s.rc a).addr, want := [], pc := s.my.pc
                                           word := s.word0 } ∧
         (u.cluster (s.engineOf (s.corePart s.myKey) (s.rc a).addr)).engQ =
           joinQueue (s.cluster (s.engineOf (s.corePart s.myKey) (s.rc a).addr)).engQ
             { who := s.myKey, id := slot, line := (s.rc a).addr / 64, arrival := s.tick, src := clusterOf s.focus.site
               org := s.originOf s.myKey } ∧
         u.pcNow = s.pcNow ∧ ∀ r, u.rc r = s.rc r) ∧
     (s.my.prog.step = joinZero → s.pendingReqs = false →
       ∃ t, exec (.join a b) s = .next t ∧ Trapped s' t Cause.software.code 0 0x400 false) ∧
     (s.my.prog.step = joinLast →
       exec (.join a b) s = .next (s'.modMy fun c => { c with stall := .fp s.my.prog.value .retire })) ∧
     (s.my.prog.step = 1 → ∃ t, exec (.join a b) s = .next t ∧ Ends (s'.modMy fun c => { c with ckpt := c.ckpt.map fun (p : Checkpoint) =>
       { p with pc := s.my.pc + 4, sig := s'.sigAt (s.my.pc + 4), arrived := none } }) t (s.pcNow + 4)) ∧
     (s.my.prog.step = joinMore → ((s.ctx s.me).queues.all fun q => q.cmds.isEmpty) = true →
       s.my.pastStep3 = true ∨ (s.core (coreKey s.me (!s.focus.compute))).over = false ∨ s.my.aside ≠ none →
       ∃ u, exec (.join a b) s = .next u ∧ u.my.act = none ∧ u.my.ckpt = none ∧ u.my.prog = {} ∧ u.my.helping = true ∧
         (∀ k, k ≠ s.myKey → u.core k = s.core k) ∧ u.rim = s.rim ∧ u.host = s.host) ∧
     (∀ (u : State) (k id x : Nat) (tag : Bool) (st carried : Stamp) (q : Req), tget none (u.core k).reqs id = some q →
       q.kind = .atomic 0#5 12 8 0 0 carried → q.done = some (.value x tag st) → (u.core k).stall = .reply id → (u.core k).killLater = none →
       let step := if x = 0 then joinZero else if x = 1 then joinLast else joinMore
       ∃ v, exec (.atomicReply k id) u = .next v ∧ (v.core k).stall = .none ∧ tget none (v.core k).reqs id = none ∧
         (v.core k).c = (u.core k).c ∧ (v.core k).prog = { (u.core k).prog with step := step, value := st, act := false } ∧
         (v.core k).ckpt = if x = 0 then (u.core k).ckpt else (u.core k).ckpt.map fun (p : Checkpoint) => { p with arrived := some (step, st) }) ∧
     (atomNew 12 8 0 0 0 = none ∧ ∀ n, 0 < n → atomNew 12 8 n 0 0 = some (n - 1)))

/-- R326, R341: LAUNCH, its release done, its template read and acceptable, with room in the run queue, makes the child region with
the issuing one as its parent, queues its first record, and ends; without room it waits. -/
def Obligations.LaunchMakesARegion : Prop :=
  ∀ (a b : Reg) (hdl : Byte) (s s' u : State) (t : BlockRead), Starts (.launch a b hdl) s s' false → s.my.prog.rel ≠ none → b.toNat ≤ 26 →
    checkCap (s.rc a) (s.rc a).addr 256 256 { l := true, s := true } = none →
    let depth := (s.ancestors s.myRegion).length
    readTemplate s' (s.rc a).addr hdl depth = (.ok t, u) →
    let r := refusedBlock t depth
    let ring := blkField t.x 120 8
    let cap := blkField t.x 128 4
    (r ≠ 0 → s.pendingReqs = false → ∃ v, exec (.launch a b hdl) s = .next v ∧ Trapped u v Cause.software.code 0 (0x410 + r) false) ∧
    (r = 0 → u.ringRoom (u.corePart u.myKey) ring cap = false →
      exec (.launch a b hdl) s = .next (u.modMy fun c => { c with stall := .launch (u.edgesAt u.focus.site) cap ring })) ∧
    (∀ h w v, r = 0 → u.ringRoom (u.corePart u.myKey) ring cap = true → childHeader u t = (.ok h, w) →
      launchChild w (s.rc a).addr t h ((regRange b 6).map w.rc) (w.sigNext (decl (.launch a b hdl)) (w.my.pc + 12)) = (v, .retire) →
      (∃ x, exec (.launch a b hdl) s = .next x ∧ Ends v x (s.pcNow + 12)) ∧
        ∃ id, (v.region id).launched = true ∧ (v.region id).parent = some s.myRegion ∧ (v.region id).st = 0 ∧ (v.region id).blk.va = (s.rc a).addr)

/-- R342, R343: HALT, its release done and its context's copies complete, ends the activation where the context's other core still has
work; YIELD ends, with its slice due to end. -/
def Obligations.HaltAndYield : Prop :=
  (∀ (s s' : State), Starts .halt s s' false → s.my.prog.step = 5 → ((s.ctx s.me).queues.all fun q => q.cmds.isEmpty) = true →
    (s.core (coreKey s.me (!s.focus.compute))).over = false →
    ∃ u, exec .halt s = .next u ∧ u.my.act = none ∧ u.my.ckpt = none ∧ u.my.prog = {} ∧ u.my.killed = .no ∧
      (u.region s.myRegion).watch = s.tick ∧ (∀ k, k ≠ s.myKey → u.core k = s.core k) ∧ u.rim = s.rim ∧ u.host = s.host) ∧
  (∀ (s s' : State), Starts .yield s s' false →
    ∃ t, exec .yield s = .next t ∧
      Ends ((s'.modTile s.focus.site fun t => { t with yielded := true }).post (.sliceEnd s.focus.site)) t (s.pcNow + 4))

/-- R345, R348: SETHDL with a reserved bit of its settings set answers 5; of a header that its table refuses it answers the status;
neither writes an entry. Else one 16-byte act at the entry's home engine writes it, empty where VALID is clear and from the
header's offset, its CORE and CLASS where it is set, and the answer is 0. GANGHINT of a tile of the grid adds a hint, and has no
effect in monitor mode or for another tile. -/
def Obligations.HandlerTableAndHints : Prop :=
  (∀ (d a b : Reg) (s s' : State), Starts (.sethdl d a b) s s' false → 2 ^ 11 ≤ (s.rd b).toNat →
    ∃ t, exec (.sethdl d a b) s = .next t ∧ EndsWith s t (s.pcNow + 4) d (dataReg 5#64)) ∧
  (∀ (d a b : Reg) (s s' u : State) (h : Header), Starts (.sethdl d a b) s s' false → (s.rd b).toNat < 2 ^ 11 → 2 ^ 10 ≤ (s.rd b).toNat →
    checkCap (s.rc a) (s.rc a).addr 64 64 { x := true } = none →
    (let q := readMem s' (s.region s.myRegion).part s.myRegion .fetch (some s.my.view) .device 2 (s.rc a).addr 64
     q.2 = u ∧ ∃ x, q.1 = .ok x ∧ parseHeader x = h) →
    headerStatus h u.codeCap (s.rc a).addr ≠ 0 →
    ∃ t, exec (.sethdl d a b) s = .next t ∧
      EndsWith u t (s.pcNow + 4) d (dataReg (BitVec.ofNat 64 (headerStatus h u.codeCap (s.rc a).addr)))) ∧
  (∀ (d a b : Reg) (s s' u : State) (o : Nat) (tag : Bool) (st : Stamp), Starts (.sethdl d a b) s s' false → (s.rd b).toNat < 2 ^ 10 →
    (s.ctxs.all fun e => e.2.lodge.isEmpty) = true →
    let r := s.region s.myRegion
    let va := r.blk.htab + 16 * ((s.rd b).toNat % 256)
    engineAct s' (s'.engineOf r.part va) r.part s.myRegion va 16 (fun _ => some 0) 0 (.core s.myKey) = (some (.value o tag st), u) →
    u.ctxs = s.ctxs → ∃ t, exec (.sethdl d a b) s = .next t ∧ EndsWith u t (s.pcNow + 4) d (dataReg 0#64)) ∧
  (∀ (d a b : Reg) (s s' u v : State) (h : Header) (o : Nat) (tag : Bool) (st : Stamp), Starts (.sethdl d a b) s s' false →
    (s.rd b).toNat < 2 ^ 11 → 2 ^ 10 ≤ (s.rd b).toNat → checkCap (s.rc a) (s.rc a).addr 64 64 { x := true } = none →
    (let q := readMem s' (s.region s.myRegion).part s.myRegion .fetch (some s.my.view) .device 2 (s.rc a).addr 64
     q.2 = u ∧ ∃ x, q.1 = .ok x ∧ parseHeader x = h) →
    headerStatus h u.codeCap (s.rc a).addr = 0 → u.myRegion = s.myRegion → (u.region s.myRegion).blk = (s.region s.myRegion).blk →
    (u.region s.myRegion).part = (s.region s.myRegion).part →
    let r := s.region s.myRegion
    let va := r.blk.htab + 16 * ((s.rd b).toNat % 256)
    let entry := ((s.rc a).addr + 2 ^ 32 - u.codeCap.base % 2 ^ 32) % 2 ^ 32 + 2 ^ 32 + bit01 h.compute * 2 ^ 33 + (s.rd b).toNat / 2 ^ 8 % 4 * 2 ^ 34
    engineAct u (u.engineOf r.part va) r.part s.myRegion va 16 (fun _ => some entry) 0 (.core u.myKey) = (some (.value o tag st), v) →
    (v.ctxs.all fun e => e.2.lodge.isEmpty) = true →
    ∃ t, exec (.sethdl d a b) s = .next t ∧ EndsWith v t (s.pcNow + 4) d (dataReg 0#64)) ∧
  (∀ (a : Reg) (s s' : State), Starts (.ganghint a) s s' false →
    let t := (s.rd a).toNat % 2 ^ 24
    (s.monitor = false → t < s.gridSize s.myRegion → ∃ v, exec (.ganghint a) s = .next v ∧
      Ends (s'.modRegion s.myRegion fun g => { g with hints := g.hints ++ [t] }) v (s.pcNow + 4)) ∧
    (s.monitor = true ∨ s.gridSize s.myRegion ≤ t → ∃ v, exec (.ganghint a) s = .next v ∧ Ends s v (s.pcNow + 4)))

/-- R213, R214, R216: SRD and SWR trap ILLEGAL_INSTRUCTION for a number not in the map, then PRIVILEGE for a register of monitor mode,
then ILLEGAL_INSTRUCTION for one their core or direction may not use; a value outside its field's range traps and writes nothing;
else SWR writes the fields that software may write, and a read-only register keeps its value. R208: SWR pushes c(A) at the end of
a queue of fewer than 8 entries, where a pop may take it from the next core cycle on; SRD pops the oldest; a full or empty queue
stalls the issuing core alone, and the push or pop is made once there is room or an entry. -/
def Obligations.SystemRegistersAreWritten : Prop :=
  ((∀ (i : Instr) (num : BitVec 10) (write : Bool) (s s' : State), (∃ d, i = .srd d num ∧ write = false) ∨ (∃ a, i = .swr num a ∧ write = true) →
     Starts i s s' false → s.monitor = true ∨ s.my.prog.step ≠ 1 → s.pendingReqs = false →
     let privileged (r : SysReg) : Bool := if write then r.monWrite else r.monRead
     (sysReg num.toNat = none → s.monitor = false → ∃ t, exec i s = .next t ∧ Trapped s' t Cause.illegal.code 0 0 false) ∧
     ∀ r, sysReg num.toNat = some r → s.monitor = false →
       (privileged r = true → ∃ t, exec i s = .next t ∧ Trapped s' t Cause.privilege.code 0 0 false) ∧
       (privileged r = false → r.refused s.focus.compute write = true →
         ∃ t, exec i s = .next t ∧ Trapped s' t Cause.illegal.code 0 0 false)) ∧
   ∀ (num : BitVec 10) (a : Reg) (s s' : State) (r : SysReg), Starts (.swr num a) s s' false → s.monitor = true ∨ s.my.prog.step ≠ 1 →
     sysReg num.toNat = some r → (r.monWrite = true → s.monitor = true) → r.refused s.focus.compute true = false → (∀ k, r ≠ .queue k) →
     (sysBad r (s.rd a) = true → s.monitor = false → s.pendingReqs = false →
       ∃ t, exec (.swr num a) s = .next t ∧ Trapped s' t Cause.illegal.code 0 0 false) ∧
     (sysBad r (s.rd a) = false → ∃ t, exec (.swr num a) s = .next t ∧ Ends (sysWrite s' r (s.rd a)) t (s.pcNow + 4))) ∧
  (∀ (k : Nat) (num : BitVec 10) (s s' : State), sysReg num.toNat = some (.queue k) → s.monitor = false → s.my.prog.step ≠ 1 →
     let q := tget [] (s.ctx s.me).q k
     let new := tget [] (s.ctx s.me).qNew k
     (∀ a, Starts (.swr num a) s s' false → (SysReg.queue k).refused s.focus.compute true = false →
       (q.length + new.length < 8 → ∃ t, exec (.swr num a) s = .next t ∧
         Ends (s'.modCtx s.me fun c => { c with qNew := tput [] k (new ++ [s.rd a]) c.qNew }) t (s.pcNow + 4)) ∧
       (8 ≤ q.length + new.length → exec (.swr num a) s = .next (s'.modMy fun c => { c with stall := .push k (s.rd a) }))) ∧
     (∀ d, Starts (.srd d num) s s' false → (SysReg.queue k).refused s.focus.compute false = false →
       (∀ x l, q = x :: l → ∃ t, exec (.srd d num) s = .next t ∧
         EndsWith (s'.modCtx s.me fun c => { c with q := tput [] k l c.q }) t (s.pcNow + 4) d (dataReg x)) ∧
       (q = [] → exec (.srd d num) s = .next (s'.modMy fun c => { c with stall := .pop k d }))) ∧
     (∀ c : Ctx, Tbl.wf [] c.qNew = true → Tbl.wf [] c.q = true → c.settleQueues.qNew = [] ∧
       ∀ j, tget [] c.settleQueues.q j = tget [] c.q j ++ tget [] c.qNew j))

/-- R331, R332, R355: EVCFG writes a term's descriptor, in an activation one of the issuing slot's counters alone; a kind above 4 or a
reserved bit traps. EVPULSE adds a pulse that counts from the next cycle on. -/
def Obligations.EventCrossbarIsConfigured : Prop :=
  (∀ (n : BitVec 3) (a : Reg) (s s' : State), Starts (.evcfg n a) s s' false →
    let d := s.rd a
    let legal := termKind d < 5 ∧ d.toNat / 2 ^ 42 % 2 ^ 21 = 0
    (legal → s.monitor = true ∨ s.termOk d = true → ∃ t, exec (.evcfg n a) s = .next t ∧
      Ends (s'.modTile s.focus.site fun u => { u with terms := tput 0#64 n.toNat d u.terms }) t (s.pcNow + 4)) ∧
    (legal → s.monitor = false → s.termOk d = false → s.pendingReqs = false →
      ∃ t, exec (.evcfg n a) s = .next t ∧ Trapped s' t Cause.privilege.code 0 0 false) ∧
    (¬ legal → s.monitor = false → s.pendingReqs = false →
      ∃ t, exec (.evcfg n a) s = .next t ∧ Trapped s' t Cause.illegal.code 0 0 false)) ∧
  (∀ (k : BitVec 4) (s s' : State), Starts (.evpulse k) s s' false →
    (s.evOk k.toNat = true → ∃ t, exec (.evpulse k) s = .next t ∧
      Ends (s'.modTile s.focus.site fun t => { t with evNext := tput 0 k.toNat (tget 0 t.evNext k.toNat + 1) t.evNext }) t (s.pcNow + 4)) ∧
    (s.evOk k.toNat = false → s.monitor = false → s.pendingReqs = false →
      ∃ t, exec (.evpulse k) s = .next t ∧ Trapped s' t Cause.privilege.code 0 0 false))

/-- R358, R383, R384: TRAP and BRK enter monitor mode precisely: the cause, the code in FAULTINFO, the pc and word 0 of the
instruction itself saved, the monitor at its address 0; nothing else of the machine changes but that the checker goes on behind
them. R359, R385: RFT in monitor mode leaves it. Where ACT resumes and the trap was no abort, the core goes on at TRAPPC; where
ACT kills, the segment is killed and restarts, a faulted region's once its resume lets it; where ACT faults, the region is
faulted. -/
def Obligations.TrapsEnterTheMonitor : Prop :=
  (∀ (i : Instr) (code : BitVec 10) (c : Cause) (s s' : State), i = .trap code ∧ c = .software ∨ i = .brk code ∧ c = .breakpoint →
     Starts i s s' false → s.pendingReqs = false →
     ∃ t, exec i s = .next t ∧ Trapped (leaveBlock s') t c.code 0 code.toNat false ∧
       (t.mcore s.focus).trappc = BitVec.ofNat 64 s.my.pc ∧ (t.mcore s.focus).trapword = s.word0 ∧ (t.mcore s.focus).cause = c.code ∧
       (t.mcore s.focus).faultinfo.toNat = code.toNat) ∧
  (∀ (s : State), s.monitor = true → s.my.killLater = none →
     let m := s.mcore s.focus
     let k := s.myKey
     let leave (u : State) : State := (u.modCore k fun c => { c with prog := {} }).modMcore s.focus fun m => { m with mode := false }
     (rftAct m = 0 → m.cause ≠ Cause.trailFull.code → m.cause ≠ Cause.copyFault.code → m.defer = false → m.aborted = false →
       exec .rft s = .next (leave (s.modMy fun c => { c with pc := m.trappc.toNat }))) ∧
     (rftAct m = 1 → exec .rft s = .next (leave (s.killNow k (if s.my.killed = .held then .held else .ready)))) ∧
     (2 ≤ rftAct m →
       exec .rft s = .next (leave ((s.killNow k .held).faultRegion k m.cause m.faultva.toNat m.faultinfo.toNat))) ∧
     ∀ u, (leave u).mcore s.focus = { u.mcore s.focus with mode := false })

/-- R70, R101, R121, R108, R110, R136, R88, R107, R158, R162: a request is served at its home slice or engine and its reply writes the
register that asked, of a scalar, a capability or a vector, or the pair of CAS2; a prefetch fills its lines; a trail spills,
refills one burst for the entries of a line, and takes a stalled store once there is room; an access waits for the scoreboard and
then acts; a zero fill's entry retires. -/
def Obligations.RequestsCompleteAtTheirCore : Prop :=
  (∀ (s u : State) (k id got : Nat) (tag : Bool) (q : Req), tget none (s.core k).reqs id = some q → q.done = none →
    (∀ d m n b c v, q.kind ≠ .atomic d m n b c v) → (∀ d n o w c v h, q.kind ≠ .hcasx d n o w c v h) →
    gather s (s.corePart k) (ctxRegion (coreCtx k)) q.v (.request k id) q.got false q.want = (.ok got tag, u) →
    let q' : Req := { q with done := some (.value got (if q.memTag then tag else q.tag) 0) }
    exec (.loadRequest k id) s = .next (((u.forget (· == .request k id)).modCore k fun c =>
      { c with reqs := tput none id (some q') c.reqs }).post (.loadReply k id))) ∧
  (∀ (s : State) (k id x n : Nat) (d : Reg) (sg tag : Bool) (st : Stamp) (q : Req), tget none (s.core k).reqs id = some q →
    q.kind = .scalar d n sg → q.done = some (.value x tag st) →
    ∃ t, RunsAtCore (.loadReply k id) k s t ∧ tget none (t.core k).reqs id = none ∧
      (t.core k).c = if d = 0#5 then (s.core k).c else tput {} d.toNat
        (dataReg (if sg then (BitVec.ofNat (8 * n) x).signExtend 64 else BitVec.ofNat 64 (x % 256 ^ n))) (s.core k).c) ∧
  (∀ (s : State) (k id x : Nat) (d : Reg) (keep tag : Bool) (st : Stamp) (q : Req), tget none (s.core k).reqs id = some q →
    q.kind = .cap d keep → q.done = some (.value x tag st) →
    ∃ t, RunsAtCore (.loadReply k id) k s t ∧ tget none (t.core k).reqs id = none ∧
      (t.core k).c = if d = 0#5 then (s.core k).c else tput {} d.toNat { bits := BitVec.ofNat 128 x, tag := tag && keep } (s.core k).c) ∧
  (∀ (s : State) (k id x sel old : Nat) (d : Reg) (type : Byte) (tag : Bool) (st : Stamp) (q : Req), tget none (s.core k).reqs id = some q →
    q.kind = .vector d type sel old → q.done = some (.value x tag st) →
    ∃ t, RunsAtCore (.loadReply k id) k s t ∧ tget none (t.core k).reqs id = none ∧ (t.core k).c = (s.core k).c ∧
      ∀ y, t.ctx y = if y = coreCtx k then { s.ctx y with v := tput {} d.toNat { bits := BitVec.ofNat 1024 (mixBits sel x old), tag := type } (s.ctx y).v }
        else s.ctx y) ∧
  (∀ (s u : State) (cl minor n b cmp : Nat) (d : Reg) (carried : Stamp) (e : EngReq) (q : Req) (r : ReqEnd),
    (s.cluster cl).engQ = [e] → e.cxl = none → e.copy = none → tget none (s.core e.who).reqs e.id = some q → q.done = none →
    q.kind = .atomic d minor n b cmp carried → (s.cluster cl).engTick ≠ some s.tick →
    engineAct (s.modCluster cl fun c => { c with engTick := some s.tick, engQ := []
                                                 engPtr := if e.tied && decide (e.src < 121) then (e.src + 1) % 121 else c.engPtr }) cl (s.corePart e.who) (ctxRegion (coreCtx e.who)) q.va n
      (fun old => atomNew minor n old b cmp) carried (.request e.who e.id) = (some r, u) →
    exec (.atomicEngineRequest cl) s = .next (((u.forget (· == .request e.who e.id)).modCore e.who fun c =>
      { c with reqs := tput none e.id (some { q with done := some r }) c.reqs }).post (.atomicReply e.who e.id))) ∧
  (∀ (s : State) (cl : Nat), (s.cluster cl).engQ ≠ [] → (s.cluster cl).engTick = some s.tick →
    exec (.atomicEngineRequest cl) s = .next (s.later (.atomicEngineRequest cl))) ∧
  (∀ (s : State) (k id x n m b cmp : Nat) (d : Reg) (carried a : Stamp) (tag : Bool) (q : Req), tget none (s.core k).reqs id = some q →
    q.kind = .atomic d m n b cmp carried → m ≠ 12 → q.done = some (.value x tag a) → (s.core k).killLater = none →
    let olds : List (Reg × Nat) := if m = 10 then [(d, x), (d + 1#5, x / 2 ^ 64)] else [(d, x % 256 ^ n)]
    ∃ t, RunsAtCore (.atomicReply k id) k s t ∧ tget none (t.core k).reqs id = none ∧
      (t.core k).c = (olds.foldl (fun (c : Tbl CReg) (e : Reg × Nat) => if e.1 = 0#5 then c else tput {} e.1.toNat (dataReg (BitVec.ofNat 64 e.2)) c)
        (s.core k).c) ∧
      ((s.core k).stall = .reply id → (t.core k).stall = .none ∧ (t.core k).prog.step = 2 ∧ (t.core k).prog.value = a) ∧
      ((s.core k).stall ≠ .reply id → (t.core k).stall = (s.core k).stall ∧ (t.core k).prog = (s.core k).prog)) ∧
  (∀ (s u : State) (k va len pa : Nat), 0 < len → len ≤ 65536 → devHalf va = true →
    translate s (s.corePart k) va .load (ctxRegion (coreCtx k)) (s.core k).view .device = (.ok pa, u) →
    (u.slice (s.homeOf (s.corePart k) va)).chains.length + ((pa + len + 63) / 64 - pa / 64) ≤ lineRoom →
    ∃ t, exec (.prefRequest k va len) s = .next t ∧ t.cores = u.cores ∧ SameMemory u t ∧
      ∀ i, i < (pa + len + 63) / 64 - pa / 64 → (tget none (t.slice (s.homeOf (s.corePart k) va)).chains (pa / 64 + i)).isSome = true) ∧
  (∀ (s : State) (k : Nat), (s.ctx (coreCtx k)).trailFrames ≠ [] →
    let touch (write : Bool) (line : Nat) : State := s.areaTouch (coreCtx k) write (s.trailAddr k (64 * line)) 64
    (∃ t, RunsAside (.trailSpill k) s t ∧ t = touch true ((s.trailTotal k - 1024) / 2)) ∧
    (∀ id line q, tget none (s.core k).reqs id = some q → q.refills ≠ [] → (∀ i ∈ q.refills, i / 2 = line) → ∃ t, RunsAtCore (.trailRefill k id) k s t ∧
      t = ((touch false line).modCore k fun c => { c with reqs := tput none id (some { q with refills := [] }) c.reqs }).post (.loadRequest k id))) ∧
  (∀ (s : State) (k : Nat) (es : List TrailEntry), (s.core k).stall = .trail es →
    (newGranules (s.core k).trail es ≤ s.trailRoom k → ∃ t, RunsAtCore (.trailStallEnd k) k s t ∧
      (t.core k).trail = trailAddAll (s.core k).trail es ∧ (t.core k).stall = .none ∧ (t.core k).prog.step = 1) ∧
    (s.trailRoom k < newGranules (s.core k).trail es → exec (.trailStallEnd k) s = .next s)) ∧
  (∀ (s : State) (k : Nat) (a : Scr), (s.core k).stall = .scratch a →
    let x := coreCtx k
    let h := s.handle x a.h
    (s.overlaps x a.h a.off (a.off + a.n) = [] → h.st = 1 → badIn h a.off (a.off + a.n) = false →
      (∀ v, a.op = .store v → ∃ t, RunsAtCore (.scoreboardStallEnd k) k s t ∧ t.handle x a.h = h.store a.off a.n v ∧
        (t.core k).stall = .none ∧ (t.core k).prog.step = 1 ∧ (t.core k).c = (s.core k).c) ∧
      (∀ d tag, a.op = .loadV d tag → ∃ t, RunsAtCore (.scoreboardStallEnd k) k s t ∧
        (t.core k).stall = .none ∧ (t.core k).prog.step = 1 ∧ (t.core k).c = (s.core k).c ∧ ∀ y, t.ctx y = if y = x then
          { s.ctx y with v := tput {} d.toNat { bits := BitVec.ofNat 1024 (tread h.bytes a.off a.n), tag := tag } (s.ctx y).v } else s.ctx y) ∧
      (∀ d, a.op = .load d → ∃ t, RunsAtCore (.scoreboardStallEnd k) k s t ∧ t.ctxs = s.ctxs ∧
        (t.core k).stall = .none ∧ (t.core k).prog.step = 1 ∧
        (t.core k).c = if d = 0#5 then (s.core k).c else
          tput {} d.toNat (dataReg (BitVec.ofNat 64 (tread h.bytes a.off a.n))) (s.core k).c)) ∧
    (s.overlaps x a.h a.off (a.off + a.n) ≠ [] → exec (.scoreboardStallEnd k) s = .next s)) ∧
  (∀ (s : State) (site id : Nat) (e : Entry), tget none (s.tile site).board id = some e → e.kind = 1 →
    ∃ t, RunsAside (.zeroFillComplete site id) s t ∧ t = s.modTile site fun u => { u with board := tput none id none u.board })

/-- R92 to R97: a slice rejects a notice that its frontier has passed, accepts one it has room for, and delays another, of which it
sends the ACCEPT later; all accepted, the core commits, all rejected it takes a new stamp; a slice takes the commit or removes a
withdrawn notice, and the last acknowledgment publishes the segment: the published tail rises and the release is over. -/
def Obligations.SegmentsArePublished : Prop :=
  (∀ (s : State) (e : Instr) (pub sl : Nat) (room : Bool) (p : Pub) (h : Share), e = .sliceNotice pub sl room ∨ e = .flipNotice pub sl room →
    s.pub pub = some p → tget none p.shares sl = some h → h.st = .sent → p.withdrawn = false →
    ∃ t, RunsAside e s t ∧
      t.shareAt pub sl = some (if p.stamp ≤ s.frontier sl then .rejected else if room then .accepted else .delayed) ∧
      (t.part p.part).ctr.rejects = (s.part p.part).ctr.rejects + if p.stamp ≤ s.frontier sl then 1 else 0) ∧
  (∀ (s : State) (pub sl : Nat) (p : Pub) (h : Share), s.pub pub = some p → tget none p.shares sl = some h → h.st = .delayed →
    p.withdrawn = false → ∃ t, RunsAside (.noticeAcceptDelayed pub sl) s t ∧
      t.shareAt pub sl = some (if p.stamp ≤ s.frontier sl then .rejected else .accepted) ∧
      (t.part p.part).ctr.rejects = (s.part p.part).ctr.rejects + if p.stamp ≤ s.frontier sl then 1 else 0) ∧
  (∀ (s : State) (pub sl : Nat) (p : Pub) (h : Share), s.pub pub = some p → tget none p.shares sl = some h → p.committed = false →
    p.withdrawn = false →
    ((p.allShares fun x => x == .accepted) = true → ∃ t, RunsAside (.releaseReplies pub) s t ∧
      t.pub pub = some { p with committed := true } ∧
      t.agenda = s.agenda ++ p.shares.map fun e => Turn.event (.sliceCommit pub e.1)) ∧
    ((p.allShares fun x => x == .rejected) = true → s.mayStamp p.core = true → ∃ t, RunsAtCore (.releaseReplies pub) p.core s t ∧
      t.shareAt pub sl = some .sent ∧
      (t.pub pub).map (fun q => q.stamp) = some (mkStamp s.tick (s.originOf p.core)) ∧ (t.core p.core).c = (s.core p.core).c)) ∧
  (∀ (s : State) (pub sl : Nat) (p : Pub) (h : Share), s.pub pub = some p → tget none p.shares sl = some h → h.st = .accepted →
    (p.committed = true → ∃ t, RunsAside (.sliceCommit pub sl) s t ∧ t.shareAt pub sl = some .committed) ∧
    (p.committed = false → p.withdrawn = false → ∃ t, RunsAside (.sliceWithdraw pub sl) s t ∧ t.shareAt pub sl = some .rejected)) ∧
  (∀ (s : State) (pub : Nat) (p : Pub), s.pub pub = some p → p.published = false → p.committed = true →
    (p.allShares fun x => x == .committed || x == .folded) = true → p.after = .again → (s.core p.core).stall = .release pub →
    (s.core p.core).killed = .no → (s.core p.core).held = [] → ∃ t, RunsAtCore (.segmentPublished pub) p.core s t ∧
      (t.core p.core).tail = max (s.core p.core).tail p.stamp ∧ (t.core p.core).stall = .none ∧
      (t.core p.core).prog.rel = some p.stamp ∧ (t.core p.core).ckpt = p.ckpt ∧ (t.core p.core).c = (s.core p.core).c)

/-- R96 to R100, R105, R112, R115: a slice folds its lowest committed publication into the chains, the writes of a line as one version
of it, all of them where its version store has room for a version of each (log entry 7), or raises version pressure where that is
full (log entry 43); a reduction moves FP and the floor, which never fall; a page whose flip the floor has passed gets its staged
frame; a boundary moves a view to FP. -/
def Obligations.FoldsAndFrontierAdvance : Prop :=
  (∀ (s : State) (sl id : Nat) (p : Pub) (h : Share), s.foldable sl = some id → s.pub id = some p → tget none p.shares sl = some h →
    ((s.slice sl).kept < versionRoom → ∃ t, exec (.segmentFold sl) s = .next t ∧ t.cores = s.cores ∧
      (Tbl.wf none (s.slice sl).chains = true → (s.slice sl).kept + ((h.writes.map (·.g / 4)).dedup.length + 1024 * h.pages.length) ≤ versionRoom →
        ∀ x, t.shareAt id sl = some x → x = .folded) ∧
      (∀ l pa u, h.writes ≠ [] → (∀ e ∈ h.writes, e.g / 4 = l) → h.pages = [] → devHalf (64 * l) = true →
        translateClean (if h.begun then s else s.readHeld p.part id sl) p.part (64 * l) (if h.writes.any (·.tag) then .tstore else .store)
          p.region p.stamp .device = (.ok pa, u) →
        let v := u.enterWrite p.part sl (pa / 64) (lineOfWrites p.stamp p.region h.writes)
        t.rim = v.rim ∧ (t.slice sl).chains = (v.slice sl).chains)) ∧
    (versionRoom ≤ (s.slice sl).kept → ∃ t, RunsAside (.segmentFold sl) s t ∧ (t.slice sl).full = true ∧ t.pubs = s.pubs ∧
      ((s.part p.part).pressure = none → (t.part p.part).pressure = (s.slice sl).oldest))) ∧
  (∀ (s : State) (p : Nat), (s.part p).enabled = true → ∃ t, RunsAside (.frontierReduction p) s t ∧
    (t.part p).fp = max (s.part p).fp ((((s.part p).sliceIds.map s.frontier).min?).getD (s.part p).fp) ∧
    (s.part p).floor ≤ (t.part p).floor) ∧
  (∀ (s : State) (sl page : Nat) (g : Staging) (f : Stamp), tget none (s.slice sl).staging page = some g → g.flip = some f →
    let p := ((s.cluster (sl / 4)).part).getD 0
    let e := s.rimRead (s.part p) g.pteAt 8
    (f ≤ (s.part p).floor → ∃ t, exec (.shadowFinalise sl page) s = .next t ∧ t.cores = s.cores ∧
      t.rim = rimPut (s.part p) s.rim g.pteAt 8 (pteClear 5 (e % 2 ^ 16 + g.new / 2 ^ 16 * 2 ^ 16 + e / 2 ^ 48 * 2 ^ 48)) ∧
      tget none (t.slice sl).staging page = none ∧ (t.part p).shadow = (s.part p).shadow ++ [g.old]) ∧
    ((s.part p).floor < f → exec (.shadowFinalise sl page) s = .next s)) ∧
  (∀ (s : State) (k : Nat),
    (s.horizonDue k = true → ∃ t, RunsAtCore (.horizonBoundary k) k s t ∧ (t.core k).view = s.fpOf k ∧ (t.core k).horizonBit = true ∧
      (t.core k).c = (s.core k).c ∧ (t.core k).trail = (s.core k).trail) ∧
    (s.horizonDue k = false → exec (.horizonBoundary k) s = .next s) ∧
    (s.pressureDue k = true → ∃ t, RunsAtCore (.pressureBoundary k) k s t ∧ (t.core k).view = s.fpOf k ∧ (t.core k).pressureBit = true ∧
      (t.core k).c = (s.core k).c ∧ (t.core k).trail = (s.core k).trail) ∧
    (s.pressureDue k = false → exec (.pressureBoundary k) s = .next s))

/-- R172 to R177, R179, R182, R195: a stalled copy joins its queue once it can be accepted; a tile's engine moves one chunk at a time,
here one from device memory into a handle, with one unit of current for it (R419), which it gives back where it has nothing to
move; an element of a reduction acts at its engine as a plain atomic and is credited there (R108, R193; log entry 75); a chunk on
its way is held at its slice where that has room, else in a frame of the swap pool; a flip takes its stamp, or has nothing to
publish. -/
def Obligations.CopyEnginesMoveChunks : Prop :=
  (∀ (s : State) (k : Nat) (c : CopyCmd), (s.core k).stall = .copy c →
    (∀ u, acceptCopy s k c = some u → ∃ t, exec (.copyAccept k) s = .next t ∧ (t.core k).stall = .none ∧ (t.core k).prog.step = 1 ∧
      t.ctxs = u.ctxs ∧ SameMemory u t ∧ ∀ j, j ≠ k → t.core j = u.core j) ∧
    (acceptCopy s k c = none → exec (.copyAccept k) s = .next s)) ∧
  (∀ (s u : State) (site x j : Nat) (c : CopyCmd) (rs b : List Run) (bs : List (List Run)) (l : List (Run × Nat)),
    s.oddCycle site = false → s.pickCopy site = some (x, j) → (s.tile site).copyGrant = false → (s.cluster (clusterOf site)).grants 1 = true →
    s.headCopy x (j % 4) = some c → c.started = true → c.kind = .cpy false → c.chunks = rs :: b :: bs → c.bar = none → c.cancelled = false →
    readRuns (s.modTile site fun t => { t with copyTurn := (j + 1) % 16 }) (s.ctxPart x) (ctxRegion x) c.readStamp (c.asker x) rs = (.ok l, u) →
    ∃ t, exec (.copyChunk site) s = .next t ∧ t.cores = u.cores ∧ SameMemory u t ∧
      t.headCopy x (j % 4) = some { c with chunks := b :: bs, inFlight := false, el := 0 } ∧
      t.handle x c.h = l.foldl (fun (h : Handle) e => h.store e.1.off e.1.len e.2) (s.handle x c.h)) ∧
  (∀ (s : State) (site : Nat),
    (s.oddCycle site = true ∨ s.pickCopy site = none ∧ (s.tile site).copyGrant = false → exec (.copyChunk site) s = .next s) ∧
    (s.oddCycle site = false → s.pickCopy site = none → (s.tile site).copyGrant = true → exec (.copyChunk site) s =
      .next ((s.modTile site fun t => { t with copyGrant := false }).releaseUnits (clusterOf site) 1)) ∧
    ∀ x j, s.oddCycle site = false → s.pickCopy site = some (x, j) → (s.tile site).copyGrant = false →
      (s.cluster (clusterOf site)).grants 1 = false → exec (.copyChunk site) s = .next (s.requestCopy site (s.prio (ctxRegion x)))) ∧
  (∀ (s v u : State) (cl x q n pa old : Nat) (fl sg tag : Bool) (st : Stamp) (e : EngReq) (c : CopyCmd) (r : Run),
    (s.cluster cl).engQ = [e] → e.cxl = none → e.copy = some (x, q) → (s.cluster cl).engTick ≠ some s.tick → s.headCopy x q = some c →
    (c.chunks.headD []).head? = some r → credKind (s.handle x c.h).tag = some (n, fl, sg) →
    let va := r.va + c.el * n
    translate (s.modCluster cl fun d => { d with engTick := some s.tick, engQ := []
                                                 engPtr := if e.tied && decide (e.src < 121) then (e.src + 1) % 121 else d.engPtr })
      (s.ctxPart x) va .atomic (ctxRegion x) (s.part (s.ctxPart x)).fp (c.asker x) = (.ok pa, v) →
    engineAct v cl (s.ctxPart x) (ctxRegion x) va n (credNew c.op n fl sg (tread c.src (r.off + c.el * n) n)) 0 (c.asker x) =
      (some (.value old tag st), u) →
    let w := match c.bar with
      | some b => u.modBar x b fun t => t.credit n
      | none => u
    ((c.el + 1) * n < r.len → exec (.atomicEngineRequest cl) s =
      .next ((w.setHead x q fun c => { c with el := c.el + 1 }).askElement x q { c with el := c.el + 1 } n)) ∧
    (r.len ≤ (c.el + 1) * n → exec (.atomicEngineRequest cl) s = .next (w.chunkDone x q 0))) ∧
  (∀ (s : State) (id : Nat) (f : Flying), tget none s.flying id = some f → (s.headCopy f.ctx f.q).any (fun c => c.cancelled) = false →
    ((s.slice f.h.slice).held + f.h.size ≤ 524288 → ∃ t, RunsAside (.chunkHold id) s t ∧ t.held = s.held ++ [f.h] ∧
      tget none t.flying id = none ∧ (t.slice f.h.slice).held = (s.slice f.h.slice).held + f.h.size) ∧
    (524288 < (s.slice f.h.slice).held + f.h.size →
      (s.overflowRoom (s.ctxPart f.ctx) f.h.slice f.h.size = none → exec (.chunkHold id) s = .next (s.later (.chunkHold id))) ∧
      (∀ a u, s.overflowRoom (s.ctxPart f.ctx) f.h.slice f.h.size = some (a, u) → ∃ t, RunsAside (.chunkHold id) s t ∧
        t.held = s.held ++ [{ f.h with frame := some a }] ∧ tget none t.flying id = none))) ∧
  (∀ (s : State) (x q : Nat) (c : CopyCmd), s.headCopy x q = some c → c.kind = .cpub → c.started = true → c.pub = none →
    (s.stagedPages (s.ctxPart x) c.lo c.hi = [] → exec (.cpubFlipStart x q) s = .next (s.completeCopy x q)) ∧
    (s.stagedPages (s.ctxPart x) c.lo c.hi ≠ [] → s.mayStamp (coreKey x c.compute) = true → ∃ t, RunsAside (.cpubFlipStart x q) s t ∧
      t.headCopy x q = some { c with pub := some s.seq } ∧
      (t.pub s.seq).map (fun p => (p.stamp, p.after)) = some (mkStamp s.tick (s.originOf (coreKey x c.compute)), .flip x q)))

/-- R286 to R293, R303, R304, R419, R423: a stalled matrix command enters its table once it can; a step with its current and, where it
has remote operands, their service, writes its kind's results (the products of an MMA or MMAS, a block loaded, stored, transposed
or converted, zeros) and gives its units back; a command retires; an exporter serves a remote operand; the arbiter grants what
fits; the licence arrives with its requester. -/
def Obligations.MatrixUnitsStep : Prop :=
  (∀ (s u : State) (k : Nat) (c : MatCmd), (s.core k).stall = .matrix c →
    acceptMatrix (s.licStep (pairOf (s.ctx (coreCtx k)).site)) k c = .ok u → ∃ t, exec (.matrixAccept k) s = .next t ∧
      (t.core k).stall = .none ∧ (t.core k).prog.step = 1 ∧ t.ctxs = u.ctxs ∧ SameMemory u t ∧ ∀ j, j ≠ k → t.core j = u.core j) ∧
  (∀ (s : State) (site x : Nat) (c : MatCmd) (cs : List MatCmd),
    let u := s.licStep (pairOf site)
    u.matCtx site = some x → (u.ctx x).cmds = c :: cs → (u.ctx x).site = site → u.regionRuns (ctxRegion x) = true →
    c.consumed = false → c.started = true → c.granted = true → c.stopped = false → c.requested = true ∨ u.oddCycle site = false →
    let l := c.kind.stepLen
    let lo := l.1 * c.done
    let hi := min l.2 (lo + l.1)
    let old := (u.tile site).accAt (c.acc.getD 0)
    (c.kind.remotes ≠ [] → c.served = false → c.requested = false → ∃ t, exec (.matrixStep site) s = .next t ∧ t.cores = u.cores ∧
      SameMemory u t ∧ (t.ctx x).cmds = { c with requested := true } :: cs ∧
      t.agenda = u.agenda ++ [.event (.remoteOperandRequest site)]) ∧
    (c.kind.remotes = [] ∨ c.served = true → badStep u x c lo hi = none → ∃ t, exec (.matrixStep site) s = .next t ∧ SameMemory u t ∧
      (∀ k, k ≠ coreKey x true → t.core k = u.core k) ∧ (t.core (coreKey x true)).c = (u.core (coreKey x true)).c ∧
      (t.ctx x).cmds.head?.map (fun d => (d.done, d.granted)) = some (c.done + 1, false) ∧
      (t.cluster (clusterOf site)).inuse = (u.cluster (clusterOf site)).inuse - 8 ∧
      let out (m n : Nat) : W32 := accWord ((t.tile site).accAt (c.acc.getD 0)) m n
      let was (za : Bool) (m n : Nat) : Nat := if za && c.done == 0 then 0 else (accWord old m n).toNat
      match c.kind with
      | .mma a b _ za => ∀ m n, m < 32 → n < 32 →
        out m n = BitVec.ofNat 32 (dot (was za m n) (mmaTerms (u.operand x a) (u.operand x b) m n lo hi))
      | .mmas a b sa sb _ za ta tb bs => ∀ m n, m < 32 → n < 32 →
        out m n = BitVec.ofNat 32 (dot (was za m n)
          (mmasTerms (u.operand x a) (u.operand x b) (u.operand x sa) (u.operand x sb) ta tb bs m n lo hi))
      | .mlda h => ∀ m n, m < 32 → n < 32 → out m n = BitVec.ofNat 32 ({ u.handle x h with bytes := c.src }.elem m n)
      | .mzero => ∀ m n, out m n = 0#32
      | .msta h => t.handle x h = (u.handle x h).putBlock fun m n => (accWord old m n).toNat
      | .mtrn d h => t.handle x d = (u.handle x d).putBlock fun m n => { u.handle x h with bytes := c.src }.elem n m
      | .mcvt h rm sat fmt => ∀ k, kindOf (List.replicate 8 fmt) (u.handle x h).tag = some k →
        let r := mcvtElems k rm (match k with | .float f _ => satFor (u.handle x h).tag f sat | _ => sat) old 1024 0
          { lo := (u.core (coreKey x true)).seedLo, hi := (u.core (coreKey x true)).seedHi }
        (t.handle x h = (u.handle x h).putBlock fun m n => r.1.getD (32 * m + n) 0) ∧
          (t.core (coreKey x true)).seedLo = r.2.lo ∧ (t.core (coreKey x true)).seedHi = r.2.hi)) ∧
  (∀ (s : State) (site : Nat), (s.licStep (pairOf site)).matCtx site = none →
    exec (.matrixStep site) s = .next (s.licStep (pairOf site))) ∧
  (∀ (s : State) (site x : Nat) (c : MatCmd), ((List.range 4).findSome? fun i => (tget none (s.tile site).slots i).bind fun x =>
      ((s.ctx x).cmds.find? fun d => d.consumed).map fun d => (x, d)) = some (x, c) →
    ∃ t, RunsAside (.matrixRetire site) s t ∧
      (t.ctx x).cmds.map (fun d => d.id) = ((s.ctx x).cmds.filter fun d => d.id != c.id).map (fun d => d.id)) ∧
  (∀ (s : State) (site x : Nat) (c : MatCmd) (cs : List MatCmd), s.matCtx site = some x →
    (s.ctx x).cmds = c :: cs → c.requested = true → c.served = false →
    let l := c.kind.stepLen
    let wide : Bool := match c.kind with
      | .mma _ _ _ _ => true
      | _ => false
    (∀ o ∈ c.kind.remotes, refusesRemote s x wide o.1 o.2.1 o.2.2 (l.1 * c.done) (min l.2 (l.1 * c.done + l.1))
      (o.2.1 == 32 && o.2.2 == l.2) = false) →
    ∃ t, RunsAside (.remoteOperandRequest site) s t ∧ (t.ctx x).cmds = { c with served := true } :: cs) ∧
  (∀ (s : State) (cl x : Nat) (q : ResReq) (c : MatCmd) (cs : List MatCmd), (s.cluster cl).waiting = [q] →
    (s.cluster cl).inuse + q.units ≤ (s.cluster cl).budget → q.unit = 0 → s.matCtx q.site = some x → (s.ctx x).cmds = c :: cs →
    c.consumed = false → c.granted = false → ∃ t, RunsAside (.reservationGrant cl) s t ∧ (t.cluster cl).waiting = [] ∧
      (t.cluster cl).inuse = (s.cluster cl).inuse + q.units ∧ (t.ctx x).cmds = { c with granted := true } :: cs) ∧
  (∀ (s : State) (cl : Nat) (q : ResReq), (s.cluster cl).waiting = [q] → (s.cluster cl).inuse + q.units ≤ (s.cluster cl).budget →
    q.unit = 1 ∨ q.unit = 2 → ∃ t, RunsAside (.reservationGrant cl) s t ∧ (t.cluster cl).waiting = [] ∧
      (t.cluster cl).inuse = (s.cluster cl).inuse + q.units ∧
      (if q.unit = 1 then (t.tile q.site).vecGrant else (t.tile q.site).copyGrant) = true) ∧
  (∀ (s : State) (cl : Nat) (q : ResReq), (s.cluster cl).waiting = [q] → (s.cluster cl).budget < (s.cluster cl).inuse + q.units →
    exec (.reservationGrant cl) s = .next s) ∧
  (∀ (s : State) (pair r x : Nat), (s.pair pair).lic.moving = some r → s.requesterCtx pair r = some x →
    ∃ t, RunsAside (.licenceTransfer pair) s t ∧ (t.pair pair).lic.moving = none ∧ (t.pair pair).lic.holder = some r ∧
      (t.pair pair).lic.st = if (s.pair pair).lic.st = 2 ∧ r ≠ (s.pair pair).lic.owner ∧ s.sole pair = false then 3 else 1)

/-- R203 to R208, R331, R332, R421: the small units of a tile. A stalled push or pop takes effect once there is room or an entry;
ACCOWN keeps its defined bits and zeroes an accumulator that loses VALID; an idle bank turns drowsy; the debugger reads and writes
the registers that hold values; the vector unit sleeps and wakes; a true term takes its counts and has its effect. -/
def Obligations.TileUnitsTakeTheirSteps : Prop :=
  (∀ (s : State) (k q : Nat) (x : W64), (s.core k).stall = .push q x → (s.ctx (coreCtx k)).depth q < 8 →
    ∃ t, RunsAtCore (.queuePush k) k s t ∧ (t.ctx (coreCtx k)).queue q = (s.ctx (coreCtx k)).queue q ∧
      tget [] (t.ctx (coreCtx k)).qNew q = tget [] (s.ctx (coreCtx k)).qNew q ++ [x] ∧
      (t.core k).stall = .none ∧ (t.core k).prog.step = 1 ∧ (t.core k).c = (s.core k).c) ∧
  (∀ (s : State) (k q : Nat) (d : Reg) (x : W64) (l : List W64), (s.core k).stall = .pop q d → (s.ctx (coreCtx k)).queue q = x :: l →
    ∃ t, RunsAtCore (.queuePop k) k s t ∧ (t.ctx (coreCtx k)).queue q = l ∧ (t.core k).stall = .none ∧ (t.core k).prog.step = 1 ∧
      (t.core k).c = if d = 0#5 then (s.core k).c else tput {} d.toNat (dataReg x) (s.core k).c) ∧
  (∀ (s : State) (site : Nat) (v : W64), ∃ t, RunsAside (.accownWrite site v) s t ∧ (t.tile site).accown = v &&& 0x7777#64 ∧
    ∀ i, i < 4 → accValid (s.tile site).accown i = true → accValid (v &&& 0x7777#64) i = false → (t.tile site).accAt i = []) ∧
  (∀ (s : State) (site slot bank : Nat),
    (s.bankIdle site slot bank = true → ∃ t, RunsAside (.bankDrowsy site slot bank) s t ∧
      ∀ n, tget {} (t.tile site).vbanks n =
        if n = slot * 8 + bank then { tget {} (s.tile site).vbanks n with drowsy := true } else tget {} (s.tile site).vbanks n) ∧
    (s.bankIdle site slot bank = false → exec (.bankDrowsy site slot bank) s = .next s)) ∧
  (∀ (s : State) (c : CoreId) (slot : Nat) (r : Reg) (v : BitVec 1024) (tag : Byte),
    (∀ x, s.declaredV c.site slot r = some x →
      (∃ t, RunsAside (.debugVectorRead c slot r) s t ∧
        t.out = s.out ++ [.debug (tget {} (s.ctx x).v r.toNat).bits (tget {} (s.ctx x).v r.toNat).tag]) ∧
      (definedTag tag = true → ∃ t, RunsAside (.debugVectorWrite c slot r v tag) s t ∧
        tget {} (t.ctx x).v r.toNat = { bits := v, tag := tag })) ∧
    (s.declaredV c.site slot r = none →
      (∃ t, RunsAside (.debugVectorRead c slot r) s t ∧ t.out = s.out ++ [.debug 0#1024 0#8] ∧ (t.mcore c).gated = true) ∧
      (∃ t, RunsAside (.debugVectorWrite c slot r v tag) s t ∧ t.ctxs = s.ctxs ∧ (t.mcore c).gated = true)) ∧
    (∀ x, s.declaredV c.site slot r = some x → definedTag tag = false → exec (.debugVectorWrite c slot r v tag) s = .next s)) ∧
  (∀ (s : State) (site : Nat),
    (s.vecIdle site = true → ∃ t, RunsAside (.vectorUnitSleep site) s t ∧ (t.tile site).vecAsleep = true ∧ (t.tile site).vecGrant = false) ∧
    (s.vecIdle site = false → exec (.vectorUnitSleep site) s = .next s) ∧
    (∀ e, (s.tile site).rampEnd = some e → e ≤ s.edgesAt site → ∃ t, exec (.vectorWakeRampEnd site) s = .next t ∧ SameMemory s t ∧
      (t.tile site).vecAsleep = false ∧ (t.tile site).rampEnd = none ∧
      (∀ j x, tget none (s.tile site).slots j = some x → (s.core (coreKey x true)).stall = .ramp → (t.core (coreKey x true)).stall = .none) ∧
      ∀ k, (t.core k).c = (s.core k).c)) ∧
  (∀ (s : State) (site term m : Nat),
    let d := tget 0#64 (s.tile site).terms term
    ((s.tile site).trueProduct d = some m → ∃ t, RunsAside (.eventTermFire site term) s t ∧
      (∀ i, i < 16 → tget 0 (t.tile site).ev i = tget 0 (s.tile site).ev i - m / 2 ^ i % 2) ∧
      (termKind d = 3 → tget 0 (t.tile site).evNext (termIdx d) = tget 0 (s.tile site).evNext (termIdx d) + 1) ∧
      (termKind d = 4 → tget 0 (t.tile site).sem (termIdx d) = min (2 ^ 32 - 1) (tget 0 (s.tile site).sem (termIdx d) + 1))) ∧
    ((s.tile site).trueProduct d = none → exec (.eventTermFire site term) s = .next s))

/-- R315, R317, R351, R369 to R371, R429, R431, R455: a message that reaches a resident context takes a place of its class, an arrival
counts at its barrier, and a message for a context that is away is parked, a tile fault; the sender's release is then over with
its last message; a refused one is offered again; messages age, and a lodge drains. A message to the host is entered in its ring. -/
def Obligations.MessagesReachTheirPlace : Prop :=
  (∀ (s : State) (e : Instr) (id : Nat) (m : Msg), e = .messageArrival id ∨ e = .barrierArrival id → tget none s.flight id = some m →
    m.toHost = false → m.source < noCore → (s.core m.source).leaving = [m] → (s.core m.source).stall = .refused →
    let x := ctxKey m.region m.target
    let c := s.ctx x
    ctxRegion x = m.region → (s.region m.region).launched = true → (s.region m.region).st ≠ 3 →
    (∀ b, m.kind = .arrive b → c.st = 1 → c.lodge = [] → ∃ t, RunsAtCore e m.source s t ∧ tget none t.flight id = none ∧
      t.bar x b = (s.bar x b).arrive m.tail ∧ (t.core m.source).leaving = [] ∧ (t.core m.source).stall = .none) ∧
    (∀ cls k u, m.kind = .send → c.st = 1 → c.lodge = [] → c.places.length < 32 →
      (s.cacheEntry (coreCtx m.source) x).classOf m.region { m with arrival := s.tick } = (some (cls, k), u) →
      ∃ t, exec e s = .next t ∧ SameMemory u t ∧ tget none t.flight id = none ∧
        (t.ctx x).places = c.places ++ [{ msg := { m with arrival := s.tick }, cls := cls, since := s.tick, compute := k }] ∧
        (t.core m.source).leaving = [] ∧ (t.core m.source).stall = .none) ∧
    (c.st = 2 → c.lodge.length < 512 → ∃ t, RunsAtCore e m.source s t ∧ tget none t.flight id = none ∧
      (t.ctx x).lodge = c.lodge ++ [{ m with arrival := s.tick }] ∧
      (t.part (s.ctxPart x)).ctr.tileFaults = (s.part (s.ctxPart x)).ctr.tileFaults + 1 ∧
      (t.core m.source).leaving = [] ∧ (t.core m.source).stall = .none) ∧
    (c.st = 2 → 512 ≤ c.lodge.length → ∃ t, RunsAside e s t ∧ tget none t.flight id = none ∧ (t.ctx x).lodge = c.lodge)) ∧
  (∀ (s : State) (id v : Nat) (m : Msg), tget none s.flight id = some m → m.toHost = true → m.source < noCore →
    (s.core m.source).leaving = [m] → s.windowOf { m with arrival := s.tick } = some v → (s.vf v).route = none →
    ringOn (s.vf v).dqbase = true → (s.vf v).dqFull = false →
    ∃ t, exec (.messageArrival id) s = .next t ∧ t.rim = s.rim ∧ t.rimTags = s.rimTags ∧
      t.host = twrite s.host (ringAt (s.vf v).dqbase ((s.vf v).dqtail % ringSize (s.vf v).dqbase)) 128
        (leNat (dqEntry { m with arrival := s.tick })) ∧
      (t.vf v).dqtail = ((s.vf v).dqtail + 1) % ringSize (s.vf v).dqbase ∧ (t.core m.source).leaving = []) ∧
  (∀ (s : State) (k : Nat) (m : Msg) (l : List Msg), (s.core k).leaving = m :: l → s.inFlight k = false → (s.ctx (coreCtx k)).st = 1 →
    (s.cluster (clusterOf (s.ctx (coreCtx k)).site)).viral = false → ∃ t, RunsAside (.messageReoffer k) s t ∧
      tget none t.flight s.seq = some m ∧ t.agenda = s.agenda ++ [.event (arrivalOf s.seq m)]) ∧
  (∀ (s : State) (x : Nat), ∃ t, RunsAside (.messageAging x) s t ∧ (t.ctx x).places = (s.ctx x).places.map fun p =>
    if p.cls < 3 ∧ (s.inh 9 (ctxRegion x)).age ≠ 0 ∧ p.since + (s.inh 9 (ctxRegion x)).age ≤ s.tick then
      { p with cls := p.cls + 1, since := p.since + (s.inh 9 (ctxRegion x)).age } else p) ∧
  (∀ (s : State) (x b : Nat) (m : Msg), (s.ctx x).st = 1 → (s.ctx x).lodge = [m] → m.kind = .arrive b →
    ∃ t, RunsAside (.lodgeDrain x) s t ∧ (t.ctx x).lodge = [] ∧ t.bar x b = (s.bar x b).arrive m.tail)

/-- R312, R317 to R326, R329: an idle core takes its next message, else the bottom record of its deque, else the head of the run queue
(log entry 66), else one it steals from the top of a victim's deque, and backs off where it finds none; it acquires to the
trigger's tail and then reads its header, and sleeps where there is nothing; a back-off ends and a wake ends the sleep; buckets of
either OVR bit refill (log entry 70) to at most twice their rate; a slice ends with the next ready slot; a LAUNCH that waits goes
on with room, or is set aside while its core helps, and resumes. -/
def Obligations.CoresFindWork : Prop :=
  (∀ (s : State) (c : CoreId) (x : Nat), s.running c.site = some x → (s.ctx x).site = c.site → s.idle c = true →
    let k := coreKey x c.compute
    (s.core k).helping = false →
    let r := ctxRegion x
    let none1 := (s.ctx x).nextPlace c.compute = none
    let none2 := (s.ctx x).deque.getLast?.all (fun e => e.compute != c.compute) = true
    let starts (t : State) (e : ContRec) : Prop := ∃ a, (t.core k).act = some a ∧ a.trigger = .record e ∧
      (t.core k).stall = .fp (mkStamp e.tailTick 0x1FFFF) (.start (e.hdr * 64) (some (4 * e.pcw)))
    (∀ p e u, (s.ctx x).nextPlace c.compute = some p → (s.ctx x).lodge = [] →
      readEntry s r (s.region r).blk.htab (.core k) p.msg.hdl.toNat = (.ok e, u) → e.valid = true →
      ∃ t a, exec (.coreDispatch c) s = .next t ∧ SameMemory u t ∧ (t.core k).act = some a ∧ a.trigger = .message p.msg ∧
        (t.ctx x).places = (u.ctx x).places.erase p ∧
        (t.core k).stall = .fp p.msg.tail (.start e.off none) ∧ (t.core k).acq = .start p.msg.tail ∧ ∀ j, j ≠ k → t.core j = u.core j) ∧
    (∀ e, none1 → (s.ctx x).deque.getLast? = some e → e.compute = c.compute → ∃ t, RunsAtCore (.coreDispatch c) k s t ∧ starts t e ∧
      (t.ctx x).deque = (s.ctx x).deque.dropLast) ∧
    (∀ e u, none1 → none2 → (s.ring r).count ≠ 0 → s.ringHead r = (.ok e, u) → e.compute = c.compute →
      ∃ t, exec (.coreDispatch c) s = .next t ∧ SameMemory u t ∧ starts t e ∧ (∀ j, j ≠ k → t.core j = u.core j) ∧
        t.ring r = { head := ((u.ring r).head + 1) % (u.region r).blk.rqcap, count := (u.ring r).count - 1 }) ∧
    (∀ e l, none1 → none2 → (s.ring r).count = 0 → s.victims x ≠ [] →
      let draw := nextSteal (s.stealState c)
      let y := victimOf (s.nearVictims x) (s.victims x) 1 draw
      (s.ctx y).deque = e :: l → e.compute = c.compute → ∃ t, RunsAtCore (.coreDispatch c) k s t ∧ starts t e ∧ (t.ctx y).deque = l ∧
        (t.mcore c).steal = some draw) ∧
    (none1 → none2 → (s.ring r).count = 0 → s.victims x ≠ [] → (∀ y ∈ s.victims x, (s.ctx y).deque = []) →
      ∃ t, RunsAtCore (.coreDispatch c) k s t ∧ (t.mcore c).asleep = true ∧ (t.mcore c).backoff = some (s.edgesAt c.site + 64) ∧
        (t.core k).act = (s.core k).act) ∧
    ((s.ctx x).nextPlace c.compute = none → (s.ctx x).deque = [] → (s.ring (ctxRegion x)).count = 0 → s.victims x = [] →
      ∃ t, RunsAtCore (.coreDispatch c) k s t ∧ (t.mcore c).asleep = true ∧ (t.core k).act = (s.core k).act)) ∧
  (∀ (s : State) (k off : Nat) (m : Stamp) (pcOff : Option Nat) (a : Activation) (h : Header) (v : State), (s.core k).due = none →
    (s.core k).stall = .fp m (.start off pcOff) → (s.core k).act = some a → m ≤ s.fpOf k →
    let code := (s.region (ctxRegion (coreCtx k))).blk.code
    readHeader (s.setView k (s.fpOf k)) (ctxRegion (coreCtx k)) code off (s.fpOf k) = (.ok h, v) → h.compute = coreCompute k →
    ∃ t b, exec (.fpWaitComplete k) s = .next t ∧ SameMemory v t ∧ (t.core k).act = some b ∧ b.trigger = a.trigger ∧ b.hdr = off ∧
      b.released = false ∧ b.vregs = h.vregs ∧ (t.core k).stall = .none ∧ (t.core k).c = fillRegs h.mask a.trigger ∧
      (t.core k).pc = (v.region (ctxRegion (coreCtx k))).blk.code.base + off + 64 + pcOff.getD h.entry ∧
      ∀ j, j ≠ k → t.core j = v.core j) ∧
  (∀ (s : State) (c : CoreId), ∃ t, RunsAside (.coreWake c) s t ∧ (t.mcore c).asleep = false ∧ (t.mcore c).backoff = none) ∧
  (∀ (s : State) (c : CoreId) (e : Nat), (s.mcore c).backoff = some e →
    (e ≤ s.edgesAt c.site → ∃ t, RunsAside (.stealBackoffEnd c) s t ∧ (t.mcore c).asleep = false ∧ (t.mcore c).backoff = none) ∧
    (s.edgesAt c.site < e → exec (.stealBackoffEnd c) s = .next s)) ∧
  (∀ (s : State) (r : Nat),
    (s.refillDue r = true → ∃ t, RunsAside (.bucketRefill r) s t ∧
      (t.region r).opsTok = (if (s.region r).blk.ovr / 2 ^ 4 % 2 = 1 then
        min ((s.region r).opsTok + (s.region r).blk.opsRate) (2 * (s.region r).blk.opsRate) else (s.region r).opsTok) ∧
      (t.region r).occTok = if (s.region r).blk.ovr / 2 ^ 5 % 2 = 1 then
        min ((s.region r).occTok + (s.region r).blk.occRate) (2 * (s.region r).blk.occRate) else (s.region r).occTok) ∧
    (s.refillDue r = false → exec (.bucketRefill r) s = .next s)) ∧
  (∀ (s : State) (site : Nat), s.sliceDue site = true → s.pinnedTile site = false →
    (∀ j, s.nextReady site (s.tile site).run = some j → ∃ t, RunsAside (.sliceEnd site) s t ∧ (t.tile site).run = j ∧
      (t.tile site).sliceStart = s.tick ∧ (t.tile site).yielded = false ∧ (t.tile site).idle = false) ∧
    (s.nextReady site (s.tile site).run = none → ∃ t, RunsAside (.sliceEnd site) s t ∧ (t.tile site).run = (s.tile site).run ∧
      (t.tile site).sliceStart = s.tick ∧ (t.tile site).yielded = false ∧
      (t.tile site).idle = !s.slotReady site (s.tile site).run)) ∧
  (∀ (s : State) (site : Nat), s.sliceDue site = false ∨ s.pinnedTile site = true → exec (.sliceEnd site) s = .next s) ∧
  (∀ (s : State) (k since cap ring : Nat), (s.core k).stall = .launch since cap ring →
    (s.ringRoom (s.corePart k) ring cap = true → ∃ t, RunsAtCore (.launchHelpStart k) k s t ∧ (t.core k).stall = .none ∧
      (t.core k).act = (s.core k).act ∧ (t.core k).c = (s.core k).c) ∧
    (∀ a, s.ringRoom (s.corePart k) ring cap = false → since + 256 ≤ s.edgesAt (s.ctx (coreCtx k)).site → (s.core k).aside = none →
      (s.core k).assists = false → (s.core k).act = some a → (s.core k).held = [] → (s.core k).leaving = [] →
      ∃ t, RunsAtCore (.launchHelpStart k) k s t ∧ (t.core k).act = none ∧ (t.core k).helping = true ∧ (t.core k).stall = .none ∧
        (t.core k).aside = some { act := a, ckpt := { pc := (s.core k).pc, regs := (s.core k).c, sig := (s.core k).sig }, cap := cap
                                  ring := ring })) ∧
  (∀ (s : State) (k : Nat) (d : Aside), (s.core k).aside = some d → (s.core k).act = none →
    (s.ringRoom (s.corePart k) d.ring d.cap = true → ∃ t, RunsAtCore (.launchHelpResume k) k s t ∧ (t.core k).act = some d.act ∧
      (t.core k).aside = none ∧ (t.core k).assists = false ∧ (t.core k).c = d.ckpt.regs ∧ (t.core k).pc = d.ckpt.pc ∧
      (t.core k).view = s.fpOf k ∧ (t.mcore (s.coreId k)).asleep = false) ∧
    (s.ringRoom (s.corePart k) d.ring d.cap = false → exec (.launchHelpResume k) s = .next s))

/-- R321, R365, R372 to R374, R379: the chairlift places a due gang that fits and clears the hints; a gang that has stopped is saved
and away, and one that was placed is resident at its slots, both cores with the acquire they repeat where it was saved (R105); a
region's share is written, and a record placed in its run queue, but refused where its write faults, which is the model's (log
entry 66). -/
def Obligations.GangsAreSwapped : Prop :=
  (∀ (s : State) (p r g : Nat) (u : State), (s.regions.all fun e => !e.2.remap) = true → (s.ctxs.all fun e => e.2.lodge.isEmpty) = true →
    (s.cores.all fun e => e.2.leaving.isEmpty) = true →
    s.flight = [] → s.drains = [] → s.dueGangs p = [(r, g)] → s.framesShort r (s.gangAway r g) = false → s.makeResident r g = some u →
    ∃ t, RunsAside (.chairliftEvaluation p) s t ∧ t.ctxs = u.ctxs ∧ Turn.event (.gangSwapIn r g) ∈ t.agenda ∧
      ∀ q, (s.region q).launched = true → (s.region q).part = p → (s.region q).st ≠ 3 → (t.region q).hints = []) ∧
  (∀ (s : State) (r g x : Nat), s.placed r g = [x] → (s.ctx x).coming = false → (s.cluster (clusterOf (s.ctx x).site)).viral = false →
    s.quiet x = true → (s.ctx x).cmds = [] → (s.core (coreKey x false)).stall = .none → (s.core (coreKey x true)).stall = .none →
    ∃ t, RunsAside (.gangSwapOut r g) s t ∧ (t.ctx x).st = 2 ∧ (t.ctx x).away = s.tick ∧
      (t.part (s.region r).part).ctr.swaps = (s.part (s.region r).part).ctr.swaps + 1) ∧
  (∀ (s : State) (r g : Nat), s.placed r g = [] → exec (.gangSwapOut r g) s = .next s) ∧
  (∀ (s : State) (r g x : Nat), ((s.placed r g).filter fun x => (s.ctx x).coming) = [x] → s.swapConflict x = false →
    (s.cluster (clusterOf (s.ctx x).site)).viral = false → (s.ctx x).entries = [] → (s.ctx x).lodge = [] →
    (∀ b, (s.core (coreKey x b)).leaving = [] ∧ (s.core (coreKey x b)).killLater = none) →
    ∃ t, exec (.gangSwapIn r g) s = .next t ∧ SameMemory s t ∧ (t.ctx x).st = 1 ∧ (t.ctx x).coming = false ∧ (t.ctx x).since = s.tick ∧
      tget none (t.tile (s.ctx x).site).slots (s.ctx x).slot = some x ∧ (t.core (coreKey x true)).c = (s.core (coreKey x true)).c ∧
      ((s.ctx x).savedBytes ≠ 0 → ∀ b, (t.core (coreKey x b)).due = some (s.swapTarget (coreKey x b)))) ∧
  (∀ (s : State) (r : Nat) (cls : List Nat), s.failed = false → (s.region r).launched = true → (s.region r).st ≠ 3 →
    ((∀ c ∈ cls, c ∈ (s.part (s.region r).part).clusters) → ∃ t, RunsAside (.regionShareWrite r cls) s t ∧ (t.region r).share = some cls) ∧
    ((∃ c ∈ cls, c ∉ (s.part (s.region r).part).clusters) → exec (.regionShareWrite r cls) s = .next (s.emit (.pfRefused r))) ∧
    ∀ rec : RecImage, (∀ a b c u, (s.ring r).count < (s.region r).blk.rqcap → s.ringPush r (imageNat rec) = (some (.value a b c), u) →
        ∃ t, exec (.placeRunQueueRecord r rec) s = .next t ∧ SameMemory u t ∧ t.cores = u.cores ∧
          t.ring r = { head := (s.ring r).head, count := (s.ring r).count + 1 }) ∧
      ((s.region r).blk.rqcap ≤ (s.ring r).count ∨ (∀ a b c, (s.ringPush r (imageNat rec)).1 ≠ some (.value a b c)) →
        exec (.placeRunQueueRecord r rec) s = .next (s.emit (.pfRefused r)))) ∧
  (∀ (s : State) (r : Nat) (cls : List Nat) (rec : RecImage), s.failed = true →
    exec (.regionShareWrite r cls) s = .next (s.emit (.pfRefused r)) ∧
    exec (.placeRunQueueRecord r rec) s = .next (s.emit (.pfRefused r)))

/-- R328, R381 to R383, R387, R388, R391 to R397: a watchdog faults its region, a root's resets the partition; a deferred trap enters
monitor mode, where 2^20 cycles make the cluster viral; a kill waits for an act, and discards the segment otherwise; equal digests
publish and others do not; faults are counted; receipts come once their work is drained; a region resumes or ends; a glide starts
and goes stage by stage. Where a digest is formed, the shadow's being the primary's, is the model's (log entry 20), and so is the
asking again each tick for a receipt (log entry 33). R118, R388: a killed segment that may restart goes back to its checkpoint:
its registers and pc, with the view at FP; behind the arrival of a JOIN it goes on there (R340; log entry 90). -/
def Obligations.FaultsAreHandled : Prop :=
  ((∀ (s : State) (r : Nat),
     (s.watchdogDue r = true → ∃ t, exec (.watchdog r) s = .next t ∧ SameMemory s t ∧
       (t.region r).st = (if (s.region r).parent.isNone then 3 else 2) ∧ (t.region r).faultCause = Cause.watchdog.code ∧
       ((s.region r).parent = none → (∃ id, tget none t.drains id = some (.partition (s.region r).part)) ∧
         ∀ q, (s.region q).launched = true → (s.region q).part = (s.region r).part → (t.region q).st = 3)) ∧
     (s.watchdogDue r = false → exec (.watchdog r) s = .next s)) ∧
   (∀ (s : State) (c : CoreId) (x : Nat) (p : Pending), s.running c.site = some x → (s.ctx x).site = c.site →
     lowestPending (s.core (coreKey x c.compute)).pend = some p → (s.mcore c).mode = false → (s.core (coreKey x c.compute)).stall = .none →
     (∀ e ∈ (s.core (coreKey x c.compute)).reqs, e.2 = none) →
     let k := coreKey x c.compute
     ∃ t, RunsAtCore (.deferredTrap c) k s t ∧ (t.core k).pend = (s.core k).pend.erase p ∧ (t.core k).c = (s.core k).c ∧
       (t.mcore c).mode = true ∧ (t.mcore c).pc = 0 ∧ (t.mcore c).cause = p.cause ∧ (t.mcore c).defer = true ∧ (t.mcore c).aborted = false ∧
       (t.mcore c).faultva = BitVec.ofNat 56 p.va ∧ (t.mcore c).faultinfo = BitVec.ofNat 64 p.info ∧
       (t.mcore c).trappc = BitVec.ofNat 64 (s.core k).pc ∧ (t.mcore c).trapCtx = some x) ∧
   (∀ (s : State) (c : CoreId), (s.mcore c).mode = true →
     ((s.mcore c).entered + 2 ^ 20 ≤ s.edgesAt c.site → ∃ t, exec (.monitorTimeout c) s = .next t ∧ SameMemory s t ∧
       (t.cluster (clusterOf c.site)).viral = true) ∧
     (s.edgesAt c.site < (s.mcore c).entered + 2 ^ 20 → exec (.monitorTimeout c) s = .next s)) ∧
   (∀ (s : State) (k : Nat) (a : Activation), (s.core k).act = some a →
     let c := s.ctx (coreCtx k)
     (s.inAct k = false → c.st ≠ 2 → c.coming = false → ∃ t, exec (.kill k) s = .next t ∧ SameMemory s t ∧
       (∀ j, j ≠ k → { t.core j with pend := (s.core j).pend } = s.core j) ∧ (t.core k).killed = .ready ∧ (t.core k).trail = [] ∧
       (t.core k).reqs = [] ∧ (t.core k).prog = {} ∧ (t.core k).act = some a ∧ (t.core k).ckpt = (s.core k).ckpt ∧
       (t.core k).digests = (s.core k).runsBefore ∧ (t.core k).leaving = (s.core k).leaving ∧
       ((∀ id, (s.core k).stall ≠ .release id) → (t.core k).held = [] ∧
         (t.core k).stall = if (s.core k).leaving = [] then .none else .refused) ∧
       ∀ id p, (s.core k).stall = .release id → s.pub id = some p → p.committed = true →
         (t.core k).held = (s.core k).held ∧ (t.core k).stall = .release id ∧ (t.core k).sealedSegs = (s.core k).sealedSegs) ∧
     (s.inAct k = true ∨ c.st = 2 ∨ c.coming = true → ∃ t, RunsAtCore (.kill k) k s t ∧ (t.core k).killLater = some .ready ∧ (t.core k).trail = (s.core k).trail)) ∧
   (∀ (s : State) (x : Nat) (b : Bool) (d e : W64) (a : Activation), (s.core (coreKey x b)).stall = .duplex →
     (s.core (coreKey x (!b))).stall = .none → (s.core (coreKey x b)).digests = [d, e] → (s.core (coreKey x b)).act = some a →
     (s.ctx x).st ≠ 2 → (s.ctx x).coming = false →
     (d = e → ∃ t, RunsAtCore (.duplexCompare x) (coreKey x b) s t ∧ (t.core (coreKey x b)).prog.compared = true ∧
       (t.core (coreKey x b)).stall = .none ∧ (t.core (coreKey x b)).trail = (s.core (coreKey x b)).trail) ∧
     (d ≠ e → s.inAct (coreKey x b) = false → ∃ t, exec (.duplexCompare x) s = .next t ∧ SameMemory s t ∧
       (t.core (coreKey x b)).killed = .ready ∧ (t.core (coreKey x b)).trail = [] ∧ (t.core (coreKey x b)).digests = [d, e])) ∧
   (∀ (s : State) (x : Nat) (b : Bool) (d e f : W64) (a : Activation), (s.core (coreKey x b)).stall = .duplex →
     (s.core (coreKey x (!b))).stall = .none → (s.core (coreKey x b)).digests = [d, e, f] → (s.core (coreKey x b)).act = some a →
     (s.ctx x).st ≠ 2 → (s.ctx x).coming = false →
     (f = d ∨ f = e → ∃ t, RunsAtCore (.duplexCompare x) (coreKey x b) s t ∧ (t.core (coreKey x b)).prog.compared = true) ∧
     (f ≠ d → f ≠ e → s.inAct (coreKey x b) = false → (s.region (ctxRegion x)).st = 0 → ∃ t, exec (.duplexCompare x) s = .next t ∧ SameMemory s t ∧
       (t.core (coreKey x b)).trail = [] ∧ (t.core (coreKey x b)).digests = [] ∧ (t.region (ctxRegion x)).st = 2 ∧
       (t.region (ctxRegion x)).faultCause = Cause.duplex.code)) ∧
   (∀ (s : State) (k run : Nat) (d : W64), (s.core k).stall = .duplex → ∃ t, RunsAtCore (.detectedFault (.digest k run d)) k s t ∧
     (t.core k).digests = (s.core k).digests.set run d ∧
     (t.part (s.corePart k)).ctr.detected = (s.part (s.corePart k)).ctr.detected + 1) ∧
   (∀ (s : State) (x h w : Nat), ∃ t, RunsAside (.detectedFault (.scratch x h w)) s t ∧ w ∈ (t.handle x h).bad ∧
     (t.part (s.ctxPart x)).ctr.detected = (s.part (s.ctxPart x)).ctr.detected + 1) ∧
   (∀ (s : State) (pa : Nat), ∃ t, RunsAside (.detectedFault (.rimLine pa)) s t ∧ tget false t.poison (pa / 64) = true) ∧
   (∀ (s : State) (site : Nat), ∃ t, exec (.detectedFault (.tileState site)) s = .next t ∧ SameMemory s t ∧
     (t.cluster (clusterOf site)).viral = true) ∧
   (∀ (s : State) (p : Nat), ∃ t, RunsAside (.maskedFault p) s t ∧ (t.part p).ctr.masked = (s.part p).ctr.masked + 1) ∧
   (∀ (s : State) (id : Nat) (d : DrainFor), tget none s.drains id = some d →
     (s.drainReady d = false → d ≠ .checkpoint → exec (.drainReceipt id) s = .next (s.later (.drainReceipt id))) ∧
     (s.drainReady d = true → ∃ t, exec (.drainReceipt id) s = .next t ∧ tget none t.drains id = none ∧
       (∀ x site slot, d = .ctx x site slot → t.ctxs = s.ctxs ∧ t.cores = s.cores ∧ SameMemory s t ∧ t.out = s.out ++ [.drained id]) ∧
       (∀ p, d = .disable p → t.cores = s.cores ∧ SameMemory s t ∧
         ((s.part p).enabled = true → s.allEnded p = true → (t.part p).enabled = false) ∧
         ((s.part p).enabled = false ∨ s.allEnded p = false → t.parts = s.parts ∧ t.out = s.out ++ [.pfRefused p, .drained id])) ∧
       (∀ p cl, d = .cluMove p cl true → t.cores = s.cores ∧ SameMemory s t ∧
         let u := { s with drains := tput none id none s.drains }
         ((s.part p).enabled = true → u.clusterTaken 121 cl = false → (s.cluster cl).ready = 1 → (t.cluster cl).part = some p) ∧
         ((s.part p).enabled = false ∨ u.clusterTaken 121 cl = true ∨ (s.cluster cl).ready ≠ 1 →
           t.parts = s.parts ∧ t.out = s.out ++ [.pfRefused p, .drained id])) ∧
       (d = .checkpoint → t.image = some s.takeImage))) ∧
   (∀ (s : State) (cl : Nat),
     ((s.cluster cl).viral = true → ∃ t, RunsAside (.viralClusterReset cl) s t ∧ tget none t.drains s.seq = some (.cluster cl) ∧
       t.agenda = s.agenda ++ [.event (.drainReceipt s.seq)]) ∧
     ((s.cluster cl).viral = false → exec (.viralClusterReset cl) s = .next s)) ∧
   (∀ (s : State) (r : Nat), (s.region r).launched = true →
     ((s.region r).st = 2 →
       (∃ t, exec (.resumeRegion r) s = .next t ∧ SameMemory s t ∧ (t.region r).st = 0 ∧ ∀ k, ctxRegion (coreCtx k) = r →
         (s.core k).killed = .held → (t.core k).killed = .ready) ∧
       ∃ t, exec (.endRegion r) s = .next t ∧ SameMemory s t ∧ (t.region r).st = 3 ∧ ∃ id, tget none t.drains id = some (.endRegion r)) ∧
     ((s.region r).st ≠ 2 → exec (.resumeRegion r) s = .next (s.emit (.pfRefused r)) ∧
       exec (.endRegion r) s = .next (s.emit (.pfRefused r)))) ∧
   (∀ (s : State), (s.glideDue = true → ∃ t, RunsAside .glideStart s t ∧ t.glide = some (0, s.tick) ∧ t.killTicks = [] ∧
       t.clusters = s.clusters ∧ ∀ i, (s.tile i).matHeld.isSome = true → (t.tile i).matGlide = true ∧ (t.tile i).matHeld = none) ∧
     (s.glideDue = false → ∃ t, RunsAside .glideStart s t ∧ t.glide = s.glide ∧
       ∀ i n, (s.tile i).matHeld = some n → (n + 256 ≤ s.tick → (t.tile i).matHeld = none) ∧ (s.tick < n + 256 → t.tile i = s.tile i)) ∧
     ∀ k t0, s.glide = some (k, t0) →
       (t0 + 6750 ≤ s.tick → ∃ t, RunsAside .glideStage s t ∧ t.glide = (if 7 ≤ k then none else some (k + 1, t0 + 6750)) ∧
         ∀ i, clusterBit i % 8 < k + 1 → (t.tile i).matGlide = false) ∧
       (s.tick < t0 + 6750 → exec .glideStage s = .next s))) ∧
  (∀ (s : State) (k : Nat) (a : Activation) (p : Checkpoint), (s.core k).killed = .ready → s.mayRestart k = true →
     (s.core k).act = some a → (s.core k).ckpt = some p →
     ∃ u, exec (.restart k) s = .next u ∧ (u.core k).c = p.regs ∧ (u.core k).pc = p.pc ∧ (u.core k).view = s.fpOf k ∧
       (u.core k).killed = .no ∧ (u.core k).prog = p.resumes ∧ (∀ j, j ≠ k → u.core j = s.core j) ∧ u.rim = s.rim ∧ u.host = s.host)

/-- R66 to R72, R75, R77, R78, R81 to R83: the host's completions, refusals and invalidations take effect at the slices; the physical
function writes entries, allocations and memory where it may and is refused elsewhere; a channel issues one command at a time.
That a refresh closes every row, the order of a channel's requests and the bank of a row are the model's (log entries 38, 72 and
9). -/
def Obligations.TranslationsAndStacksTakeTheirSteps : Prop :=
  (∀ (s : State) (id host size : Nat) (r w : Bool) (h : HostReq), tget none s.hostReqs id = some h → h.pri = false → h.queued = false →
    h.denied = [] →
    let answer (u : Bool) : Instr := .atsTranslationCompletion id host size r w u
    let given := if h.access = .load then r else w
    let pending := (s.hostReqs.filter fun e => e.2.any fun g => g.part == h.part && g.pri).length
    (h.stale = true → ∀ u, ∃ t, RunsAside (answer u) s t ∧ tget none t.hostReqs id = none ∧ t.slices = s.slices) ∧
    (h.stale = false → ∃ t, RunsAside (answer true) s t ∧ t.slices = s.slices ∧
      tget none t.hostReqs id = if h.waiting = [] then none else some { h with denied := h.waiting, waiting := [] }) ∧
    (h.stale = false → given = true → ∃ t, RunsAside (answer false) s t ∧ tget none t.hostReqs id = none ∧
      hostEntry h.vf h.page host size r w ∈ (t.slice h.slice).stb ∧
      ∀ k i q, Asker.request k i ∈ h.waiting → tget none (s.core k).reqs i = some q → (∀ a b c d e f, q.kind ≠ .atomic a b c d e f) →
        .event (.loadRequest k i) ∈ t.agenda) ∧
    (h.stale = false → given = false → pending < 256 → ∃ t, RunsAside (answer false) s t ∧
      tget none t.hostReqs id = some { h with pri := true, queued := false, waiting := [] } ∧
      t.out = s.out ++ [.priRequest (nearestPort (h.slice / 4)) (h.vf.getD 0) (Config.pasid (h.vf.getD 0)) h.page]) ∧
    (h.stale = false → given = false → 256 ≤ pending → ∃ t, RunsAside (answer false) s t ∧
      tget none t.hostReqs id = some { h with queued := true } ∧ t.out = s.out)) ∧
  (∀ (s : State) (id : Nat) (h : HostReq), tget none s.hostReqs id = some h → h.pri = true → h.vf.isSome = true →
    (∀ e ∈ s.hostReqs, ∀ g, e.2 = some g → g.queued = false) →
    let waits (k : Nat) (w : PageWait) : Prop := (s.core k).waitPage = some w ∧ s.corePart k = h.part ∧
      s.vfOf (ctxRegion (coreCtx k)) = h.vf ∧ devHalf w.va = false ∧ w.va / 4096 = h.page
    (∃ t, RunsAtPage (.prgResponse id true) s t ∧ tget none t.hostReqs id = none ∧ ∀ k w, waits k w →
      (t.core k).waitPage = none ∧ (t.core k).killed = (s.core k).killed) ∧
    ∃ t, RunsAtPage (.prgResponse id false) s t ∧ tget none t.hostReqs id = none ∧ (∀ k w, waits k w →
        (t.core k).waitPage = none ∧ (t.core k).killed = .held ∧ (t.region (ctxRegion (coreCtx k))).st ≠ 0) ∧
      ∀ x q c cs va, (tget {} (s.ctx x).copyq q).cmds = c :: cs → c.waitPage = some va → s.ctxPart x = h.part →
        s.vfOf (ctxRegion x) = h.vf → devHalf va = false → va / 4096 = h.page → (tget {} (t.ctx x).copyq q).faulted = true) ∧
  (∀ (s : State) (p va : Nat), ∃ t, RunsAtPage (.resumePage p va) s t ∧ ∀ k w, (s.core k).waitPage = some w → s.corePart k = p →
    devHalf w.va = true → w.va / 65536 = va / 65536 → (t.core k).waitPage = none) ∧
  (∀ (s : State) (p lo hi : Nat) (e : Instr) (n : Inval),
    (e = .atsInvalidateRequest p lo hi ∧ n = { part := p, lo := lo, hi := hi, host := true }) ∨
    (e = .invalidateVaRange p lo hi ∧ n = { part := p, lo := lo, hi := hi, host := false }) ∨
    (e = .invalidatePartition p ∧ n = { part := p, lo := 0, hi := 2 ^ 56, host := false }) →
    ∃ t, RunsAside e s t ∧ tget none t.invals s.seq = some n ∧ t.agenda = s.agenda ++ [.event (.invalidationComplete s.seq)]) ∧
  (∀ (s : State) (id : Nat) (n : Inval), tget none s.invals id = some n →
    (n.dropped = false → s.noticeUnder n = false → ∃ t, RunsAside (.invalidationComplete id) s t ∧
      (∀ sl ∈ (s.part n.part).sliceIds, ∀ e ∈ (t.slice sl).stb, n.coversEntry e = false) ∧
      (∀ i h, tget none s.hostReqs i = some h → h.part = n.part → h.pri = false → h.denied = [] →
        n.covers (h.page * 4096) 4096 false = true → tget none t.hostReqs i = some { h with stale := true }) ∧
      (tget none t.invals id).map (fun m => m.dropped) = some true) ∧
    (n.dropped = false → s.noticeUnder n = true → exec (.invalidationComplete id) s = .next (s.later (.invalidationComplete id))) ∧
    (n.dropped = true → n.reqs = [] → n.chunks = [] → ∃ t, RunsAside (.invalidationComplete id) s t ∧ tget none t.invals id = none ∧
      t.out = s.out ++ [.invalDone id])) ∧
  (∀ (s : State) (p pa : Nat) (v : W64),
    ((s.part p).enabled = true → pa % 8 = 0 → (s.part p).inside pa (pa + 8) = true → ∃ t, exec (.writeTableEntry p pa v) s = .next t ∧
      t.rim = rimPut (s.part p) s.rim pa 8 v.toNat ∧ t.host = s.host ∧ t.cores = s.cores) ∧
    ((s.part p).enabled = false ∨ pa % 8 ≠ 0 ∨ (s.part p).inside pa (pa + 8) = false →
      exec (.writeTableEntry p pa v) s = .next (s.emit (.pfRefused p)))) ∧
  (∀ (s : State) (p : Nat) (v : W64) (pcs : List Nat),
    let q : Partition := { base := v.toNat / 2 ^ 28 % 2 ^ 20, pccount := v.toNat / 2 ^ 48 % 2 ^ 14, rimEn := bitAt v 63, pclist := pcs }
    let frames := !bitAt v 63 || ((s.part p).swap ++ (s.part p).shadow).all (frameOk q)
    (s.failed = false → s.allStopped p = true → s.rimpartOk p v pcs = true → frames = true → ∃ t, RunsAside (.rimpartWrite p v pcs) s t ∧
      (t.part p).pclist = pcs ∧ (t.part p).base = q.base ∧ (t.part p).pccount = q.pccount ∧ (t.part p).rimEn = q.rimEn) ∧
    (s.failed = true ∨ s.allStopped p = false ∨ s.rimpartOk p v pcs = false ∨ frames = false → exec (.rimpartWrite p v pcs) s = .next (s.emit (.pfRefused p)))) ∧
  (∀ (s : State) (pc : Nat),
    (pc < 12288 → s.chanTaken 121 pc = false → ∃ t, exec (.pseudoChannelZero pc) s = .next t ∧ t.cores = s.cores ∧ t.host = s.host ∧
      (∀ a, tget 0#8 t.rim a = if pc * 2 ^ 28 ≤ a ∧ a < (pc + 1) * 2 ^ 28 then 0#8 else tget 0#8 s.rim a) ∧ t.chan pc = {}) ∧
    (12288 ≤ pc ∨ s.chanTaken 121 pc = true → exec (.pseudoChannelZero pc) s = .next (s.emit (.pfRefused pc)))) ∧
  (∀ (s : State) (p pa : Nat) (d : PfData),
    ((s.part p).enabled = true → s.allStopped p = true → (s.part p).inside pa (pa + d.bytes.length) = true →
      ∃ t, exec (.physicalFunctionWrite p pa d) s = .next t ∧
      t.rim = rimPut (s.part p) s.rim pa d.bytes.length (leNat d.bytes) ∧
      t.rimTags = (s.putTags (s.part p) pa d.bytes.length d.tags).rimTags ∧ t.host = s.host ∧ t.cores = s.cores) ∧
    ((s.part p).enabled = false ∨ s.allStopped p = false ∨ (s.part p).inside pa (pa + d.bytes.length) = false →
      exec (.physicalFunctionWrite p pa d) s = .next (s.emit (.pfRefused p)))) ∧
  (∀ (s : State) (pc r : Nat) (q : RimReq) (qs : List RimReq), (s.chan pc).queue = q :: qs → q.region = some r →
    let p := (s.region r).part
    let charged (t : State) (n : Nat) : Prop := (t.part p).rimocc = min (2 ^ 64 - 1) ((s.part p).rimocc + n)
    (tget none (s.chan pc).rows (bankOf q.row) = none → ∃ t, RunsAside (.rimCommandIssue pc) s t ∧ charged t 12 ∧
      tget none (t.chan pc).rows (bankOf q.row) = some { row := q.row, region := q.region, last := s.tick } ∧ (t.chan pc).queue = q :: qs) ∧
    (∀ o, tget none (s.chan pc).rows (bankOf q.row) = some o →
      (o.row ≠ q.row → ∃ t, RunsAside (.rimCommandIssue pc) s t ∧ charged t 6 ∧ tget none (t.chan pc).rows (bankOf q.row) = none ∧
        (t.chan pc).queue = q :: qs) ∧
      (o.row = q.row → (s.chan pc).lastWrite = some (!q.write) → ∃ t, RunsAside (.rimCommandIssue pc) s t ∧ charged t 8 ∧
        (t.chan pc).lastWrite = some q.write ∧ (t.chan pc).queue = q :: qs) ∧
      (o.row = q.row → (s.chan pc).lastWrite ≠ some (!q.write) → ∃ t, RunsAside (.rimCommandIssue pc) s t ∧ charged t 4 ∧
        (t.chan pc).queue = qs))) ∧
  (∀ (s : State) (pc : Nat), (s.chan pc).queue = [] → exec (.rimCommandIssue pc) s = .next s) ∧
  (∀ (s : State) (pc bank : Nat),
    (s.rowIdle pc bank = true → ∃ t, RunsAside (.idlePrecharge pc bank) s t ∧ tget none (t.chan pc).rows bank = none) ∧
    (s.rowIdle pc bank = false → exec (.idlePrecharge pc bank) s = .next s) ∧
    (∃ t, RunsAside (.refresh pc) s t ∧ (t.chan pc).rows = [] ∧ (t.chan pc).queue = (s.chan pc).queue)) ∧
  (∀ (s : State) (pa : Nat), ∃ t, RunsAside (.scrub pa) s t ∧
    (t.chan (pa / 2 ^ 28)).queue = (s.chan (pa / 2 ^ 28)).queue ++ [false, true].map fun w =>
      { row := pa % 2 ^ 28 / 1024, write := w, region := none })

/-- R6, R194, R329, R363, R398, R400 to R402, R404, R407, R408, R412, R415, R416: the partition manager's writes take effect where
they may be made and are refused elsewhere: partitions and their clusters, frames, bindings, root regions, stores, registers,
meters and energy. -/
def Obligations.PartitionManagerActs : Prop :=
  (∀ (s : State) (p : Nat) (cls : List Nat) (key : Byte) (v : W64) (pcs : List Nat) (slice : Nat) (swap shadow : List Nat),
    (s.configOk p cls key v pcs slice swap shadow = true → ∃ t, exec (.configurePartition p cls key v pcs slice swap shadow) s = .next t ∧
      t.cores = s.cores ∧ SameMemory s t ∧ (t.part p).enabled = true ∧ (t.part p).key = key ∧
      (∀ f ∈ (t.part p).swap, f ∈ swap) ∧ (∀ f ∈ (t.part p).shadow, f ∈ shadow) ∧
      (s.framesInUse p = [] → s.held = [] → (∀ sl, (s.slice sl).staging = [] ∧ (s.slice sl).frames = []) →
        (t.part p).swap = swap ∧ (t.part p).shadow = shadow) ∧ (t.part p).ops = 0 ∧ (t.part p).rimocc = 0 ∧ (t.part p).hostb = 0 ∧ (t.part p).seq = 0 ∧
      (t.part p).pclist = pcs ∧ (t.part p).clusters = sortOn id cls ∧ (t.part p).records.length = 1) ∧
    (s.configOk p cls key v pcs slice swap shadow = false →
      exec (.configurePartition p cls key v pcs slice swap shadow) s = .next (s.emit (.pfRefused p)))) ∧
  (∀ (s : State) (p cl : Nat), s.failed = false → (s.part p).enabled = true → s.allStopped p = true →
    (cl < 121 → s.clusterTaken 121 cl = false → (s.cluster cl).ready = 1 → ∃ t, RunsAside (.addCluster p cl) s t ∧
      tget none t.drains s.seq = some (.cluMove p cl true) ∧ t.agenda = s.agenda ++ [.event (.drainReceipt s.seq)]) ∧
    (s.clusterTaken 121 cl = true → exec (.addCluster p cl) s = .next (s.emit (.pfRefused p))) ∧
    (cl ∈ (s.part p).clusters → 2 ≤ (s.part p).clusters.length → ∃ t, RunsAside (.removeCluster p cl) s t ∧
      tget none t.drains s.seq = some (.cluMove p cl false) ∧ t.agenda = s.agenda ++ [.event (.drainReceipt s.seq)]) ∧
    (cl ∉ (s.part p).clusters → exec (.removeCluster p cl) s = .next (s.emit (.pfRefused p)))) ∧
  (∀ (s : State) (p : Nat), (s.part p).enabled = true →
    (s.allEnded p = true → ∃ t, RunsAside (.disablePartition p) s t ∧ tget none t.drains s.seq = some (.disable p)) ∧
    (s.allEnded p = false → exec (.disablePartition p) s = .next (s.emit (.pfRefused p))) ∧
    ∀ fs, (s.failed = false → (fs.all fun f => frameOk (s.part p) f) = true →
        (∃ t, RunsAside (.addSwapFrames p fs) s t ∧ (t.part p).swap = (s.part p).swap ++ fs) ∧
        ∃ t, RunsAside (.addShadowFrames p fs) s t ∧ (t.part p).shadow = (s.part p).shadow ++ fs) ∧
      (s.failed = true ∨ (fs.all fun f => frameOk (s.part p) f) = false → exec (.addSwapFrames p fs) s = .next (s.emit (.pfRefused p)) ∧
        exec (.addShadowFrames p fs) s = .next (s.emit (.pfRefused p)))) ∧
  (∀ (s : State) (v port p root : Nat), s.boundLive v = false →
    (s.failed = false → v < 1024 → port < 4 → p ≤ 120 → s.regionAt p root = none → ∃ t, RunsAside (.bindVf v port p root) s t ∧
      t.vf v = { s.vf v with port := port, part := p, root := root, en := true }) ∧
    (s.failed = true ∨ (s.regionAt p root).isSome = true → exec (.bindVf v port p root) s = .next (s.emit (.pfRefused v))) ∧
    ((s.vf v).en = true → ∃ t, RunsAside (.unbindVf v) s t ∧ t.vf v = { s.vf v with en := false })) ∧
  (∀ (s : State) (v : Nat), s.boundLive v = true → (∀ port p root, exec (.bindVf v port p root) s = .next (s.emit (.pfRefused v))) ∧
    exec (.unbindVf v) s = .next (s.emit (.pfRefused v))) ∧
  (∀ (s : State) (p va : Nat) (b : BlockRead), s.failed = false → (s.part p).failed = false → (s.part p).enabled = true → devHalf va = true →
    va % 256 = 0 → s.regionAt p va = none → rootBlock (s.modRegion s.seq fun g => { g with part := p }) p s.seq va = some b →
    (refusedBlock b 0 = 0 → ∃ t, exec (.startRootRegion p va) s = .next t ∧ t.cores = s.cores ∧ (t.region s.seq).launched = true ∧
      (t.region s.seq).part = p ∧ (t.region s.seq).parent = none ∧ (t.region s.seq).st = 0 ∧ (t.region s.seq).blk.va = va ∧
      (t.region s.seq).firstDue = true) ∧
    (refusedBlock b 0 ≠ 0 → exec (.startRootRegion p va) s = .next (s.emit (.pfRefused p)))) ∧
  (∀ (s : State) (v : Nat) (x : W64),
    (v < 1024 → (s.vf v).en = false → ∃ t, RunsAside (.writeVfEnergy v x) s t ∧ t.vf v = { s.vf v with energy := x.toNat }) ∧
    ((s.vf v).en = true → exec (.writeVfEnergy v x) s = .next (s.emit (.pfRefused v)))) ∧
  (∀ (s : State) (reg : PfReg) (v : W64), s.failed = true → exec (.registerWrite reg v) s = .next (s.emit (.pfRefused 0))) ∧
  (∀ (s : State) (p : Nat) (v : W64), s.failed = false → (∃ t, RunsAside (.registerWrite (.ptroot p) v) s t ∧ t.part p = { s.part p with ptroot := v }) ∧
    (∀ site slot, site < 15488 → slot < 4 → 0 < v.toNat → v.toNat < 2 ^ 32 →
      ∃ t, RunsAside (.registerWrite (.slice site slot) v) s t ∧ (t.tile site).sliceOf slot = v.toNat) ∧
    (∀ site slot, v = 0#64 → exec (.registerWrite (.slice site slot) v) s = .next (s.emit (.pfRefused site)))) ∧
  (∀ (s : State) (site : Nat) (bytes : List Byte), site < 15488 → bytes.length ≤ 65536 →
    ∃ t, RunsAside (.monitorStoreLoad site bytes) s t ∧ (t.tile site).loaded = true ∧ (t.tile site).stage.c = [] ∧ (t.tile site).compute.c = [] ∧
      ∀ i, i < 65536 → tget 0#8 (t.tile site).store i = bytes.getD i 0#8) ∧
  (∀ (s : State) (p : Nat),
    (s.snapshotDue p = true → ∃ t, RunsAside (.meterSnapshot p) s t ∧ (t.part p).seq = (s.part p).seq + 1 ∧
      (t.part p).records.getLast? = some (s.meterRecord p ((s.part p).seq + 1)) ∧
      (t.part p).chain = leNat (sha384 (leBytes 48 (s.part p).chain ++ s.meterRecord p ((s.part p).seq + 1)))) ∧
    (s.snapshotDue p = false → exec (.meterSnapshot p) s = .next s)) ∧
  (∀ (s : State) (p cl u : Nat), (s.part p).clusters = [cl] → (s.part p).enperiod ≠ 0 →
    ((s.part p).enFrom + (s.part p).enperiod ≤ s.tick →
      ((s.cluster cl).cycles = [] → (s.residents fun i => clusterOf i == cl) = [] → ∃ t, RunsAside (.energyPeriodEnd p [u]) s t ∧
        (t.part p).idleEnergy = (s.part p).idleEnergy + u ∧ (t.part p).enFrom = (s.part p).enFrom + (s.part p).enperiod) ∧
      ∀ r n v, (s.cluster cl).cycles = [(r, n)] → 0 < n → s.vfOf r = some v → ∃ t, RunsAside (.energyPeriodEnd p [u]) s t ∧
        (t.vf v).energy = (s.vf v).energy + u ∧ (t.part p).idleEnergy = (s.part p).idleEnergy ∧ (t.cluster cl).cycles = []) ∧
    (s.tick < (s.part p).enFrom + (s.part p).enperiod → exec (.energyPeriodEnd p [u]) s = .next s))

/-- R6, R18, R19, R394, R409, R417, R418, R422, R423, R435, R436: module reset clears everything but the host's memory and what has
left the module; units report ready; a cluster's word joins the pool, in which a retest clears bits alone; the lid latches OPENED;
a checkpoint asks for its receipt, and a restore puts its image back, with what the slices held; rails and droop change the clock
from the next tick on. What the image holds beside rim memory, and its place, are the model's (log entries 16, 36, 39, 40 and 79). -/
def Obligations.BringUpAndClocks : Prop :=
  (∀ s : State, ∃ t, exec .moduleReset s = .next t ∧ t.host = s.host ∧ t.out = s.out ∧ t.rim = [] ∧ t.cores = [] ∧ t.ctxs = [] ∧ t.regions = [] ∧
    t.parts = [] ∧ t.vfs = [] ∧ t.clusters = [] ∧ t.tick = 0 ∧ t.lidOpened = false ∧ t.agenda = []) ∧
  (∀ (s : State) (cl : Nat) (w : W128), cl < 121 → perCluster ≤ goodTiles (if (s.cluster cl).ready = 0 then w else (s.cluster cl).pool &&& w) →
    (s.cluster cl).ready = 0 ∨ (s.cluster cl).ready = 3 → ∃ t, exec (.clusterSelfTestDone cl w) s = .next t ∧ SameMemory s t ∧
      (t.cluster cl).ready = 1 ∧ (t.cluster cl).pool = if (s.cluster cl).ready = 0 then w else (s.cluster cl).pool &&& w) ∧
  (∀ (s : State) (port : Nat) (ok : Bool), port < 4 →
    (∃ t, RunsAside (.hostPortReady port ok) s t ∧ (t.port port).ready = (if ok then 1 else 2) ∧
      (ok = true → t.out = s.out ++ [.subsystem port subsystemId])) ∧
    ∃ t, RunsAside (.hostPortLinkDown port) s t ∧ (t.port port).ready = 0) ∧
  (∀ (s : State) (stack : Nat) (ok : Bool), stack < 48 → tget 0 s.hbm stack = 0 → ∃ t, exec (.hbmStackReady stack ok) s = .next t ∧
    t.cores = s.cores ∧ t.host = s.host ∧ tget 0 t.hbm stack = (if ok then 1 else 2) ∧
    ∀ a, tget 0#8 t.rim a = if ok = true ∧ stack * 2 ^ 36 ≤ a ∧ a < (stack + 1) * 2 ^ 36 then 0#8 else tget 0#8 s.rim a) ∧
  (∀ (s : State) (port : Nat) (ok : Bool), port < 16 → ∃ t, RunsAside (.kwelinkPortReady port ok) s t ∧
    (t.kport port).ready = if ok then 1 else 2) ∧
  (∀ (s : State) (o n : Bool), ∃ t, RunsAside (.lidEvent o n) s t ∧ t.lidOpen = o ∧ t.lidSensor = n ∧ t.lidOpened = (s.lidOpened || o)) ∧
  (∀ s : State, ∃ t, RunsAside .checkpoint s t ∧ tget none t.drains s.seq = some .checkpoint ∧
    t.agenda = s.agenda ++ [.event (.drainReceipt s.seq)]) ∧
  (∀ (s : State) (i : Image), s.image = some i →
    (s.failed = false → (s.ctxs.all fun e => e.2.st != 1 && e.2.st != 3) = true → ∃ t, exec .restore s = .next t ∧ t.rim = i.rim ∧ t.rimTags = i.tags ∧
      t.ctxs = i.ctxs ∧ t.cores = i.cores ∧ t.regions = i.regions ∧ t.host = s.host ∧ t.held = i.held ∧
      ((i.slices.map (·.1)).Nodup → ∀ e ∈ i.slices, (t.slice e.1).staging = e.2.1 ∧ (t.slice e.1).frames = e.2.2.1)) ∧
    (s.failed = true ∨ (s.ctxs.all fun e => e.2.st != 1 && e.2.st != 3) = false → exec .restore s = .next (s.emit (.pfRefused 0)))) ∧
  (∀ (s : State) (rail mv m : Nat),
    (rail < 64 → 8 ≤ m → m ≤ 16 → ∃ t, RunsAside (.railSettingWrite rail mv m) s t ∧ (t.rail rail).mv = some mv ∧
      (t.rail rail).next = some m ∧ (t.rail rail).m = (s.rail rail).m) ∧
    (64 ≤ rail ∨ m < 8 ∨ 16 < m → exec (.railSettingWrite rail mv m) s = .next (s.emit (.pfRefused rail)))) ∧
  (∀ (s : State) (cl rail : Nat), cl < 121 → rail / 4 = powerRegion cl →
    let free := s.ctxs.all fun e => (clusterOf e.2.site != cl && e.2.shadow.all fun n => clusterOf (n / 4) != cl) || s.stopped e.1
    (free = true → ∃ t, RunsAside (.clusterSwitchWrite cl rail) s t ∧ (t.cluster cl).rail = some rail) ∧
    (free = false → exec (.clusterSwitchWrite cl rail) s = .next (s.emit (.pfRefused cl)))) ∧
  (∀ (s : State) (cl sag : Nat), 0 < (s.cluster cl).th →
    ((s.cluster cl).th ≤ sag → ∃ t, RunsAside (.droopAlarm cl sag) s t ∧ (t.cluster cl).alarm = true ∧
      (t.cluster cl).alarms = min 65535 ((s.cluster cl).alarms + 1) ∧
      (t.cluster cl).stretch = (if 1 < (s.cluster cl).stretch then (s.cluster cl).stretch else 7)) ∧
    (sag < (s.cluster cl).th → exec (.droopAlarm cl sag) s = .next s)) ∧
  (∀ (s : State) (cl : Nat),
    ((s.cluster cl).stretch = 1 → ∃ t, RunsAside (.stretchEnd cl) s t ∧ (t.cluster cl).stretch = 0 ∧ (t.cluster cl).halved = 65) ∧
    ((s.cluster cl).stretch ≠ 1 → exec (.stretchEnd cl) s = .next s) ∧
    ((s.cluster cl).halved = 1 → ∃ t, RunsAside (.halvedIssueEnd cl) s t ∧ (t.cluster cl).halved = 0) ∧
    ((s.cluster cl).halved ≠ 1 → exec (.halvedIssueEnd cl) s = .next s))

/-- R402, R426 to R434: doorbells, rings, fences, acquires and CXL.mem accesses of a bound VF; an unbound VF's window takes nothing.
KweLink ports carry, hold, replay and lose entries, and a joined module's enter the window; vectors raise MSI-X or their pending
bits. How an entry crosses a link and the layout of the MSI-X table are the model's (log entries 30 and 91). -/
def Obligations.HostWindowsAct : Prop :=
  (∀ (s : State) (v : Nat) (x : W64), (s.vf v).en = true →
    (∃ t, RunsAside (.hqtailDoorbell v x) s t ∧ (t.vf v).hqtail = x.toNat % 65536 ∧ t.agenda = s.agenda ++ [.event (.hqEntryTake v)]) ∧
    (∃ t, RunsAside (.hqbaseWrite v x) s t ∧ (t.vf v).hqbase = ringWrite (s.vf v).hqbase x (s.vf v).hqhead (s.vf v).hqtail) ∧
    (∃ t, RunsAside (.dqbaseWrite v x) s t ∧ (t.vf v).dqbase = ringWrite (s.vf v).dqbase x (s.vf v).dqhead (s.vf v).dqtail) ∧
    (∃ t, RunsAside (.dqheadWrite v x) s t ∧ (t.vf v).dqhead = x.toNat % 65536) ∧
    ∃ t, RunsAside (.hacq v x) s t ∧ (t.vf v).hacq = (s.vf v).hacq ++ [x.toNat] ∧ t.agenda = s.agenda ++ [.event (.hacqComplete v)]) ∧
  (∀ (s : State) (v : Nat) (x : W64) (e : Instr), (s.vf v).en = false →
    e ∈ [.hqtailDoorbell v x, .hqbaseWrite v x, .dqbaseWrite v x, .dqheadWrite v x, .hacq v x] → exec e s = .next s) ∧
  (∀ (s : State) (v r : Nat), s.rootLive v = some r → s.inFlight (windowSource v) = false → (s.vf v).linkIn = [] →
    (s.vf v).route = none → ringOn (s.vf v).hqbase = true →
    let f := s.vf v
    let i := f.hqhead % ringSize f.hqbase
    let x := tread s.host (ringAt f.hqbase i) 128
    i ≠ f.hqtail % ringSize f.hqbase →
    (hqReserved x = true ∨ s.gridSize r ≤ x % 2 ^ 24 → ∃ t, RunsAside (.hqEntryTake v) s t ∧
      (t.vf v).hqhead = (f.hqhead + 1) % ringSize f.hqbase ∧ (t.vf v).fences = f.fences ∧
      ∃ m, tget none t.flight s.seq = some m ∧ m.toHost = true ∧ m.hdl = 0xFE#8 ∧ m.vf = v ∧ stampTick m.tail = i) ∧
    (hqReserved x = false → x % 2 ^ 24 < s.gridSize r →
      (x / 2 ^ 40 % 2 = 1 → ∃ t, RunsAside (.hqEntryTake v) s t ∧ (t.vf v).fences = f.fences ++ [(x / 2 ^ 64 % 2 ^ 32, i, f.taken)] ∧
        (t.vf v).hqhead = (f.hqhead + 1) % ringSize f.hqbase) ∧
      (x / 2 ^ 40 % 2 = 0 → ∃ t, RunsAside (.hqEntryTake v) s t ∧
        tget none t.flight s.seq = some (hqMsg v f r x f.bellFor) ∧ (t.vf v).hqhead = f.hqhead))) ∧
  (∀ (s : State) (v r : Nat) (e : List Byte) (es : List (List Byte)), s.rootLive v = some r → s.inFlight (windowSource v) = false →
    (s.vf v).linkIn = e :: es → leNat e % 2 ^ 24 < s.gridSize r → ∃ t, RunsAside (.hqEntryTake v) s t ∧
      tget none t.flight s.seq = some (hqMsg v (s.vf v) r (leNat e) 0) ∧ (t.vf v).fromLink = true) ∧
  (∀ (s : State) (v port remote : Nat) (e : List Byte) (x : W64), s.failed = false → (s.vf v).en = true → (s.vf v).route = some (port, remote) →
    ∃ t, RunsAside (.registerWrite (.linkEntry port v e) x) s t ∧ (t.vf v).linkIn = (s.vf v).linkIn ++ [e] ∧
      t.agenda = s.agenda ++ [.event (.hqEntryTake v)]) ∧
  (∀ (s : State) (id v port remote : Nat) (m : Msg), tget none s.flight id = some m → m.toHost = true → noCore ≤ m.source → s.windowOf m = some v →
    (s.vf v).route = some (port, remote) →
    let k := s.kport port
    (k.retrain = none → k.down = false → k.held = [] → ∃ t, RunsAside (.messageArrival id) s t ∧
      t.out = s.out ++ [.kwelink port remote (dqEntry m)] ∧ tget none t.flight id = none) ∧
    (k.retrain.isSome = true → 128 * (k.held.length + 1) ≤ 65536 → ∃ t, RunsAside (.messageArrival id) s t ∧ t.out = s.out ∧
      (t.kport port).held = k.held ++ [(v, dqEntry m)]) ∧
    (k.retrain.isSome = true → 65536 < 128 * (k.held.length + 1) → exec (.messageArrival id) s = .next s)) ∧
  (∀ (s : State) (v : Nat), s.rootLive v = none → exec (.hqEntryTake v) s = .next s) ∧
  (∀ (s : State) (v r q i n : Nat) (l : List (Nat × Nat × Nat)), s.rootLive v = some r → (s.vf v).fences = (q, i, n) :: l →
    (s.vf v).fenceReady = true → ∃ t, RunsAside (.fenceComplete v) s t ∧ (t.vf v).fencedone = BitVec.ofNat 32 q ∧ (t.vf v).fences = l ∧
      (t.region r).fences = (s.region r).fences ++ [(q, i)] ∧
      let e := tget (0#64, 0#32) (s.vf v).msix 2
      (bitAt (s.vf v).mask 2 = true → bitAt (t.vf v).pba 2 = true ∧ t.out = s.out) ∧
      (bitAt (s.vf v).mask 2 = false → (t.vf v).pba = (s.vf v).pba ∧ t.out = s.out ++ [.msix v 2 e.1 e.2])) ∧
  (∀ (s : State) (v vec : Nat) (x : W64), s.failed = false → (s.vf v).en = true → vec < 4 →
    let e := tget (0#64, 0#32) (s.vf v).msix vec
    (∃ t, RunsAside (.registerWrite (.msixAddr v vec) x) s t ∧ tget (0#64, 0#32) (t.vf v).msix vec = (x, e.2) ∧
      t.windowRead v (0x2000 + 16 * vec) = x.toNat) ∧
    (∃ t, RunsAside (.registerWrite (.msixData v vec) x) s t ∧ tget (0#64, 0#32) (t.vf v).msix vec = (e.1, x.truncate 32) ∧
      t.windowRead v (0x2008 + 16 * vec) % 2 ^ 32 = x.toNat % 2 ^ 32) ∧
    (bitAt x 0 = true → ∃ t, RunsAside (.registerWrite (.msixMask v vec) x) s t ∧ bitAt (t.vf v).mask vec = true ∧ t.out = s.out) ∧
    (bitAt x 0 = false → ∃ t, RunsAside (.registerWrite (.msixMask v vec) x) s t ∧ bitAt (t.vf v).mask vec = false ∧
      bitAt (t.vf v).pba vec = false ∧ t.out = if bitAt (s.vf v).pba vec then s.out ++ [.msix v vec e.1 e.2] else s.out) ∧
    s.windowRead v 0x3000 = (s.vf v).pba.toNat) ∧
  (∀ (s : State) (v : Nat),
    (s.hacqDue v = true → ∃ t, RunsAside (.hacqComplete v) s t ∧ (t.vf v).hview = stampTick (s.part (s.vf v).part).fp ∧
      (t.vf v).hacq = (s.vf v).hacq.drop 1) ∧
    (s.hacqDue v = false → exec (.hacqComplete v) s = .next s)) ∧
  (∀ (s : State) (v r off : Nat) (data : BitVec 512), s.rootLive v = some r → off < (s.vf v).hdmsize →
    let va := (s.vf v).hdmva + off / 64 * 64
    (∀ pa u y w, translate s (s.vf v).part va .load r (mkStamp (s.vf v).hview 0x1FFFF) .device = (.ok pa, u) →
      u.readPa (s.vf v).part (u.homeOf (s.vf v).part va) pa 64 true r (some (mkStamp (s.vf v).hview 0x1FFFF)) = (some y, w) →
      ∃ t, exec (.cxlMemRead v off) s = .next t ∧ t.cores = w.cores ∧ SameMemory w t ∧
        t.out = w.out ++ [.cxl v off (some (BitVec.ofNat 512 y.1))]) ∧
    ∃ t, RunsAside (.cxlMemWrite v off data) s t ∧ (t.cluster (s.engineOf (s.vf v).part va)).engQ =
      joinQueue (s.cluster (s.engineOf (s.vf v).part va)).engQ
        { who := windowSource v, id := v, line := va / 64, arrival := s.tick, src := 121, org := 0, cxl := some data }) ∧
  (∀ (s : State) (v port remote : Nat), v < 1024 → port < 16 →
    ((s.kport port).ready = 1 → ∃ t, RunsAside (.routeVfKwelink v port remote) s t ∧ (t.vf v).route = some (port, remote)) ∧
    ((s.kport port).ready ≠ 1 → exec (.routeVfKwelink v port remote) s = .next (s.emit (.pfRefused v))) ∧
    ((s.vf v).route = some (port, remote) → ∃ t, RunsAside (.unrouteVf v) s t ∧ (t.vf v).route = none ∧
      (t.kport port).held = (s.kport port).held.filter fun e => e.1 != v) ∧
    ((s.vf v).route = none → exec (.unrouteVf v) s = .next (s.emit (.pfRefused v))) ∧
    (∃ t, RunsAside (.kwelinkLaneLoss port 8) s t ∧ (t.kport port).lanes = 8 ∧ (t.kport port).retrain = some s.tick) ∧
    (∃ t, RunsAside (.kwelinkRetrainDone port) s t ∧ (t.kport port).retrain = none ∧ (t.kport port).held = [] ∧ (t.kport port).down = false ∧
      t.out = s.out ++ (s.kport port).held.map fun e => Out.kwelink port (((s.vf e.1).route.map fun r => r.2).getD e.1) e.2) ∧
    (s.linkLate port = true → ∃ t, RunsAside (.kwelinkDown port) s t ∧ (t.kport port).down = true ∧ t.out = s.out ++ [.pfReport 2 port]) ∧
    (s.linkLate port = false → exec (.kwelinkDown port) s = .next s))

/-- R410, R411: a function answers each SPDM request: version 1.3 alone, its capabilities, ECDSA over P-384 with SHA-384 or an error,
the chain of slot 0 and its digest, a signed challenge, and the measurements its function may read; a request of another version
is an error. The bytes of the answers are log entry 21's, and what the device identity key signs is log entry 11's. -/
def Obligations.SpdmRequestsAreAnswered : Prop :=
  (∀ (s : State) (fn : Nat), ∃ t, RunsAside (.getVersion fn) s t ∧
    t.out = s.out ++ [.spdm fn [0x10#8, 0x04#8, 0#8, 0#8, 0x00#8, 0x01#8, 0x00#8, 0x13#8]]) ∧
  (∀ (s : State) (fn ver slot off len index : Nat) (a b signed : Bool) (nonce : List Byte) (e : Instr),
    e ∈ [.getCapabilities fn ver, .negotiateAlgorithms fn ver a b, .getDigests fn ver, .getCertificate fn ver slot off len,
      .challenge fn ver slot nonce, .getMeasurements fn ver index nonce signed] →
    (ver ≠ 0x13 → exec e s = .next (s.emit (.spdm fn [0x13#8, 0x7F#8, 0x41#8, 0#8]))) ∧
    (ver = 0x13 → ∃ t bs, RunsAside e s t ∧ t.out = s.out ++ [.spdm fn bs])) ∧
  (∀ (s : State) (fn : Nat), exec (.getCapabilities fn 0x13) s =
    .next (s.emit (.spdm fn ([0x13#8, 0x61#8, 0#8, 0#8] ++ Config.capabilities)))) ∧
  (∀ (s : State) (fn : Nat), exec (.negotiateAlgorithms fn 0x13 true true) s =
    .next (s.emit (.spdm fn ([0x13#8, 0x63#8, 0#8, 0#8] ++ leBytes 2 36 ++ [0x01#8, 0#8] ++ leBytes 4 1 ++ leBytes 4 0x80 ++ leBytes 4 2 ++
      List.replicate 16 0#8)))) ∧
  (∀ (s : State) (fn : Nat) (a b : Bool), (a && b) = false →
    exec (.negotiateAlgorithms fn 0x13 a b) s = .next (s.emit (.spdm fn [0x13#8, 0x7F#8, 0x01#8, 0#8]))) ∧
  (∀ (s : State) (fn : Nat), exec (.getDigests fn 0x13) s =
    .next (s.emit (.spdm fn ([0x13#8, 0x01#8, 0#8, 0x01#8] ++ sha384 Config.certificate)))) ∧
  (∀ (s : State) (fn off len : Nat), off < Config.certificate.length →
    let part := (Config.certificate.drop off).take len
    exec (.getCertificate fn 0x13 0 off len) s = .next (s.emit (.spdm fn ([0x13#8, 0x02#8, 0#8, 0#8] ++ leBytes 2 part.length ++
      leBytes 2 (Config.certificate.length - off - part.length) ++ part)))) ∧
  (∀ (s : State) (fn slot : Nat) (nonce : List Byte),
    (slot = 0 → ∃ t fresh, RunsAside (.challenge fn 0x13 slot nonce) s t ∧ fresh.length = 32 ∧
      let body := [0x13#8, 0x03#8, 0#8, 0x01#8] ++ sha384 Config.certificate ++ fresh ++ [0#8, 0#8]
      t.out = s.out ++ [.spdm fn (body ++ Config.sign (nonce ++ body))]) ∧
    (slot ≠ 0 → exec (.challenge fn 0x13 slot nonce) s = .next (s.emit (.spdm fn [0x13#8, 0x7F#8, 0x01#8, 0#8])))) ∧
  (∀ (s : State) (fn slot off len : Nat), slot ≠ 0 ∨ Config.certificate.length ≤ off →
    exec (.getCertificate fn 0x13 slot off len) s = .next (s.emit (.spdm fn [0x13#8, 0x7F#8, 0x01#8, 0#8]))) ∧
  (∀ (s : State) (fn index : Nat) (nonce : List Byte) (signed : Bool), s.measurement fn index = none →
    exec (.getMeasurements fn 0x13 index nonce signed) s = .next (s.emit (.spdm fn [0x13#8, 0x7F#8, 0x01#8, 0#8]))) ∧
  (∀ (s : State) (v index : Nat), v < 1024 → (s.vf v).en = true →
    (index = 0x10 → (s.part (s.vf v).part).records ≠ [] → s.measurement v index =
      some (((s.part (s.vf v).part).records.getLast?).getD [] ++ leBytes 48 (s.part (s.vf v).part).chain)) ∧
    (0x12 ≤ index → s.measurement v index = none)) ∧
  (∀ (s : State) (fn : Nat) (bytes : List Byte),
    (bytes.head? = some 0x13#8 → exec (.spdmSessionMessage fn bytes) s = .next (s.emit (.spdm fn (Config.session bytes)))) ∧
    (bytes.head? ≠ some 0x13#8 → exec (.spdmSessionMessage fn bytes) s = .next (s.emit (.spdm fn [0x13#8, 0x7F#8, 0x41#8, 0#8]))))

/-- R6, R18, R53, R206, R213 to R216, R292, R324, R329, R382, R409, R418, R419, R422, R435: what module reset leaves. No unit is
ready, no partition enabled, no function bound; every tile's slices are 270,000 ticks, its registers, maps and terms zero, its
monitor registers null and its cores out of monitor mode; licences are FREE, a cluster's budget is 896 and its threshold 40, each
power region's clusters hang on its rail 0 at its nominal voltage and ratio 16, and the steal generators hold their seeds. That
rim, host and monitor memory read 0, and that monitor registers whose Reset column gives none hold 0, is the model's choice (log
entries 3, 4). -/
def Obligations.ResetLeavesWhatTheSpecSays : Prop :=
  let s := State.reset
  s.tick = 0 ∧ s.failed = false ∧ s.lidOpened = false ∧ s.agenda = [] ∧ s.memWf = true ∧
  (∀ a, s.rimByte a = 0#8 ∧ s.hostByte a = 0#8) ∧
  (∀ p, (s.part p).enabled = false ∧ (s.vf p).en = false ∧ (s.port p).ready = 0 ∧ tget 0 s.hbm p = 0 ∧ (s.kport p).ready = 0) ∧
  (∀ cl, let c := s.cluster cl
    c.ready = 0 ∧ c.part = none ∧ c.viral = false ∧ c.budget = 896 ∧ c.inuse = 0 ∧ c.th = 40 ∧ c.alarm = false ∧ c.edges = 0 ∧
      s.railOf cl = powerRegion cl * 4 ∧ (s.rail (s.railOf cl)).m = 16 ∧ (s.rail (s.railOf cl)).mv = none) ∧
  (∀ site, let t := s.tile site
    t.accown = 0#64 ∧ t.loaded = false ∧ (∀ j, t.sliceOf j = 270000 ∧ tget none t.slots j = none) ∧
      ∀ n, tget 0 t.sem n = 0 ∧ tget 0 t.ev n = 0 ∧ tget 0#64 t.terms n = 0#64 ∧ tget 0#8 t.store n = 0#8) ∧
  (∀ pair, let l := (s.pair pair).lic
    l.st = 0 ∧ l.holder = none ∧ l.pin = false ∧ l.waiting = [] ∧ l.moving = none) ∧
  (∀ c : CoreId, let m := s.mcore c
    m.mode = false ∧ m.pc = 0 ∧ m.cause = 0 ∧ m.faultva = 0#56 ∧ m.faultinfo = 0#64 ∧ m.trappc = 0#64 ∧ m.trapword = 0#32 ∧
      s.stealState c = BitVec.ofNat 32 (c.site * 2 + bit01 c.compute + 1) ∧ ∀ n, tget ({} : CReg) m.c n = {}) ∧
  (∀ k, (s.core k).act = none ∧ (∀ n, tget ({} : CReg) (s.core k).c n = {} ∧ tget 0#64 (s.core k).f n = 0#64) ∧ (s.ctx (coreCtx k)).st = 0)

/-- R74, R436 and the model's form of memory (log entry 4): whatever step a machine takes, the listing of rim memory by its numbers,
of the host's memory and of a checkpoint's image stays canonical, so that memories that hold the same bytes are the same data. -/
def Obligations.MemoryStaysCanonical : Prop :=
  ∀ s t : State, s.memWf = true → step s = .next t → t.memWf = true
end

