-- ==== Sys2Proof/Laws/Table.lean ====
section
/-! SUPPORT. Laws of sparse tables: a read after a write, other keys untouched, and the canonical form kept. The read laws
hold of every list, canonical or not. -/

namespace Sys2Proof.Machine

open Sys2Proof

variable {α : Type}

@[simp] theorem tget_nil (d : α) (k : Nat) : tget d [] k = d := rfl

theorem tget_tins_same (d v : α) (k : Nat) (t : Tbl α) : tget d (tins k v t) k = v := by
  induction t with
  | nil => simp [tins, tget]
  | cons e t ih =>
    obtain ⟨k', v'⟩ := e
    unfold tins
    split
    · simp [tget]
    · split
      · simp [tget]
      · rw [tget, if_neg (fun h => ‹¬k = k'› h.symm), ih]

theorem tget_tins_other (d v : α) {k k' : Nat} (t : Tbl α) (h : k ≠ k') : tget d (tins k v t) k' = tget d t k' := by
  induction t with
  | nil => simp [tins, tget, h]
  | cons e t ih =>
    obtain ⟨j, w⟩ := e
    unfold tins
    split
    · rw [tget, if_neg h]
    · split
      · subst ‹k = j›; rw [tget, if_neg h, tget, if_neg h]
      · rw [tget, tget, ih]

theorem tget_tdel_same (d : α) (k : Nat) (t : Tbl α) : tget d (tdel k t) k = d := by
  induction t with
  | nil => rfl
  | cons e t ih =>
    obtain ⟨j, w⟩ := e
    unfold tdel at *
    rw [List.filter_cons]
    split
    · rename_i h
      rw [tget, if_neg (by simpa using h), ih]
    · exact ih

theorem tget_tdel_other (d : α) {k k' : Nat} (t : Tbl α) (h : k ≠ k') : tget d (tdel k t) k' = tget d t k' := by
  induction t with
  | nil => rfl
  | cons e t ih =>
    obtain ⟨j, w⟩ := e
    unfold tdel at *
    rw [List.filter_cons]
    split
    · rw [tget, tget, ih]
    · rename_i hj
      rw [ih, tget, if_neg]
      rintro rfl
      exact hj (by simpa using fun hk => h hk.symm)

variable [DecidableEq α]

@[simp] theorem tget_tput_same (d v : α) (k : Nat) (t : Tbl α) : tget d (tput d k v t) k = v := by
  unfold tput
  split
  · rw [tget_tdel_same, ‹v = d›]
  · exact tget_tins_same d v k t

theorem tget_tput_other (d v : α) {k k' : Nat} (t : Tbl α) (h : k ≠ k') : tget d (tput d k v t) k' = tget d t k' := by
  unfold tput
  split
  · exact tget_tdel_other d t h
  · exact tget_tins_other d v t h

theorem tget_tput (d v : α) (k k' : Nat) (t : Tbl α) : tget d (tput d k v t) k' = if k = k' then v else tget d t k' := by
  split
  · subst ‹k = k'›; exact tget_tput_same d v k t
  · exact tget_tput_other d v t ‹_›

/-! The canonical form. -/

/-- The canonical form as a relation between neighbours. -/
theorem Tbl.wf_iff (d : α) (t : Tbl α) :
    Tbl.wf d t = true ↔ (∀ e ∈ t, e.2 ≠ d) ∧ t.Pairwise fun e e' => e.1 < e'.1 := by
  induction t with
  | nil => simp [Tbl.wf]
  | cons e t ih =>
    cases t with
    | nil => simp [Tbl.wf]
    | cons e' t =>
      rw [Tbl.wf, Bool.and_eq_true, Bool.and_eq_true, ih]
      constructor
      · rintro ⟨⟨h1, h2⟩, h3, h4⟩
        refine ⟨?_, ?_⟩
        · intro x hx
          rcases List.mem_cons.1 hx with rfl | hx
          · simpa using h1
          · exact h3 x hx
        · refine List.pairwise_cons.2 ⟨?_, h4⟩
          intro x hx
          have hlt : e.1 < e'.1 := by simpa using h2
          rcases List.mem_cons.1 hx with rfl | hx
          · exact hlt
          · exact lt_trans hlt ((List.pairwise_cons.1 h4).1 x hx)
      · rintro ⟨h1, h2⟩
        have h2' := List.pairwise_cons.1 h2
        refine ⟨⟨by simpa using h1 e (by simp), by simpa using h2'.1 e' (by simp)⟩, ?_, h2'.2⟩
        intro x hx
        exact h1 x (List.mem_cons_of_mem _ hx)

theorem Tbl.wf_filter (d : α) {t : Tbl α} (f : Nat × α → Bool) (h : Tbl.wf d t = true) : Tbl.wf d (t.filter f) = true := by
  rw [Tbl.wf_iff] at *
  exact ⟨fun e he => h.1 e (List.mem_of_mem_filter he), h.2.filter _⟩

omit [DecidableEq α] in
theorem mem_tins {k : Nat} {v : α} {t : Tbl α} {e : Nat × α} (h : e ∈ tins k v t) : e = (k, v) ∨ e ∈ t := by
  induction t with
  | nil => simpa [tins] using h
  | cons x t ih =>
    obtain ⟨j, w⟩ := x
    unfold tins at h
    split at h
    · simpa using h
    · split at h
      · rcases List.mem_cons.1 h with h | h
        · exact .inl h
        · exact .inr (List.mem_cons_of_mem _ h)
      · rcases List.mem_cons.1 h with h | h
        · exact .inr (by simp [h])
        · rcases ih h with h | h
          · exact .inl h
          · exact .inr (List.mem_cons_of_mem _ h)

theorem Tbl.wf_tins (d : α) {v : α} (hv : v ≠ d) (k : Nat) {t : Tbl α} (h : Tbl.wf d t = true) : Tbl.wf d (tins k v t) = true := by
  rw [Tbl.wf_iff] at *
  obtain ⟨h1, h2⟩ := h
  refine ⟨fun e he => ?_, ?_⟩
  · rcases mem_tins he with rfl | he
    · exact hv
    · exact h1 e he
  · clear h1
    induction t with
    | nil => simp [tins]
    | cons x t ih =>
      obtain ⟨j, w⟩ := x
      have hx := List.pairwise_cons.1 h2
      unfold tins
      split
      · refine List.pairwise_cons.2 ⟨?_, h2⟩
        intro e he
        rcases List.mem_cons.1 he with rfl | he
        · assumption
        · exact lt_trans ‹k < j› (hx.1 e he)
      · split
        · subst ‹k = j›
          exact List.pairwise_cons.2 ⟨hx.1, hx.2⟩
        · refine List.pairwise_cons.2 ⟨?_, ih hx.2⟩
          intro e he
          rcases mem_tins he with rfl | he
          · show j < k; omega
          · exact hx.1 e he

theorem Tbl.wf_tput (d v : α) (k : Nat) {t : Tbl α} (h : Tbl.wf d t = true) : Tbl.wf d (tput d k v t) = true := by
  unfold tput
  split
  · exact Tbl.wf_filter d _ h
  · exact Tbl.wf_tins d ‹_› k h

/-- Canonical tables that read alike are equal. -/
theorem Tbl.ext_of_wf (d : α) {t u : Tbl α} (ht : Tbl.wf d t = true) (hu : Tbl.wf d u = true)
    (h : ∀ k, tget d t k = tget d u k) : t = u := by
  have mem_get : ∀ (t : Tbl α), Tbl.wf d t = true → ∀ e : Nat × α, e ∈ t ↔ e.2 ≠ d ∧ tget d t e.1 = e.2 := by
    intro t ht e
    rw [Tbl.wf_iff] at ht
    induction t with
    | nil => simp [tget]; exact fun h h' => h h'.symm
    | cons x t ih =>
      obtain ⟨j, w⟩ := x
      obtain ⟨h1, h2⟩ := ht
      have hx := List.pairwise_cons.1 h2
      have ih := ih ⟨fun e he => h1 e (List.mem_cons_of_mem _ he), hx.2⟩
      rw [List.mem_cons, tget]
      split
      · subst ‹j = e.1›
        constructor
        · rintro (he | he)
          · rw [he]
            exact ⟨h1 _ (by simp), rfl⟩
          · exact absurd (hx.1 e he) (lt_irrefl _)
        · rintro ⟨_, rfl⟩
          exact .inl rfl
      · rename_i hj
        rw [← ih]
        constructor
        · rintro (rfl | he)
          · exact absurd rfl hj
          · exact he
        · exact .inr
  have hset : ∀ e, e ∈ t ↔ e ∈ u := fun e => by rw [mem_get t ht, mem_get u hu, h]
  rw [Tbl.wf_iff] at ht hu
  have nd : ∀ {l : Tbl α}, (l.Pairwise fun e e' => e.1 < e'.1) → l.Nodup := fun hl =>
    hl.imp fun {a b} hab hEq => by subst hEq; exact lt_irrefl _ hab
  have hp : t.Perm u := (List.perm_ext_iff_of_nodup (nd ht.2) (nd hu.2)).2 hset
  exact hp.eq_of_pairwise (fun a b _ _ hab hba => absurd (lt_trans hab hba) (lt_irrefl _)) ht.2 hu.2

/-- A write of a canonical table depends on what it reads as alone. -/
theorem twrite_wf (n a x : Nat) {t : Tbl Byte} (h : Tbl.wf (0#8 : Byte) t = true) : Tbl.wf (0#8 : Byte) (twrite t a n x) = true := by
  induction n generalizing a x t with
  | zero => exact h
  | succ n ih => exact ih _ _ (Tbl.wf_tput _ _ _ h)

end Sys2Proof.Machine
end

