-- ==== Sys2Proof/Laws/State.lean ====
section
/-! SUPPORT. What each update of the state leaves in each field, all by rfl, and what each accessor reads after it. -/

namespace Sys2Proof.Machine

open Sys2Proof

variable (s : State)

/-! modTile -/
@[simp] theorem State.modTile_tick (i : Nat) (f : Tile → Tile) : (s.modTile i f).tick = s.tick := rfl
@[simp] theorem State.modTile_failed (i : Nat) (f : Tile → Tile) : (s.modTile i f).failed = s.failed := rfl
@[simp] theorem State.modTile_ports (i : Nat) (f : Tile → Tile) : (s.modTile i f).ports = s.ports := rfl
@[simp] theorem State.modTile_hbm (i : Nat) (f : Tile → Tile) : (s.modTile i f).hbm = s.hbm := rfl
@[simp] theorem State.modTile_kwe (i : Nat) (f : Tile → Tile) : (s.modTile i f).kwe = s.kwe := rfl
@[simp] theorem State.modTile_lidOpened (i : Nat) (f : Tile → Tile) : (s.modTile i f).lidOpened = s.lidOpened := rfl
@[simp] theorem State.modTile_lidOpen (i : Nat) (f : Tile → Tile) : (s.modTile i f).lidOpen = s.lidOpen := rfl
@[simp] theorem State.modTile_lidSensor (i : Nat) (f : Tile → Tile) : (s.modTile i f).lidSensor = s.lidSensor := rfl
@[simp] theorem State.modTile_rim (i : Nat) (f : Tile → Tile) : (s.modTile i f).rim = s.rim := rfl
@[simp] theorem State.modTile_rimTags (i : Nat) (f : Tile → Tile) : (s.modTile i f).rimTags = s.rimTags := rfl
@[simp] theorem State.modTile_poison (i : Nat) (f : Tile → Tile) : (s.modTile i f).poison = s.poison := rfl
@[simp] theorem State.modTile_host (i : Nat) (f : Tile → Tile) : (s.modTile i f).host = s.host := rfl
@[simp] theorem State.modTile_chans (i : Nat) (f : Tile → Tile) : (s.modTile i f).chans = s.chans := rfl
@[simp] theorem State.modTile_clusters (i : Nat) (f : Tile → Tile) : (s.modTile i f).clusters = s.clusters := rfl
@[simp] theorem State.modTile_slices (i : Nat) (f : Tile → Tile) : (s.modTile i f).slices = s.slices := rfl
theorem State.modTile_tiles (i : Nat) (f : Tile → Tile) : (s.modTile i f).tiles = tput {} i (f (s.tile i)) s.tiles := rfl
@[simp] theorem State.modTile_pairs (i : Nat) (f : Tile → Tile) : (s.modTile i f).pairs = s.pairs := rfl
@[simp] theorem State.modTile_ctxs (i : Nat) (f : Tile → Tile) : (s.modTile i f).ctxs = s.ctxs := rfl
@[simp] theorem State.modTile_cores (i : Nat) (f : Tile → Tile) : (s.modTile i f).cores = s.cores := rfl
@[simp] theorem State.modTile_regions (i : Nat) (f : Tile → Tile) : (s.modTile i f).regions = s.regions := rfl
@[simp] theorem State.modTile_parts (i : Nat) (f : Tile → Tile) : (s.modTile i f).parts = s.parts := rfl
@[simp] theorem State.modTile_vfs (i : Nat) (f : Tile → Tile) : (s.modTile i f).vfs = s.vfs := rfl
@[simp] theorem State.modTile_rails (i : Nat) (f : Tile → Tile) : (s.modTile i f).rails = s.rails := rfl
@[simp] theorem State.modTile_pubs (i : Nat) (f : Tile → Tile) : (s.modTile i f).pubs = s.pubs := rfl
@[simp] theorem State.modTile_held (i : Nat) (f : Tile → Tile) : (s.modTile i f).held = s.held := rfl
@[simp] theorem State.modTile_flying (i : Nat) (f : Tile → Tile) : (s.modTile i f).flying = s.flying := rfl
@[simp] theorem State.modTile_flight (i : Nat) (f : Tile → Tile) : (s.modTile i f).flight = s.flight := rfl
@[simp] theorem State.modTile_hostReqs (i : Nat) (f : Tile → Tile) : (s.modTile i f).hostReqs = s.hostReqs := rfl
@[simp] theorem State.modTile_invals (i : Nat) (f : Tile → Tile) : (s.modTile i f).invals = s.invals := rfl
@[simp] theorem State.modTile_drains (i : Nat) (f : Tile → Tile) : (s.modTile i f).drains = s.drains := rfl
@[simp] theorem State.modTile_glide (i : Nat) (f : Tile → Tile) : (s.modTile i f).glide = s.glide := rfl
@[simp] theorem State.modTile_killTicks (i : Nat) (f : Tile → Tile) : (s.modTile i f).killTicks = s.killTicks := rfl
@[simp] theorem State.modTile_image (i : Nat) (f : Tile → Tile) : (s.modTile i f).image = s.image := rfl
@[simp] theorem State.modTile_out (i : Nat) (f : Tile → Tile) : (s.modTile i f).out = s.out := rfl
@[simp] theorem State.modTile_agenda (i : Nat) (f : Tile → Tile) : (s.modTile i f).agenda = s.agenda := rfl
@[simp] theorem State.modTile_edging (i : Nat) (f : Tile → Tile) : (s.modTile i f).edging = s.edging := rfl
@[simp] theorem State.modTile_focus (i : Nat) (f : Tile → Tile) : (s.modTile i f).focus = s.focus := rfl
@[simp] theorem State.modTile_seq (i : Nat) (f : Tile → Tile) : (s.modTile i f).seq = s.seq := rfl
@[simp] theorem State.modTile_freeCtr (i : Nat) (f : Tile → Tile) : (s.modTile i f).freeCtr = s.freeCtr := rfl
@[simp] theorem State.modTile_pair (i : Nat) (f : Tile → Tile) (j : Nat) : (s.modTile i f).pair j = s.pair j := rfl
@[simp] theorem State.modTile_cluster (i : Nat) (f : Tile → Tile) (j : Nat) : (s.modTile i f).cluster j = s.cluster j := rfl
@[simp] theorem State.modTile_slice (i : Nat) (f : Tile → Tile) (j : Nat) : (s.modTile i f).slice j = s.slice j := rfl
@[simp] theorem State.modTile_ctx (i : Nat) (f : Tile → Tile) (j : Nat) : (s.modTile i f).ctx j = s.ctx j := rfl
@[simp] theorem State.modTile_core (i : Nat) (f : Tile → Tile) (j : Nat) : (s.modTile i f).core j = s.core j := rfl
@[simp] theorem State.modTile_region (i : Nat) (f : Tile → Tile) (j : Nat) : (s.modTile i f).region j = s.region j := rfl
@[simp] theorem State.modTile_part (i : Nat) (f : Tile → Tile) (j : Nat) : (s.modTile i f).part j = s.part j := rfl
@[simp] theorem State.modTile_vf (i : Nat) (f : Tile → Tile) (j : Nat) : (s.modTile i f).vf j = s.vf j := rfl
@[simp] theorem State.modTile_chan (i : Nat) (f : Tile → Tile) (j : Nat) : (s.modTile i f).chan j = s.chan j := rfl
@[simp] theorem State.modTile_port (i : Nat) (f : Tile → Tile) (j : Nat) : (s.modTile i f).port j = s.port j := rfl
@[simp] theorem State.modTile_rail (i : Nat) (f : Tile → Tile) (j : Nat) : (s.modTile i f).rail j = s.rail j := rfl
@[simp] theorem State.modTile_pub (i : Nat) (f : Tile → Tile) (j : Nat) : (s.modTile i f).pub j = s.pub j := rfl
@[simp] theorem State.modTile_kport (i : Nat) (f : Tile → Tile) (j : Nat) : (s.modTile i f).kport j = s.kport j := rfl
theorem State.modTile_tile (i : Nat) (f : Tile → Tile) (j : Nat) : (s.modTile i f).tile j = if i = j then f (s.tile i) else s.tile j := tget_tput _ _ _ _ _
@[simp] theorem State.modTile_tile_same (i : Nat) (f : Tile → Tile) : (s.modTile i f).tile i = f (s.tile i) := tget_tput_same _ _ _ _
theorem State.modTile_tile_other (i : Nat) (f : Tile → Tile) (j : Nat) (h : i ≠ j) : (s.modTile i f).tile j = s.tile j := tget_tput_other _ _ _ h

/-! modPair -/
@[simp] theorem State.modPair_tick (i : Nat) (f : Pair → Pair) : (s.modPair i f).tick = s.tick := rfl
@[simp] theorem State.modPair_failed (i : Nat) (f : Pair → Pair) : (s.modPair i f).failed = s.failed := rfl
@[simp] theorem State.modPair_ports (i : Nat) (f : Pair → Pair) : (s.modPair i f).ports = s.ports := rfl
@[simp] theorem State.modPair_hbm (i : Nat) (f : Pair → Pair) : (s.modPair i f).hbm = s.hbm := rfl
@[simp] theorem State.modPair_kwe (i : Nat) (f : Pair → Pair) : (s.modPair i f).kwe = s.kwe := rfl
@[simp] theorem State.modPair_lidOpened (i : Nat) (f : Pair → Pair) : (s.modPair i f).lidOpened = s.lidOpened := rfl
@[simp] theorem State.modPair_lidOpen (i : Nat) (f : Pair → Pair) : (s.modPair i f).lidOpen = s.lidOpen := rfl
@[simp] theorem State.modPair_lidSensor (i : Nat) (f : Pair → Pair) : (s.modPair i f).lidSensor = s.lidSensor := rfl
@[simp] theorem State.modPair_rim (i : Nat) (f : Pair → Pair) : (s.modPair i f).rim = s.rim := rfl
@[simp] theorem State.modPair_rimTags (i : Nat) (f : Pair → Pair) : (s.modPair i f).rimTags = s.rimTags := rfl
@[simp] theorem State.modPair_poison (i : Nat) (f : Pair → Pair) : (s.modPair i f).poison = s.poison := rfl
@[simp] theorem State.modPair_host (i : Nat) (f : Pair → Pair) : (s.modPair i f).host = s.host := rfl
@[simp] theorem State.modPair_chans (i : Nat) (f : Pair → Pair) : (s.modPair i f).chans = s.chans := rfl
@[simp] theorem State.modPair_clusters (i : Nat) (f : Pair → Pair) : (s.modPair i f).clusters = s.clusters := rfl
@[simp] theorem State.modPair_slices (i : Nat) (f : Pair → Pair) : (s.modPair i f).slices = s.slices := rfl
@[simp] theorem State.modPair_tiles (i : Nat) (f : Pair → Pair) : (s.modPair i f).tiles = s.tiles := rfl
theorem State.modPair_pairs (i : Nat) (f : Pair → Pair) : (s.modPair i f).pairs = tput {} i (f (s.pair i)) s.pairs := rfl
@[simp] theorem State.modPair_ctxs (i : Nat) (f : Pair → Pair) : (s.modPair i f).ctxs = s.ctxs := rfl
@[simp] theorem State.modPair_cores (i : Nat) (f : Pair → Pair) : (s.modPair i f).cores = s.cores := rfl
@[simp] theorem State.modPair_regions (i : Nat) (f : Pair → Pair) : (s.modPair i f).regions = s.regions := rfl
@[simp] theorem State.modPair_parts (i : Nat) (f : Pair → Pair) : (s.modPair i f).parts = s.parts := rfl
@[simp] theorem State.modPair_vfs (i : Nat) (f : Pair → Pair) : (s.modPair i f).vfs = s.vfs := rfl
@[simp] theorem State.modPair_rails (i : Nat) (f : Pair → Pair) : (s.modPair i f).rails = s.rails := rfl
@[simp] theorem State.modPair_pubs (i : Nat) (f : Pair → Pair) : (s.modPair i f).pubs = s.pubs := rfl
@[simp] theorem State.modPair_held (i : Nat) (f : Pair → Pair) : (s.modPair i f).held = s.held := rfl
@[simp] theorem State.modPair_flying (i : Nat) (f : Pair → Pair) : (s.modPair i f).flying = s.flying := rfl
@[simp] theorem State.modPair_flight (i : Nat) (f : Pair → Pair) : (s.modPair i f).flight = s.flight := rfl
@[simp] theorem State.modPair_hostReqs (i : Nat) (f : Pair → Pair) : (s.modPair i f).hostReqs = s.hostReqs := rfl
@[simp] theorem State.modPair_invals (i : Nat) (f : Pair → Pair) : (s.modPair i f).invals = s.invals := rfl
@[simp] theorem State.modPair_drains (i : Nat) (f : Pair → Pair) : (s.modPair i f).drains = s.drains := rfl
@[simp] theorem State.modPair_glide (i : Nat) (f : Pair → Pair) : (s.modPair i f).glide = s.glide := rfl
@[simp] theorem State.modPair_killTicks (i : Nat) (f : Pair → Pair) : (s.modPair i f).killTicks = s.killTicks := rfl
@[simp] theorem State.modPair_image (i : Nat) (f : Pair → Pair) : (s.modPair i f).image = s.image := rfl
@[simp] theorem State.modPair_out (i : Nat) (f : Pair → Pair) : (s.modPair i f).out = s.out := rfl
@[simp] theorem State.modPair_agenda (i : Nat) (f : Pair → Pair) : (s.modPair i f).agenda = s.agenda := rfl
@[simp] theorem State.modPair_edging (i : Nat) (f : Pair → Pair) : (s.modPair i f).edging = s.edging := rfl
@[simp] theorem State.modPair_focus (i : Nat) (f : Pair → Pair) : (s.modPair i f).focus = s.focus := rfl
@[simp] theorem State.modPair_seq (i : Nat) (f : Pair → Pair) : (s.modPair i f).seq = s.seq := rfl
@[simp] theorem State.modPair_freeCtr (i : Nat) (f : Pair → Pair) : (s.modPair i f).freeCtr = s.freeCtr := rfl
@[simp] theorem State.modPair_tile (i : Nat) (f : Pair → Pair) (j : Nat) : (s.modPair i f).tile j = s.tile j := rfl
@[simp] theorem State.modPair_cluster (i : Nat) (f : Pair → Pair) (j : Nat) : (s.modPair i f).cluster j = s.cluster j := rfl
@[simp] theorem State.modPair_slice (i : Nat) (f : Pair → Pair) (j : Nat) : (s.modPair i f).slice j = s.slice j := rfl
@[simp] theorem State.modPair_ctx (i : Nat) (f : Pair → Pair) (j : Nat) : (s.modPair i f).ctx j = s.ctx j := rfl
@[simp] theorem State.modPair_core (i : Nat) (f : Pair → Pair) (j : Nat) : (s.modPair i f).core j = s.core j := rfl
@[simp] theorem State.modPair_region (i : Nat) (f : Pair → Pair) (j : Nat) : (s.modPair i f).region j = s.region j := rfl
@[simp] theorem State.modPair_part (i : Nat) (f : Pair → Pair) (j : Nat) : (s.modPair i f).part j = s.part j := rfl
@[simp] theorem State.modPair_vf (i : Nat) (f : Pair → Pair) (j : Nat) : (s.modPair i f).vf j = s.vf j := rfl
@[simp] theorem State.modPair_chan (i : Nat) (f : Pair → Pair) (j : Nat) : (s.modPair i f).chan j = s.chan j := rfl
@[simp] theorem State.modPair_port (i : Nat) (f : Pair → Pair) (j : Nat) : (s.modPair i f).port j = s.port j := rfl
@[simp] theorem State.modPair_rail (i : Nat) (f : Pair → Pair) (j : Nat) : (s.modPair i f).rail j = s.rail j := rfl
@[simp] theorem State.modPair_pub (i : Nat) (f : Pair → Pair) (j : Nat) : (s.modPair i f).pub j = s.pub j := rfl
@[simp] theorem State.modPair_kport (i : Nat) (f : Pair → Pair) (j : Nat) : (s.modPair i f).kport j = s.kport j := rfl
@[simp] theorem State.modPair_monitor (i : Nat) (f : Pair → Pair) : (s.modPair i f).monitor = s.monitor := rfl
@[simp] theorem State.modPair_myKey (i : Nat) (f : Pair → Pair) : (s.modPair i f).myKey = s.myKey := rfl
@[simp] theorem State.modPair_me (i : Nat) (f : Pair → Pair) : (s.modPair i f).me = s.me := rfl
@[simp] theorem State.modPair_myRegion (i : Nat) (f : Pair → Pair) : (s.modPair i f).myRegion = s.myRegion := rfl
@[simp] theorem State.modPair_mySlot (i : Nat) (f : Pair → Pair) : (s.modPair i f).mySlot = s.mySlot := rfl
@[simp] theorem State.modPair_my (i : Nat) (f : Pair → Pair) : (s.modPair i f).my = s.my := rfl
@[simp] theorem State.modPair_mcore (i : Nat) (f : Pair → Pair) (k : CoreId) : (s.modPair i f).mcore k = s.mcore k := rfl
@[simp] theorem State.modPair_running (i : Nat) (f : Pair → Pair) (j : Nat) : (s.modPair i f).running j = s.running j := rfl
theorem State.modPair_pair (i : Nat) (f : Pair → Pair) (j : Nat) : (s.modPair i f).pair j = if i = j then f (s.pair i) else s.pair j := tget_tput _ _ _ _ _
@[simp] theorem State.modPair_pair_same (i : Nat) (f : Pair → Pair) : (s.modPair i f).pair i = f (s.pair i) := tget_tput_same _ _ _ _
theorem State.modPair_pair_other (i : Nat) (f : Pair → Pair) (j : Nat) (h : i ≠ j) : (s.modPair i f).pair j = s.pair j := tget_tput_other _ _ _ h

/-! modCluster -/
@[simp] theorem State.modCluster_tick (i : Nat) (f : Cluster → Cluster) : (s.modCluster i f).tick = s.tick := rfl
@[simp] theorem State.modCluster_failed (i : Nat) (f : Cluster → Cluster) : (s.modCluster i f).failed = s.failed := rfl
@[simp] theorem State.modCluster_ports (i : Nat) (f : Cluster → Cluster) : (s.modCluster i f).ports = s.ports := rfl
@[simp] theorem State.modCluster_hbm (i : Nat) (f : Cluster → Cluster) : (s.modCluster i f).hbm = s.hbm := rfl
@[simp] theorem State.modCluster_kwe (i : Nat) (f : Cluster → Cluster) : (s.modCluster i f).kwe = s.kwe := rfl
@[simp] theorem State.modCluster_lidOpened (i : Nat) (f : Cluster → Cluster) : (s.modCluster i f).lidOpened = s.lidOpened := rfl
@[simp] theorem State.modCluster_lidOpen (i : Nat) (f : Cluster → Cluster) : (s.modCluster i f).lidOpen = s.lidOpen := rfl
@[simp] theorem State.modCluster_lidSensor (i : Nat) (f : Cluster → Cluster) : (s.modCluster i f).lidSensor = s.lidSensor := rfl
@[simp] theorem State.modCluster_rim (i : Nat) (f : Cluster → Cluster) : (s.modCluster i f).rim = s.rim := rfl
@[simp] theorem State.modCluster_rimTags (i : Nat) (f : Cluster → Cluster) : (s.modCluster i f).rimTags = s.rimTags := rfl
@[simp] theorem State.modCluster_poison (i : Nat) (f : Cluster → Cluster) : (s.modCluster i f).poison = s.poison := rfl
@[simp] theorem State.modCluster_host (i : Nat) (f : Cluster → Cluster) : (s.modCluster i f).host = s.host := rfl
@[simp] theorem State.modCluster_chans (i : Nat) (f : Cluster → Cluster) : (s.modCluster i f).chans = s.chans := rfl
theorem State.modCluster_clusters (i : Nat) (f : Cluster → Cluster) : (s.modCluster i f).clusters = tput {} i (f (s.cluster i)) s.clusters := rfl
@[simp] theorem State.modCluster_slices (i : Nat) (f : Cluster → Cluster) : (s.modCluster i f).slices = s.slices := rfl
@[simp] theorem State.modCluster_tiles (i : Nat) (f : Cluster → Cluster) : (s.modCluster i f).tiles = s.tiles := rfl
@[simp] theorem State.modCluster_pairs (i : Nat) (f : Cluster → Cluster) : (s.modCluster i f).pairs = s.pairs := rfl
@[simp] theorem State.modCluster_ctxs (i : Nat) (f : Cluster → Cluster) : (s.modCluster i f).ctxs = s.ctxs := rfl
@[simp] theorem State.modCluster_cores (i : Nat) (f : Cluster → Cluster) : (s.modCluster i f).cores = s.cores := rfl
@[simp] theorem State.modCluster_regions (i : Nat) (f : Cluster → Cluster) : (s.modCluster i f).regions = s.regions := rfl
@[simp] theorem State.modCluster_parts (i : Nat) (f : Cluster → Cluster) : (s.modCluster i f).parts = s.parts := rfl
@[simp] theorem State.modCluster_vfs (i : Nat) (f : Cluster → Cluster) : (s.modCluster i f).vfs = s.vfs := rfl
@[simp] theorem State.modCluster_rails (i : Nat) (f : Cluster → Cluster) : (s.modCluster i f).rails = s.rails := rfl
@[simp] theorem State.modCluster_pubs (i : Nat) (f : Cluster → Cluster) : (s.modCluster i f).pubs = s.pubs := rfl
@[simp] theorem State.modCluster_held (i : Nat) (f : Cluster → Cluster) : (s.modCluster i f).held = s.held := rfl
@[simp] theorem State.modCluster_flying (i : Nat) (f : Cluster → Cluster) : (s.modCluster i f).flying = s.flying := rfl
@[simp] theorem State.modCluster_flight (i : Nat) (f : Cluster → Cluster) : (s.modCluster i f).flight = s.flight := rfl
@[simp] theorem State.modCluster_hostReqs (i : Nat) (f : Cluster → Cluster) : (s.modCluster i f).hostReqs = s.hostReqs := rfl
@[simp] theorem State.modCluster_invals (i : Nat) (f : Cluster → Cluster) : (s.modCluster i f).invals = s.invals := rfl
@[simp] theorem State.modCluster_drains (i : Nat) (f : Cluster → Cluster) : (s.modCluster i f).drains = s.drains := rfl
@[simp] theorem State.modCluster_glide (i : Nat) (f : Cluster → Cluster) : (s.modCluster i f).glide = s.glide := rfl
@[simp] theorem State.modCluster_killTicks (i : Nat) (f : Cluster → Cluster) : (s.modCluster i f).killTicks = s.killTicks := rfl
@[simp] theorem State.modCluster_image (i : Nat) (f : Cluster → Cluster) : (s.modCluster i f).image = s.image := rfl
@[simp] theorem State.modCluster_out (i : Nat) (f : Cluster → Cluster) : (s.modCluster i f).out = s.out := rfl
@[simp] theorem State.modCluster_agenda (i : Nat) (f : Cluster → Cluster) : (s.modCluster i f).agenda = s.agenda := rfl
@[simp] theorem State.modCluster_edging (i : Nat) (f : Cluster → Cluster) : (s.modCluster i f).edging = s.edging := rfl
@[simp] theorem State.modCluster_focus (i : Nat) (f : Cluster → Cluster) : (s.modCluster i f).focus = s.focus := rfl
@[simp] theorem State.modCluster_seq (i : Nat) (f : Cluster → Cluster) : (s.modCluster i f).seq = s.seq := rfl
@[simp] theorem State.modCluster_freeCtr (i : Nat) (f : Cluster → Cluster) : (s.modCluster i f).freeCtr = s.freeCtr := rfl
@[simp] theorem State.modCluster_tile (i : Nat) (f : Cluster → Cluster) (j : Nat) : (s.modCluster i f).tile j = s.tile j := rfl
@[simp] theorem State.modCluster_pair (i : Nat) (f : Cluster → Cluster) (j : Nat) : (s.modCluster i f).pair j = s.pair j := rfl
@[simp] theorem State.modCluster_slice (i : Nat) (f : Cluster → Cluster) (j : Nat) : (s.modCluster i f).slice j = s.slice j := rfl
@[simp] theorem State.modCluster_ctx (i : Nat) (f : Cluster → Cluster) (j : Nat) : (s.modCluster i f).ctx j = s.ctx j := rfl
@[simp] theorem State.modCluster_core (i : Nat) (f : Cluster → Cluster) (j : Nat) : (s.modCluster i f).core j = s.core j := rfl
@[simp] theorem State.modCluster_region (i : Nat) (f : Cluster → Cluster) (j : Nat) : (s.modCluster i f).region j = s.region j := rfl
@[simp] theorem State.modCluster_part (i : Nat) (f : Cluster → Cluster) (j : Nat) : (s.modCluster i f).part j = s.part j := rfl
@[simp] theorem State.modCluster_vf (i : Nat) (f : Cluster → Cluster) (j : Nat) : (s.modCluster i f).vf j = s.vf j := rfl
@[simp] theorem State.modCluster_chan (i : Nat) (f : Cluster → Cluster) (j : Nat) : (s.modCluster i f).chan j = s.chan j := rfl
@[simp] theorem State.modCluster_port (i : Nat) (f : Cluster → Cluster) (j : Nat) : (s.modCluster i f).port j = s.port j := rfl
@[simp] theorem State.modCluster_rail (i : Nat) (f : Cluster → Cluster) (j : Nat) : (s.modCluster i f).rail j = s.rail j := rfl
@[simp] theorem State.modCluster_pub (i : Nat) (f : Cluster → Cluster) (j : Nat) : (s.modCluster i f).pub j = s.pub j := rfl
@[simp] theorem State.modCluster_kport (i : Nat) (f : Cluster → Cluster) (j : Nat) : (s.modCluster i f).kport j = s.kport j := rfl
@[simp] theorem State.modCluster_monitor (i : Nat) (f : Cluster → Cluster) : (s.modCluster i f).monitor = s.monitor := rfl
@[simp] theorem State.modCluster_myKey (i : Nat) (f : Cluster → Cluster) : (s.modCluster i f).myKey = s.myKey := rfl
@[simp] theorem State.modCluster_me (i : Nat) (f : Cluster → Cluster) : (s.modCluster i f).me = s.me := rfl
@[simp] theorem State.modCluster_myRegion (i : Nat) (f : Cluster → Cluster) : (s.modCluster i f).myRegion = s.myRegion := rfl
@[simp] theorem State.modCluster_mySlot (i : Nat) (f : Cluster → Cluster) : (s.modCluster i f).mySlot = s.mySlot := rfl
@[simp] theorem State.modCluster_my (i : Nat) (f : Cluster → Cluster) : (s.modCluster i f).my = s.my := rfl
@[simp] theorem State.modCluster_mcore (i : Nat) (f : Cluster → Cluster) (k : CoreId) : (s.modCluster i f).mcore k = s.mcore k := rfl
@[simp] theorem State.modCluster_running (i : Nat) (f : Cluster → Cluster) (j : Nat) : (s.modCluster i f).running j = s.running j := rfl
theorem State.modCluster_cluster (i : Nat) (f : Cluster → Cluster) (j : Nat) : (s.modCluster i f).cluster j = if i = j then f (s.cluster i) else s.cluster j := tget_tput _ _ _ _ _
@[simp] theorem State.modCluster_cluster_same (i : Nat) (f : Cluster → Cluster) : (s.modCluster i f).cluster i = f (s.cluster i) := tget_tput_same _ _ _ _
theorem State.modCluster_cluster_other (i : Nat) (f : Cluster → Cluster) (j : Nat) (h : i ≠ j) : (s.modCluster i f).cluster j = s.cluster j := tget_tput_other _ _ _ h

/-! modSlice -/
@[simp] theorem State.modSlice_tick (i : Nat) (f : Slice → Slice) : (s.modSlice i f).tick = s.tick := rfl
@[simp] theorem State.modSlice_failed (i : Nat) (f : Slice → Slice) : (s.modSlice i f).failed = s.failed := rfl
@[simp] theorem State.modSlice_ports (i : Nat) (f : Slice → Slice) : (s.modSlice i f).ports = s.ports := rfl
@[simp] theorem State.modSlice_hbm (i : Nat) (f : Slice → Slice) : (s.modSlice i f).hbm = s.hbm := rfl
@[simp] theorem State.modSlice_kwe (i : Nat) (f : Slice → Slice) : (s.modSlice i f).kwe = s.kwe := rfl
@[simp] theorem State.modSlice_lidOpened (i : Nat) (f : Slice → Slice) : (s.modSlice i f).lidOpened = s.lidOpened := rfl
@[simp] theorem State.modSlice_lidOpen (i : Nat) (f : Slice → Slice) : (s.modSlice i f).lidOpen = s.lidOpen := rfl
@[simp] theorem State.modSlice_lidSensor (i : Nat) (f : Slice → Slice) : (s.modSlice i f).lidSensor = s.lidSensor := rfl
@[simp] theorem State.modSlice_rim (i : Nat) (f : Slice → Slice) : (s.modSlice i f).rim = s.rim := rfl
@[simp] theorem State.modSlice_rimTags (i : Nat) (f : Slice → Slice) : (s.modSlice i f).rimTags = s.rimTags := rfl
@[simp] theorem State.modSlice_poison (i : Nat) (f : Slice → Slice) : (s.modSlice i f).poison = s.poison := rfl
@[simp] theorem State.modSlice_host (i : Nat) (f : Slice → Slice) : (s.modSlice i f).host = s.host := rfl
@[simp] theorem State.modSlice_chans (i : Nat) (f : Slice → Slice) : (s.modSlice i f).chans = s.chans := rfl
@[simp] theorem State.modSlice_clusters (i : Nat) (f : Slice → Slice) : (s.modSlice i f).clusters = s.clusters := rfl
theorem State.modSlice_slices (i : Nat) (f : Slice → Slice) : (s.modSlice i f).slices = tput {} i (f (s.slice i)) s.slices := rfl
@[simp] theorem State.modSlice_tiles (i : Nat) (f : Slice → Slice) : (s.modSlice i f).tiles = s.tiles := rfl
@[simp] theorem State.modSlice_pairs (i : Nat) (f : Slice → Slice) : (s.modSlice i f).pairs = s.pairs := rfl
@[simp] theorem State.modSlice_ctxs (i : Nat) (f : Slice → Slice) : (s.modSlice i f).ctxs = s.ctxs := rfl
@[simp] theorem State.modSlice_cores (i : Nat) (f : Slice → Slice) : (s.modSlice i f).cores = s.cores := rfl
@[simp] theorem State.modSlice_regions (i : Nat) (f : Slice → Slice) : (s.modSlice i f).regions = s.regions := rfl
@[simp] theorem State.modSlice_parts (i : Nat) (f : Slice → Slice) : (s.modSlice i f).parts = s.parts := rfl
@[simp] theorem State.modSlice_vfs (i : Nat) (f : Slice → Slice) : (s.modSlice i f).vfs = s.vfs := rfl
@[simp] theorem State.modSlice_rails (i : Nat) (f : Slice → Slice) : (s.modSlice i f).rails = s.rails := rfl
@[simp] theorem State.modSlice_pubs (i : Nat) (f : Slice → Slice) : (s.modSlice i f).pubs = s.pubs := rfl
@[simp] theorem State.modSlice_held (i : Nat) (f : Slice → Slice) : (s.modSlice i f).held = s.held := rfl
@[simp] theorem State.modSlice_flying (i : Nat) (f : Slice → Slice) : (s.modSlice i f).flying = s.flying := rfl
@[simp] theorem State.modSlice_flight (i : Nat) (f : Slice → Slice) : (s.modSlice i f).flight = s.flight := rfl
@[simp] theorem State.modSlice_hostReqs (i : Nat) (f : Slice → Slice) : (s.modSlice i f).hostReqs = s.hostReqs := rfl
@[simp] theorem State.modSlice_invals (i : Nat) (f : Slice → Slice) : (s.modSlice i f).invals = s.invals := rfl
@[simp] theorem State.modSlice_drains (i : Nat) (f : Slice → Slice) : (s.modSlice i f).drains = s.drains := rfl
@[simp] theorem State.modSlice_glide (i : Nat) (f : Slice → Slice) : (s.modSlice i f).glide = s.glide := rfl
@[simp] theorem State.modSlice_killTicks (i : Nat) (f : Slice → Slice) : (s.modSlice i f).killTicks = s.killTicks := rfl
@[simp] theorem State.modSlice_image (i : Nat) (f : Slice → Slice) : (s.modSlice i f).image = s.image := rfl
@[simp] theorem State.modSlice_out (i : Nat) (f : Slice → Slice) : (s.modSlice i f).out = s.out := rfl
@[simp] theorem State.modSlice_agenda (i : Nat) (f : Slice → Slice) : (s.modSlice i f).agenda = s.agenda := rfl
@[simp] theorem State.modSlice_edging (i : Nat) (f : Slice → Slice) : (s.modSlice i f).edging = s.edging := rfl
@[simp] theorem State.modSlice_focus (i : Nat) (f : Slice → Slice) : (s.modSlice i f).focus = s.focus := rfl
@[simp] theorem State.modSlice_seq (i : Nat) (f : Slice → Slice) : (s.modSlice i f).seq = s.seq := rfl
@[simp] theorem State.modSlice_freeCtr (i : Nat) (f : Slice → Slice) : (s.modSlice i f).freeCtr = s.freeCtr := rfl
@[simp] theorem State.modSlice_tile (i : Nat) (f : Slice → Slice) (j : Nat) : (s.modSlice i f).tile j = s.tile j := rfl
@[simp] theorem State.modSlice_pair (i : Nat) (f : Slice → Slice) (j : Nat) : (s.modSlice i f).pair j = s.pair j := rfl
@[simp] theorem State.modSlice_cluster (i : Nat) (f : Slice → Slice) (j : Nat) : (s.modSlice i f).cluster j = s.cluster j := rfl
@[simp] theorem State.modSlice_ctx (i : Nat) (f : Slice → Slice) (j : Nat) : (s.modSlice i f).ctx j = s.ctx j := rfl
@[simp] theorem State.modSlice_core (i : Nat) (f : Slice → Slice) (j : Nat) : (s.modSlice i f).core j = s.core j := rfl
@[simp] theorem State.modSlice_region (i : Nat) (f : Slice → Slice) (j : Nat) : (s.modSlice i f).region j = s.region j := rfl
@[simp] theorem State.modSlice_part (i : Nat) (f : Slice → Slice) (j : Nat) : (s.modSlice i f).part j = s.part j := rfl
@[simp] theorem State.modSlice_vf (i : Nat) (f : Slice → Slice) (j : Nat) : (s.modSlice i f).vf j = s.vf j := rfl
@[simp] theorem State.modSlice_chan (i : Nat) (f : Slice → Slice) (j : Nat) : (s.modSlice i f).chan j = s.chan j := rfl
@[simp] theorem State.modSlice_port (i : Nat) (f : Slice → Slice) (j : Nat) : (s.modSlice i f).port j = s.port j := rfl
@[simp] theorem State.modSlice_rail (i : Nat) (f : Slice → Slice) (j : Nat) : (s.modSlice i f).rail j = s.rail j := rfl
@[simp] theorem State.modSlice_pub (i : Nat) (f : Slice → Slice) (j : Nat) : (s.modSlice i f).pub j = s.pub j := rfl
@[simp] theorem State.modSlice_kport (i : Nat) (f : Slice → Slice) (j : Nat) : (s.modSlice i f).kport j = s.kport j := rfl
@[simp] theorem State.modSlice_monitor (i : Nat) (f : Slice → Slice) : (s.modSlice i f).monitor = s.monitor := rfl
@[simp] theorem State.modSlice_myKey (i : Nat) (f : Slice → Slice) : (s.modSlice i f).myKey = s.myKey := rfl
@[simp] theorem State.modSlice_me (i : Nat) (f : Slice → Slice) : (s.modSlice i f).me = s.me := rfl
@[simp] theorem State.modSlice_myRegion (i : Nat) (f : Slice → Slice) : (s.modSlice i f).myRegion = s.myRegion := rfl
@[simp] theorem State.modSlice_mySlot (i : Nat) (f : Slice → Slice) : (s.modSlice i f).mySlot = s.mySlot := rfl
@[simp] theorem State.modSlice_my (i : Nat) (f : Slice → Slice) : (s.modSlice i f).my = s.my := rfl
@[simp] theorem State.modSlice_mcore (i : Nat) (f : Slice → Slice) (k : CoreId) : (s.modSlice i f).mcore k = s.mcore k := rfl
@[simp] theorem State.modSlice_running (i : Nat) (f : Slice → Slice) (j : Nat) : (s.modSlice i f).running j = s.running j := rfl
theorem State.modSlice_slice (i : Nat) (f : Slice → Slice) (j : Nat) : (s.modSlice i f).slice j = if i = j then f (s.slice i) else s.slice j := tget_tput _ _ _ _ _
@[simp] theorem State.modSlice_slice_same (i : Nat) (f : Slice → Slice) : (s.modSlice i f).slice i = f (s.slice i) := tget_tput_same _ _ _ _
theorem State.modSlice_slice_other (i : Nat) (f : Slice → Slice) (j : Nat) (h : i ≠ j) : (s.modSlice i f).slice j = s.slice j := tget_tput_other _ _ _ h

/-! modCtx -/
@[simp] theorem State.modCtx_tick (i : Nat) (f : Ctx → Ctx) : (s.modCtx i f).tick = s.tick := rfl
@[simp] theorem State.modCtx_failed (i : Nat) (f : Ctx → Ctx) : (s.modCtx i f).failed = s.failed := rfl
@[simp] theorem State.modCtx_ports (i : Nat) (f : Ctx → Ctx) : (s.modCtx i f).ports = s.ports := rfl
@[simp] theorem State.modCtx_hbm (i : Nat) (f : Ctx → Ctx) : (s.modCtx i f).hbm = s.hbm := rfl
@[simp] theorem State.modCtx_kwe (i : Nat) (f : Ctx → Ctx) : (s.modCtx i f).kwe = s.kwe := rfl
@[simp] theorem State.modCtx_lidOpened (i : Nat) (f : Ctx → Ctx) : (s.modCtx i f).lidOpened = s.lidOpened := rfl
@[simp] theorem State.modCtx_lidOpen (i : Nat) (f : Ctx → Ctx) : (s.modCtx i f).lidOpen = s.lidOpen := rfl
@[simp] theorem State.modCtx_lidSensor (i : Nat) (f : Ctx → Ctx) : (s.modCtx i f).lidSensor = s.lidSensor := rfl
@[simp] theorem State.modCtx_rim (i : Nat) (f : Ctx → Ctx) : (s.modCtx i f).rim = s.rim := rfl
@[simp] theorem State.modCtx_rimTags (i : Nat) (f : Ctx → Ctx) : (s.modCtx i f).rimTags = s.rimTags := rfl
@[simp] theorem State.modCtx_poison (i : Nat) (f : Ctx → Ctx) : (s.modCtx i f).poison = s.poison := rfl
@[simp] theorem State.modCtx_host (i : Nat) (f : Ctx → Ctx) : (s.modCtx i f).host = s.host := rfl
@[simp] theorem State.modCtx_chans (i : Nat) (f : Ctx → Ctx) : (s.modCtx i f).chans = s.chans := rfl
@[simp] theorem State.modCtx_clusters (i : Nat) (f : Ctx → Ctx) : (s.modCtx i f).clusters = s.clusters := rfl
@[simp] theorem State.modCtx_slices (i : Nat) (f : Ctx → Ctx) : (s.modCtx i f).slices = s.slices := rfl
@[simp] theorem State.modCtx_tiles (i : Nat) (f : Ctx → Ctx) : (s.modCtx i f).tiles = s.tiles := rfl
@[simp] theorem State.modCtx_pairs (i : Nat) (f : Ctx → Ctx) : (s.modCtx i f).pairs = s.pairs := rfl
theorem State.modCtx_ctxs (i : Nat) (f : Ctx → Ctx) : (s.modCtx i f).ctxs = tput {} i (f (s.ctx i)) s.ctxs := rfl
@[simp] theorem State.modCtx_cores (i : Nat) (f : Ctx → Ctx) : (s.modCtx i f).cores = s.cores := rfl
@[simp] theorem State.modCtx_regions (i : Nat) (f : Ctx → Ctx) : (s.modCtx i f).regions = s.regions := rfl
@[simp] theorem State.modCtx_parts (i : Nat) (f : Ctx → Ctx) : (s.modCtx i f).parts = s.parts := rfl
@[simp] theorem State.modCtx_vfs (i : Nat) (f : Ctx → Ctx) : (s.modCtx i f).vfs = s.vfs := rfl
@[simp] theorem State.modCtx_rails (i : Nat) (f : Ctx → Ctx) : (s.modCtx i f).rails = s.rails := rfl
@[simp] theorem State.modCtx_pubs (i : Nat) (f : Ctx → Ctx) : (s.modCtx i f).pubs = s.pubs := rfl
@[simp] theorem State.modCtx_held (i : Nat) (f : Ctx → Ctx) : (s.modCtx i f).held = s.held := rfl
@[simp] theorem State.modCtx_flying (i : Nat) (f : Ctx → Ctx) : (s.modCtx i f).flying = s.flying := rfl
@[simp] theorem State.modCtx_flight (i : Nat) (f : Ctx → Ctx) : (s.modCtx i f).flight = s.flight := rfl
@[simp] theorem State.modCtx_hostReqs (i : Nat) (f : Ctx → Ctx) : (s.modCtx i f).hostReqs = s.hostReqs := rfl
@[simp] theorem State.modCtx_invals (i : Nat) (f : Ctx → Ctx) : (s.modCtx i f).invals = s.invals := rfl
@[simp] theorem State.modCtx_drains (i : Nat) (f : Ctx → Ctx) : (s.modCtx i f).drains = s.drains := rfl
@[simp] theorem State.modCtx_glide (i : Nat) (f : Ctx → Ctx) : (s.modCtx i f).glide = s.glide := rfl
@[simp] theorem State.modCtx_killTicks (i : Nat) (f : Ctx → Ctx) : (s.modCtx i f).killTicks = s.killTicks := rfl
@[simp] theorem State.modCtx_image (i : Nat) (f : Ctx → Ctx) : (s.modCtx i f).image = s.image := rfl
@[simp] theorem State.modCtx_out (i : Nat) (f : Ctx → Ctx) : (s.modCtx i f).out = s.out := rfl
@[simp] theorem State.modCtx_agenda (i : Nat) (f : Ctx → Ctx) : (s.modCtx i f).agenda = s.agenda := rfl
@[simp] theorem State.modCtx_edging (i : Nat) (f : Ctx → Ctx) : (s.modCtx i f).edging = s.edging := rfl
@[simp] theorem State.modCtx_focus (i : Nat) (f : Ctx → Ctx) : (s.modCtx i f).focus = s.focus := rfl
@[simp] theorem State.modCtx_seq (i : Nat) (f : Ctx → Ctx) : (s.modCtx i f).seq = s.seq := rfl
@[simp] theorem State.modCtx_freeCtr (i : Nat) (f : Ctx → Ctx) : (s.modCtx i f).freeCtr = s.freeCtr := rfl
@[simp] theorem State.modCtx_tile (i : Nat) (f : Ctx → Ctx) (j : Nat) : (s.modCtx i f).tile j = s.tile j := rfl
@[simp] theorem State.modCtx_pair (i : Nat) (f : Ctx → Ctx) (j : Nat) : (s.modCtx i f).pair j = s.pair j := rfl
@[simp] theorem State.modCtx_cluster (i : Nat) (f : Ctx → Ctx) (j : Nat) : (s.modCtx i f).cluster j = s.cluster j := rfl
@[simp] theorem State.modCtx_slice (i : Nat) (f : Ctx → Ctx) (j : Nat) : (s.modCtx i f).slice j = s.slice j := rfl
@[simp] theorem State.modCtx_core (i : Nat) (f : Ctx → Ctx) (j : Nat) : (s.modCtx i f).core j = s.core j := rfl
@[simp] theorem State.modCtx_region (i : Nat) (f : Ctx → Ctx) (j : Nat) : (s.modCtx i f).region j = s.region j := rfl
@[simp] theorem State.modCtx_part (i : Nat) (f : Ctx → Ctx) (j : Nat) : (s.modCtx i f).part j = s.part j := rfl
@[simp] theorem State.modCtx_vf (i : Nat) (f : Ctx → Ctx) (j : Nat) : (s.modCtx i f).vf j = s.vf j := rfl
@[simp] theorem State.modCtx_chan (i : Nat) (f : Ctx → Ctx) (j : Nat) : (s.modCtx i f).chan j = s.chan j := rfl
@[simp] theorem State.modCtx_port (i : Nat) (f : Ctx → Ctx) (j : Nat) : (s.modCtx i f).port j = s.port j := rfl
@[simp] theorem State.modCtx_rail (i : Nat) (f : Ctx → Ctx) (j : Nat) : (s.modCtx i f).rail j = s.rail j := rfl
@[simp] theorem State.modCtx_pub (i : Nat) (f : Ctx → Ctx) (j : Nat) : (s.modCtx i f).pub j = s.pub j := rfl
@[simp] theorem State.modCtx_kport (i : Nat) (f : Ctx → Ctx) (j : Nat) : (s.modCtx i f).kport j = s.kport j := rfl
@[simp] theorem State.modCtx_monitor (i : Nat) (f : Ctx → Ctx) : (s.modCtx i f).monitor = s.monitor := rfl
@[simp] theorem State.modCtx_myKey (i : Nat) (f : Ctx → Ctx) : (s.modCtx i f).myKey = s.myKey := rfl
@[simp] theorem State.modCtx_me (i : Nat) (f : Ctx → Ctx) : (s.modCtx i f).me = s.me := rfl
@[simp] theorem State.modCtx_myRegion (i : Nat) (f : Ctx → Ctx) : (s.modCtx i f).myRegion = s.myRegion := rfl
@[simp] theorem State.modCtx_mySlot (i : Nat) (f : Ctx → Ctx) : (s.modCtx i f).mySlot = s.mySlot := rfl
@[simp] theorem State.modCtx_my (i : Nat) (f : Ctx → Ctx) : (s.modCtx i f).my = s.my := rfl
@[simp] theorem State.modCtx_mcore (i : Nat) (f : Ctx → Ctx) (k : CoreId) : (s.modCtx i f).mcore k = s.mcore k := rfl
@[simp] theorem State.modCtx_running (i : Nat) (f : Ctx → Ctx) (j : Nat) : (s.modCtx i f).running j = s.running j := rfl
theorem State.modCtx_ctx (i : Nat) (f : Ctx → Ctx) (j : Nat) : (s.modCtx i f).ctx j = if i = j then f (s.ctx i) else s.ctx j := tget_tput _ _ _ _ _
@[simp] theorem State.modCtx_ctx_same (i : Nat) (f : Ctx → Ctx) : (s.modCtx i f).ctx i = f (s.ctx i) := tget_tput_same _ _ _ _
theorem State.modCtx_ctx_other (i : Nat) (f : Ctx → Ctx) (j : Nat) (h : i ≠ j) : (s.modCtx i f).ctx j = s.ctx j := tget_tput_other _ _ _ h

/-! modCore -/
@[simp] theorem State.modCore_tick (i : Nat) (f : Core → Core) : (s.modCore i f).tick = s.tick := rfl
@[simp] theorem State.modCore_failed (i : Nat) (f : Core → Core) : (s.modCore i f).failed = s.failed := rfl
@[simp] theorem State.modCore_ports (i : Nat) (f : Core → Core) : (s.modCore i f).ports = s.ports := rfl
@[simp] theorem State.modCore_hbm (i : Nat) (f : Core → Core) : (s.modCore i f).hbm = s.hbm := rfl
@[simp] theorem State.modCore_kwe (i : Nat) (f : Core → Core) : (s.modCore i f).kwe = s.kwe := rfl
@[simp] theorem State.modCore_lidOpened (i : Nat) (f : Core → Core) : (s.modCore i f).lidOpened = s.lidOpened := rfl
@[simp] theorem State.modCore_lidOpen (i : Nat) (f : Core → Core) : (s.modCore i f).lidOpen = s.lidOpen := rfl
@[simp] theorem State.modCore_lidSensor (i : Nat) (f : Core → Core) : (s.modCore i f).lidSensor = s.lidSensor := rfl
@[simp] theorem State.modCore_rim (i : Nat) (f : Core → Core) : (s.modCore i f).rim = s.rim := rfl
@[simp] theorem State.modCore_rimTags (i : Nat) (f : Core → Core) : (s.modCore i f).rimTags = s.rimTags := rfl
@[simp] theorem State.modCore_poison (i : Nat) (f : Core → Core) : (s.modCore i f).poison = s.poison := rfl
@[simp] theorem State.modCore_host (i : Nat) (f : Core → Core) : (s.modCore i f).host = s.host := rfl
@[simp] theorem State.modCore_chans (i : Nat) (f : Core → Core) : (s.modCore i f).chans = s.chans := rfl
@[simp] theorem State.modCore_clusters (i : Nat) (f : Core → Core) : (s.modCore i f).clusters = s.clusters := rfl
@[simp] theorem State.modCore_slices (i : Nat) (f : Core → Core) : (s.modCore i f).slices = s.slices := rfl
@[simp] theorem State.modCore_tiles (i : Nat) (f : Core → Core) : (s.modCore i f).tiles = s.tiles := rfl
@[simp] theorem State.modCore_pairs (i : Nat) (f : Core → Core) : (s.modCore i f).pairs = s.pairs := rfl
@[simp] theorem State.modCore_ctxs (i : Nat) (f : Core → Core) : (s.modCore i f).ctxs = s.ctxs := rfl
theorem State.modCore_cores (i : Nat) (f : Core → Core) : (s.modCore i f).cores = tput {} i (f (s.core i)) s.cores := rfl
@[simp] theorem State.modCore_regions (i : Nat) (f : Core → Core) : (s.modCore i f).regions = s.regions := rfl
@[simp] theorem State.modCore_parts (i : Nat) (f : Core → Core) : (s.modCore i f).parts = s.parts := rfl
@[simp] theorem State.modCore_vfs (i : Nat) (f : Core → Core) : (s.modCore i f).vfs = s.vfs := rfl
@[simp] theorem State.modCore_rails (i : Nat) (f : Core → Core) : (s.modCore i f).rails = s.rails := rfl
@[simp] theorem State.modCore_pubs (i : Nat) (f : Core → Core) : (s.modCore i f).pubs = s.pubs := rfl
@[simp] theorem State.modCore_held (i : Nat) (f : Core → Core) : (s.modCore i f).held = s.held := rfl
@[simp] theorem State.modCore_flying (i : Nat) (f : Core → Core) : (s.modCore i f).flying = s.flying := rfl
@[simp] theorem State.modCore_flight (i : Nat) (f : Core → Core) : (s.modCore i f).flight = s.flight := rfl
@[simp] theorem State.modCore_hostReqs (i : Nat) (f : Core → Core) : (s.modCore i f).hostReqs = s.hostReqs := rfl
@[simp] theorem State.modCore_invals (i : Nat) (f : Core → Core) : (s.modCore i f).invals = s.invals := rfl
@[simp] theorem State.modCore_drains (i : Nat) (f : Core → Core) : (s.modCore i f).drains = s.drains := rfl
@[simp] theorem State.modCore_glide (i : Nat) (f : Core → Core) : (s.modCore i f).glide = s.glide := rfl
@[simp] theorem State.modCore_killTicks (i : Nat) (f : Core → Core) : (s.modCore i f).killTicks = s.killTicks := rfl
@[simp] theorem State.modCore_image (i : Nat) (f : Core → Core) : (s.modCore i f).image = s.image := rfl
@[simp] theorem State.modCore_out (i : Nat) (f : Core → Core) : (s.modCore i f).out = s.out := rfl
@[simp] theorem State.modCore_agenda (i : Nat) (f : Core → Core) : (s.modCore i f).agenda = s.agenda := rfl
@[simp] theorem State.modCore_edging (i : Nat) (f : Core → Core) : (s.modCore i f).edging = s.edging := rfl
@[simp] theorem State.modCore_focus (i : Nat) (f : Core → Core) : (s.modCore i f).focus = s.focus := rfl
@[simp] theorem State.modCore_seq (i : Nat) (f : Core → Core) : (s.modCore i f).seq = s.seq := rfl
@[simp] theorem State.modCore_freeCtr (i : Nat) (f : Core → Core) : (s.modCore i f).freeCtr = s.freeCtr := rfl
@[simp] theorem State.modCore_tile (i : Nat) (f : Core → Core) (j : Nat) : (s.modCore i f).tile j = s.tile j := rfl
@[simp] theorem State.modCore_pair (i : Nat) (f : Core → Core) (j : Nat) : (s.modCore i f).pair j = s.pair j := rfl
@[simp] theorem State.modCore_cluster (i : Nat) (f : Core → Core) (j : Nat) : (s.modCore i f).cluster j = s.cluster j := rfl
@[simp] theorem State.modCore_slice (i : Nat) (f : Core → Core) (j : Nat) : (s.modCore i f).slice j = s.slice j := rfl
@[simp] theorem State.modCore_ctx (i : Nat) (f : Core → Core) (j : Nat) : (s.modCore i f).ctx j = s.ctx j := rfl
@[simp] theorem State.modCore_region (i : Nat) (f : Core → Core) (j : Nat) : (s.modCore i f).region j = s.region j := rfl
@[simp] theorem State.modCore_part (i : Nat) (f : Core → Core) (j : Nat) : (s.modCore i f).part j = s.part j := rfl
@[simp] theorem State.modCore_vf (i : Nat) (f : Core → Core) (j : Nat) : (s.modCore i f).vf j = s.vf j := rfl
@[simp] theorem State.modCore_chan (i : Nat) (f : Core → Core) (j : Nat) : (s.modCore i f).chan j = s.chan j := rfl
@[simp] theorem State.modCore_port (i : Nat) (f : Core → Core) (j : Nat) : (s.modCore i f).port j = s.port j := rfl
@[simp] theorem State.modCore_rail (i : Nat) (f : Core → Core) (j : Nat) : (s.modCore i f).rail j = s.rail j := rfl
@[simp] theorem State.modCore_pub (i : Nat) (f : Core → Core) (j : Nat) : (s.modCore i f).pub j = s.pub j := rfl
@[simp] theorem State.modCore_kport (i : Nat) (f : Core → Core) (j : Nat) : (s.modCore i f).kport j = s.kport j := rfl
@[simp] theorem State.modCore_monitor (i : Nat) (f : Core → Core) : (s.modCore i f).monitor = s.monitor := rfl
@[simp] theorem State.modCore_myKey (i : Nat) (f : Core → Core) : (s.modCore i f).myKey = s.myKey := rfl
@[simp] theorem State.modCore_me (i : Nat) (f : Core → Core) : (s.modCore i f).me = s.me := rfl
@[simp] theorem State.modCore_myRegion (i : Nat) (f : Core → Core) : (s.modCore i f).myRegion = s.myRegion := rfl
@[simp] theorem State.modCore_mySlot (i : Nat) (f : Core → Core) : (s.modCore i f).mySlot = s.mySlot := rfl
@[simp] theorem State.modCore_mcore (i : Nat) (f : Core → Core) (k : CoreId) : (s.modCore i f).mcore k = s.mcore k := rfl
@[simp] theorem State.modCore_running (i : Nat) (f : Core → Core) (j : Nat) : (s.modCore i f).running j = s.running j := rfl
theorem State.modCore_core (i : Nat) (f : Core → Core) (j : Nat) : (s.modCore i f).core j = if i = j then f (s.core i) else s.core j := tget_tput _ _ _ _ _
@[simp] theorem State.modCore_core_same (i : Nat) (f : Core → Core) : (s.modCore i f).core i = f (s.core i) := tget_tput_same _ _ _ _
theorem State.modCore_core_other (i : Nat) (f : Core → Core) (j : Nat) (h : i ≠ j) : (s.modCore i f).core j = s.core j := tget_tput_other _ _ _ h

/-! modRegion -/
@[simp] theorem State.modRegion_tick (i : Nat) (f : Region → Region) : (s.modRegion i f).tick = s.tick := rfl
@[simp] theorem State.modRegion_failed (i : Nat) (f : Region → Region) : (s.modRegion i f).failed = s.failed := rfl
@[simp] theorem State.modRegion_ports (i : Nat) (f : Region → Region) : (s.modRegion i f).ports = s.ports := rfl
@[simp] theorem State.modRegion_hbm (i : Nat) (f : Region → Region) : (s.modRegion i f).hbm = s.hbm := rfl
@[simp] theorem State.modRegion_kwe (i : Nat) (f : Region → Region) : (s.modRegion i f).kwe = s.kwe := rfl
@[simp] theorem State.modRegion_lidOpened (i : Nat) (f : Region → Region) : (s.modRegion i f).lidOpened = s.lidOpened := rfl
@[simp] theorem State.modRegion_lidOpen (i : Nat) (f : Region → Region) : (s.modRegion i f).lidOpen = s.lidOpen := rfl
@[simp] theorem State.modRegion_lidSensor (i : Nat) (f : Region → Region) : (s.modRegion i f).lidSensor = s.lidSensor := rfl
@[simp] theorem State.modRegion_rim (i : Nat) (f : Region → Region) : (s.modRegion i f).rim = s.rim := rfl
@[simp] theorem State.modRegion_rimTags (i : Nat) (f : Region → Region) : (s.modRegion i f).rimTags = s.rimTags := rfl
@[simp] theorem State.modRegion_poison (i : Nat) (f : Region → Region) : (s.modRegion i f).poison = s.poison := rfl
@[simp] theorem State.modRegion_host (i : Nat) (f : Region → Region) : (s.modRegion i f).host = s.host := rfl
@[simp] theorem State.modRegion_chans (i : Nat) (f : Region → Region) : (s.modRegion i f).chans = s.chans := rfl
@[simp] theorem State.modRegion_clusters (i : Nat) (f : Region → Region) : (s.modRegion i f).clusters = s.clusters := rfl
@[simp] theorem State.modRegion_slices (i : Nat) (f : Region → Region) : (s.modRegion i f).slices = s.slices := rfl
@[simp] theorem State.modRegion_tiles (i : Nat) (f : Region → Region) : (s.modRegion i f).tiles = s.tiles := rfl
@[simp] theorem State.modRegion_pairs (i : Nat) (f : Region → Region) : (s.modRegion i f).pairs = s.pairs := rfl
@[simp] theorem State.modRegion_ctxs (i : Nat) (f : Region → Region) : (s.modRegion i f).ctxs = s.ctxs := rfl
@[simp] theorem State.modRegion_cores (i : Nat) (f : Region → Region) : (s.modRegion i f).cores = s.cores := rfl
theorem State.modRegion_regions (i : Nat) (f : Region → Region) : (s.modRegion i f).regions = tput {} i (f (s.region i)) s.regions := rfl
@[simp] theorem State.modRegion_parts (i : Nat) (f : Region → Region) : (s.modRegion i f).parts = s.parts := rfl
@[simp] theorem State.modRegion_vfs (i : Nat) (f : Region → Region) : (s.modRegion i f).vfs = s.vfs := rfl
@[simp] theorem State.modRegion_rails (i : Nat) (f : Region → Region) : (s.modRegion i f).rails = s.rails := rfl
@[simp] theorem State.modRegion_pubs (i : Nat) (f : Region → Region) : (s.modRegion i f).pubs = s.pubs := rfl
@[simp] theorem State.modRegion_held (i : Nat) (f : Region → Region) : (s.modRegion i f).held = s.held := rfl
@[simp] theorem State.modRegion_flying (i : Nat) (f : Region → Region) : (s.modRegion i f).flying = s.flying := rfl
@[simp] theorem State.modRegion_flight (i : Nat) (f : Region → Region) : (s.modRegion i f).flight = s.flight := rfl
@[simp] theorem State.modRegion_hostReqs (i : Nat) (f : Region → Region) : (s.modRegion i f).hostReqs = s.hostReqs := rfl
@[simp] theorem State.modRegion_invals (i : Nat) (f : Region → Region) : (s.modRegion i f).invals = s.invals := rfl
@[simp] theorem State.modRegion_drains (i : Nat) (f : Region → Region) : (s.modRegion i f).drains = s.drains := rfl
@[simp] theorem State.modRegion_glide (i : Nat) (f : Region → Region) : (s.modRegion i f).glide = s.glide := rfl
@[simp] theorem State.modRegion_killTicks (i : Nat) (f : Region → Region) : (s.modRegion i f).killTicks = s.killTicks := rfl
@[simp] theorem State.modRegion_image (i : Nat) (f : Region → Region) : (s.modRegion i f).image = s.image := rfl
@[simp] theorem State.modRegion_out (i : Nat) (f : Region → Region) : (s.modRegion i f).out = s.out := rfl
@[simp] theorem State.modRegion_agenda (i : Nat) (f : Region → Region) : (s.modRegion i f).agenda = s.agenda := rfl
@[simp] theorem State.modRegion_edging (i : Nat) (f : Region → Region) : (s.modRegion i f).edging = s.edging := rfl
@[simp] theorem State.modRegion_focus (i : Nat) (f : Region → Region) : (s.modRegion i f).focus = s.focus := rfl
@[simp] theorem State.modRegion_seq (i : Nat) (f : Region → Region) : (s.modRegion i f).seq = s.seq := rfl
@[simp] theorem State.modRegion_freeCtr (i : Nat) (f : Region → Region) : (s.modRegion i f).freeCtr = s.freeCtr := rfl
@[simp] theorem State.modRegion_tile (i : Nat) (f : Region → Region) (j : Nat) : (s.modRegion i f).tile j = s.tile j := rfl
@[simp] theorem State.modRegion_pair (i : Nat) (f : Region → Region) (j : Nat) : (s.modRegion i f).pair j = s.pair j := rfl
@[simp] theorem State.modRegion_cluster (i : Nat) (f : Region → Region) (j : Nat) : (s.modRegion i f).cluster j = s.cluster j := rfl
@[simp] theorem State.modRegion_slice (i : Nat) (f : Region → Region) (j : Nat) : (s.modRegion i f).slice j = s.slice j := rfl
@[simp] theorem State.modRegion_ctx (i : Nat) (f : Region → Region) (j : Nat) : (s.modRegion i f).ctx j = s.ctx j := rfl
@[simp] theorem State.modRegion_core (i : Nat) (f : Region → Region) (j : Nat) : (s.modRegion i f).core j = s.core j := rfl
@[simp] theorem State.modRegion_part (i : Nat) (f : Region → Region) (j : Nat) : (s.modRegion i f).part j = s.part j := rfl
@[simp] theorem State.modRegion_vf (i : Nat) (f : Region → Region) (j : Nat) : (s.modRegion i f).vf j = s.vf j := rfl
@[simp] theorem State.modRegion_chan (i : Nat) (f : Region → Region) (j : Nat) : (s.modRegion i f).chan j = s.chan j := rfl
@[simp] theorem State.modRegion_port (i : Nat) (f : Region → Region) (j : Nat) : (s.modRegion i f).port j = s.port j := rfl
@[simp] theorem State.modRegion_rail (i : Nat) (f : Region → Region) (j : Nat) : (s.modRegion i f).rail j = s.rail j := rfl
@[simp] theorem State.modRegion_pub (i : Nat) (f : Region → Region) (j : Nat) : (s.modRegion i f).pub j = s.pub j := rfl
@[simp] theorem State.modRegion_kport (i : Nat) (f : Region → Region) (j : Nat) : (s.modRegion i f).kport j = s.kport j := rfl
@[simp] theorem State.modRegion_monitor (i : Nat) (f : Region → Region) : (s.modRegion i f).monitor = s.monitor := rfl
@[simp] theorem State.modRegion_myKey (i : Nat) (f : Region → Region) : (s.modRegion i f).myKey = s.myKey := rfl
@[simp] theorem State.modRegion_me (i : Nat) (f : Region → Region) : (s.modRegion i f).me = s.me := rfl
@[simp] theorem State.modRegion_myRegion (i : Nat) (f : Region → Region) : (s.modRegion i f).myRegion = s.myRegion := rfl
@[simp] theorem State.modRegion_mySlot (i : Nat) (f : Region → Region) : (s.modRegion i f).mySlot = s.mySlot := rfl
@[simp] theorem State.modRegion_my (i : Nat) (f : Region → Region) : (s.modRegion i f).my = s.my := rfl
@[simp] theorem State.modRegion_mcore (i : Nat) (f : Region → Region) (k : CoreId) : (s.modRegion i f).mcore k = s.mcore k := rfl
@[simp] theorem State.modRegion_running (i : Nat) (f : Region → Region) (j : Nat) : (s.modRegion i f).running j = s.running j := rfl
theorem State.modRegion_region (i : Nat) (f : Region → Region) (j : Nat) : (s.modRegion i f).region j = if i = j then f (s.region i) else s.region j := tget_tput _ _ _ _ _
@[simp] theorem State.modRegion_region_same (i : Nat) (f : Region → Region) : (s.modRegion i f).region i = f (s.region i) := tget_tput_same _ _ _ _
theorem State.modRegion_region_other (i : Nat) (f : Region → Region) (j : Nat) (h : i ≠ j) : (s.modRegion i f).region j = s.region j := tget_tput_other _ _ _ h

/-! modPart -/
@[simp] theorem State.modPart_tick (i : Nat) (f : Partition → Partition) : (s.modPart i f).tick = s.tick := rfl
@[simp] theorem State.modPart_failed (i : Nat) (f : Partition → Partition) : (s.modPart i f).failed = s.failed := rfl
@[simp] theorem State.modPart_ports (i : Nat) (f : Partition → Partition) : (s.modPart i f).ports = s.ports := rfl
@[simp] theorem State.modPart_hbm (i : Nat) (f : Partition → Partition) : (s.modPart i f).hbm = s.hbm := rfl
@[simp] theorem State.modPart_kwe (i : Nat) (f : Partition → Partition) : (s.modPart i f).kwe = s.kwe := rfl
@[simp] theorem State.modPart_lidOpened (i : Nat) (f : Partition → Partition) : (s.modPart i f).lidOpened = s.lidOpened := rfl
@[simp] theorem State.modPart_lidOpen (i : Nat) (f : Partition → Partition) : (s.modPart i f).lidOpen = s.lidOpen := rfl
@[simp] theorem State.modPart_lidSensor (i : Nat) (f : Partition → Partition) : (s.modPart i f).lidSensor = s.lidSensor := rfl
@[simp] theorem State.modPart_rim (i : Nat) (f : Partition → Partition) : (s.modPart i f).rim = s.rim := rfl
@[simp] theorem State.modPart_rimTags (i : Nat) (f : Partition → Partition) : (s.modPart i f).rimTags = s.rimTags := rfl
@[simp] theorem State.modPart_poison (i : Nat) (f : Partition → Partition) : (s.modPart i f).poison = s.poison := rfl
@[simp] theorem State.modPart_host (i : Nat) (f : Partition → Partition) : (s.modPart i f).host = s.host := rfl
@[simp] theorem State.modPart_chans (i : Nat) (f : Partition → Partition) : (s.modPart i f).chans = s.chans := rfl
@[simp] theorem State.modPart_clusters (i : Nat) (f : Partition → Partition) : (s.modPart i f).clusters = s.clusters := rfl
@[simp] theorem State.modPart_slices (i : Nat) (f : Partition → Partition) : (s.modPart i f).slices = s.slices := rfl
@[simp] theorem State.modPart_tiles (i : Nat) (f : Partition → Partition) : (s.modPart i f).tiles = s.tiles := rfl
@[simp] theorem State.modPart_pairs (i : Nat) (f : Partition → Partition) : (s.modPart i f).pairs = s.pairs := rfl
@[simp] theorem State.modPart_ctxs (i : Nat) (f : Partition → Partition) : (s.modPart i f).ctxs = s.ctxs := rfl
@[simp] theorem State.modPart_cores (i : Nat) (f : Partition → Partition) : (s.modPart i f).cores = s.cores := rfl
@[simp] theorem State.modPart_regions (i : Nat) (f : Partition → Partition) : (s.modPart i f).regions = s.regions := rfl
theorem State.modPart_parts (i : Nat) (f : Partition → Partition) : (s.modPart i f).parts = tput {} i (f (s.part i)) s.parts := rfl
@[simp] theorem State.modPart_vfs (i : Nat) (f : Partition → Partition) : (s.modPart i f).vfs = s.vfs := rfl
@[simp] theorem State.modPart_rails (i : Nat) (f : Partition → Partition) : (s.modPart i f).rails = s.rails := rfl
@[simp] theorem State.modPart_pubs (i : Nat) (f : Partition → Partition) : (s.modPart i f).pubs = s.pubs := rfl
@[simp] theorem State.modPart_held (i : Nat) (f : Partition → Partition) : (s.modPart i f).held = s.held := rfl
@[simp] theorem State.modPart_flying (i : Nat) (f : Partition → Partition) : (s.modPart i f).flying = s.flying := rfl
@[simp] theorem State.modPart_flight (i : Nat) (f : Partition → Partition) : (s.modPart i f).flight = s.flight := rfl
@[simp] theorem State.modPart_hostReqs (i : Nat) (f : Partition → Partition) : (s.modPart i f).hostReqs = s.hostReqs := rfl
@[simp] theorem State.modPart_invals (i : Nat) (f : Partition → Partition) : (s.modPart i f).invals = s.invals := rfl
@[simp] theorem State.modPart_drains (i : Nat) (f : Partition → Partition) : (s.modPart i f).drains = s.drains := rfl
@[simp] theorem State.modPart_glide (i : Nat) (f : Partition → Partition) : (s.modPart i f).glide = s.glide := rfl
@[simp] theorem State.modPart_killTicks (i : Nat) (f : Partition → Partition) : (s.modPart i f).killTicks = s.killTicks := rfl
@[simp] theorem State.modPart_image (i : Nat) (f : Partition → Partition) : (s.modPart i f).image = s.image := rfl
@[simp] theorem State.modPart_out (i : Nat) (f : Partition → Partition) : (s.modPart i f).out = s.out := rfl
@[simp] theorem State.modPart_agenda (i : Nat) (f : Partition → Partition) : (s.modPart i f).agenda = s.agenda := rfl
@[simp] theorem State.modPart_edging (i : Nat) (f : Partition → Partition) : (s.modPart i f).edging = s.edging := rfl
@[simp] theorem State.modPart_focus (i : Nat) (f : Partition → Partition) : (s.modPart i f).focus = s.focus := rfl
@[simp] theorem State.modPart_seq (i : Nat) (f : Partition → Partition) : (s.modPart i f).seq = s.seq := rfl
@[simp] theorem State.modPart_freeCtr (i : Nat) (f : Partition → Partition) : (s.modPart i f).freeCtr = s.freeCtr := rfl
@[simp] theorem State.modPart_tile (i : Nat) (f : Partition → Partition) (j : Nat) : (s.modPart i f).tile j = s.tile j := rfl
@[simp] theorem State.modPart_pair (i : Nat) (f : Partition → Partition) (j : Nat) : (s.modPart i f).pair j = s.pair j := rfl
@[simp] theorem State.modPart_cluster (i : Nat) (f : Partition → Partition) (j : Nat) : (s.modPart i f).cluster j = s.cluster j := rfl
@[simp] theorem State.modPart_slice (i : Nat) (f : Partition → Partition) (j : Nat) : (s.modPart i f).slice j = s.slice j := rfl
@[simp] theorem State.modPart_ctx (i : Nat) (f : Partition → Partition) (j : Nat) : (s.modPart i f).ctx j = s.ctx j := rfl
@[simp] theorem State.modPart_core (i : Nat) (f : Partition → Partition) (j : Nat) : (s.modPart i f).core j = s.core j := rfl
@[simp] theorem State.modPart_region (i : Nat) (f : Partition → Partition) (j : Nat) : (s.modPart i f).region j = s.region j := rfl
@[simp] theorem State.modPart_vf (i : Nat) (f : Partition → Partition) (j : Nat) : (s.modPart i f).vf j = s.vf j := rfl
@[simp] theorem State.modPart_chan (i : Nat) (f : Partition → Partition) (j : Nat) : (s.modPart i f).chan j = s.chan j := rfl
@[simp] theorem State.modPart_port (i : Nat) (f : Partition → Partition) (j : Nat) : (s.modPart i f).port j = s.port j := rfl
@[simp] theorem State.modPart_rail (i : Nat) (f : Partition → Partition) (j : Nat) : (s.modPart i f).rail j = s.rail j := rfl
@[simp] theorem State.modPart_pub (i : Nat) (f : Partition → Partition) (j : Nat) : (s.modPart i f).pub j = s.pub j := rfl
@[simp] theorem State.modPart_kport (i : Nat) (f : Partition → Partition) (j : Nat) : (s.modPart i f).kport j = s.kport j := rfl
@[simp] theorem State.modPart_monitor (i : Nat) (f : Partition → Partition) : (s.modPart i f).monitor = s.monitor := rfl
@[simp] theorem State.modPart_myKey (i : Nat) (f : Partition → Partition) : (s.modPart i f).myKey = s.myKey := rfl
@[simp] theorem State.modPart_me (i : Nat) (f : Partition → Partition) : (s.modPart i f).me = s.me := rfl
@[simp] theorem State.modPart_myRegion (i : Nat) (f : Partition → Partition) : (s.modPart i f).myRegion = s.myRegion := rfl
@[simp] theorem State.modPart_mySlot (i : Nat) (f : Partition → Partition) : (s.modPart i f).mySlot = s.mySlot := rfl
@[simp] theorem State.modPart_my (i : Nat) (f : Partition → Partition) : (s.modPart i f).my = s.my := rfl
@[simp] theorem State.modPart_mcore (i : Nat) (f : Partition → Partition) (k : CoreId) : (s.modPart i f).mcore k = s.mcore k := rfl
@[simp] theorem State.modPart_running (i : Nat) (f : Partition → Partition) (j : Nat) : (s.modPart i f).running j = s.running j := rfl
theorem State.modPart_part (i : Nat) (f : Partition → Partition) (j : Nat) : (s.modPart i f).part j = if i = j then f (s.part i) else s.part j := tget_tput _ _ _ _ _
@[simp] theorem State.modPart_part_same (i : Nat) (f : Partition → Partition) : (s.modPart i f).part i = f (s.part i) := tget_tput_same _ _ _ _
theorem State.modPart_part_other (i : Nat) (f : Partition → Partition) (j : Nat) (h : i ≠ j) : (s.modPart i f).part j = s.part j := tget_tput_other _ _ _ h

/-! modVf -/
@[simp] theorem State.modVf_tick (i : Nat) (f : Vf → Vf) : (s.modVf i f).tick = s.tick := rfl
@[simp] theorem State.modVf_failed (i : Nat) (f : Vf → Vf) : (s.modVf i f).failed = s.failed := rfl
@[simp] theorem State.modVf_ports (i : Nat) (f : Vf → Vf) : (s.modVf i f).ports = s.ports := rfl
@[simp] theorem State.modVf_hbm (i : Nat) (f : Vf → Vf) : (s.modVf i f).hbm = s.hbm := rfl
@[simp] theorem State.modVf_kwe (i : Nat) (f : Vf → Vf) : (s.modVf i f).kwe = s.kwe := rfl
@[simp] theorem State.modVf_lidOpened (i : Nat) (f : Vf → Vf) : (s.modVf i f).lidOpened = s.lidOpened := rfl
@[simp] theorem State.modVf_lidOpen (i : Nat) (f : Vf → Vf) : (s.modVf i f).lidOpen = s.lidOpen := rfl
@[simp] theorem State.modVf_lidSensor (i : Nat) (f : Vf → Vf) : (s.modVf i f).lidSensor = s.lidSensor := rfl
@[simp] theorem State.modVf_rim (i : Nat) (f : Vf → Vf) : (s.modVf i f).rim = s.rim := rfl
@[simp] theorem State.modVf_rimTags (i : Nat) (f : Vf → Vf) : (s.modVf i f).rimTags = s.rimTags := rfl
@[simp] theorem State.modVf_poison (i : Nat) (f : Vf → Vf) : (s.modVf i f).poison = s.poison := rfl
@[simp] theorem State.modVf_host (i : Nat) (f : Vf → Vf) : (s.modVf i f).host = s.host := rfl
@[simp] theorem State.modVf_chans (i : Nat) (f : Vf → Vf) : (s.modVf i f).chans = s.chans := rfl
@[simp] theorem State.modVf_clusters (i : Nat) (f : Vf → Vf) : (s.modVf i f).clusters = s.clusters := rfl
@[simp] theorem State.modVf_slices (i : Nat) (f : Vf → Vf) : (s.modVf i f).slices = s.slices := rfl
@[simp] theorem State.modVf_tiles (i : Nat) (f : Vf → Vf) : (s.modVf i f).tiles = s.tiles := rfl
@[simp] theorem State.modVf_pairs (i : Nat) (f : Vf → Vf) : (s.modVf i f).pairs = s.pairs := rfl
@[simp] theorem State.modVf_ctxs (i : Nat) (f : Vf → Vf) : (s.modVf i f).ctxs = s.ctxs := rfl
@[simp] theorem State.modVf_cores (i : Nat) (f : Vf → Vf) : (s.modVf i f).cores = s.cores := rfl
@[simp] theorem State.modVf_regions (i : Nat) (f : Vf → Vf) : (s.modVf i f).regions = s.regions := rfl
@[simp] theorem State.modVf_parts (i : Nat) (f : Vf → Vf) : (s.modVf i f).parts = s.parts := rfl
theorem State.modVf_vfs (i : Nat) (f : Vf → Vf) : (s.modVf i f).vfs = tput {} i (f (s.vf i)) s.vfs := rfl
@[simp] theorem State.modVf_rails (i : Nat) (f : Vf → Vf) : (s.modVf i f).rails = s.rails := rfl
@[simp] theorem State.modVf_pubs (i : Nat) (f : Vf → Vf) : (s.modVf i f).pubs = s.pubs := rfl
@[simp] theorem State.modVf_held (i : Nat) (f : Vf → Vf) : (s.modVf i f).held = s.held := rfl
@[simp] theorem State.modVf_flying (i : Nat) (f : Vf → Vf) : (s.modVf i f).flying = s.flying := rfl
@[simp] theorem State.modVf_flight (i : Nat) (f : Vf → Vf) : (s.modVf i f).flight = s.flight := rfl
@[simp] theorem State.modVf_hostReqs (i : Nat) (f : Vf → Vf) : (s.modVf i f).hostReqs = s.hostReqs := rfl
@[simp] theorem State.modVf_invals (i : Nat) (f : Vf → Vf) : (s.modVf i f).invals = s.invals := rfl
@[simp] theorem State.modVf_drains (i : Nat) (f : Vf → Vf) : (s.modVf i f).drains = s.drains := rfl
@[simp] theorem State.modVf_glide (i : Nat) (f : Vf → Vf) : (s.modVf i f).glide = s.glide := rfl
@[simp] theorem State.modVf_killTicks (i : Nat) (f : Vf → Vf) : (s.modVf i f).killTicks = s.killTicks := rfl
@[simp] theorem State.modVf_image (i : Nat) (f : Vf → Vf) : (s.modVf i f).image = s.image := rfl
@[simp] theorem State.modVf_out (i : Nat) (f : Vf → Vf) : (s.modVf i f).out = s.out := rfl
@[simp] theorem State.modVf_agenda (i : Nat) (f : Vf → Vf) : (s.modVf i f).agenda = s.agenda := rfl
@[simp] theorem State.modVf_edging (i : Nat) (f : Vf → Vf) : (s.modVf i f).edging = s.edging := rfl
@[simp] theorem State.modVf_focus (i : Nat) (f : Vf → Vf) : (s.modVf i f).focus = s.focus := rfl
@[simp] theorem State.modVf_seq (i : Nat) (f : Vf → Vf) : (s.modVf i f).seq = s.seq := rfl
@[simp] theorem State.modVf_freeCtr (i : Nat) (f : Vf → Vf) : (s.modVf i f).freeCtr = s.freeCtr := rfl
@[simp] theorem State.modVf_tile (i : Nat) (f : Vf → Vf) (j : Nat) : (s.modVf i f).tile j = s.tile j := rfl
@[simp] theorem State.modVf_pair (i : Nat) (f : Vf → Vf) (j : Nat) : (s.modVf i f).pair j = s.pair j := rfl
@[simp] theorem State.modVf_cluster (i : Nat) (f : Vf → Vf) (j : Nat) : (s.modVf i f).cluster j = s.cluster j := rfl
@[simp] theorem State.modVf_slice (i : Nat) (f : Vf → Vf) (j : Nat) : (s.modVf i f).slice j = s.slice j := rfl
@[simp] theorem State.modVf_ctx (i : Nat) (f : Vf → Vf) (j : Nat) : (s.modVf i f).ctx j = s.ctx j := rfl
@[simp] theorem State.modVf_core (i : Nat) (f : Vf → Vf) (j : Nat) : (s.modVf i f).core j = s.core j := rfl
@[simp] theorem State.modVf_region (i : Nat) (f : Vf → Vf) (j : Nat) : (s.modVf i f).region j = s.region j := rfl
@[simp] theorem State.modVf_part (i : Nat) (f : Vf → Vf) (j : Nat) : (s.modVf i f).part j = s.part j := rfl
@[simp] theorem State.modVf_chan (i : Nat) (f : Vf → Vf) (j : Nat) : (s.modVf i f).chan j = s.chan j := rfl
@[simp] theorem State.modVf_port (i : Nat) (f : Vf → Vf) (j : Nat) : (s.modVf i f).port j = s.port j := rfl
@[simp] theorem State.modVf_rail (i : Nat) (f : Vf → Vf) (j : Nat) : (s.modVf i f).rail j = s.rail j := rfl
@[simp] theorem State.modVf_pub (i : Nat) (f : Vf → Vf) (j : Nat) : (s.modVf i f).pub j = s.pub j := rfl
@[simp] theorem State.modVf_kport (i : Nat) (f : Vf → Vf) (j : Nat) : (s.modVf i f).kport j = s.kport j := rfl
@[simp] theorem State.modVf_monitor (i : Nat) (f : Vf → Vf) : (s.modVf i f).monitor = s.monitor := rfl
@[simp] theorem State.modVf_myKey (i : Nat) (f : Vf → Vf) : (s.modVf i f).myKey = s.myKey := rfl
@[simp] theorem State.modVf_me (i : Nat) (f : Vf → Vf) : (s.modVf i f).me = s.me := rfl
@[simp] theorem State.modVf_myRegion (i : Nat) (f : Vf → Vf) : (s.modVf i f).myRegion = s.myRegion := rfl
@[simp] theorem State.modVf_mySlot (i : Nat) (f : Vf → Vf) : (s.modVf i f).mySlot = s.mySlot := rfl
@[simp] theorem State.modVf_my (i : Nat) (f : Vf → Vf) : (s.modVf i f).my = s.my := rfl
@[simp] theorem State.modVf_mcore (i : Nat) (f : Vf → Vf) (k : CoreId) : (s.modVf i f).mcore k = s.mcore k := rfl
@[simp] theorem State.modVf_running (i : Nat) (f : Vf → Vf) (j : Nat) : (s.modVf i f).running j = s.running j := rfl
theorem State.modVf_vf (i : Nat) (f : Vf → Vf) (j : Nat) : (s.modVf i f).vf j = if i = j then f (s.vf i) else s.vf j := tget_tput _ _ _ _ _
@[simp] theorem State.modVf_vf_same (i : Nat) (f : Vf → Vf) : (s.modVf i f).vf i = f (s.vf i) := tget_tput_same _ _ _ _
theorem State.modVf_vf_other (i : Nat) (f : Vf → Vf) (j : Nat) (h : i ≠ j) : (s.modVf i f).vf j = s.vf j := tget_tput_other _ _ _ h

/-! modChan -/
@[simp] theorem State.modChan_tick (i : Nat) (f : Chan → Chan) : (s.modChan i f).tick = s.tick := rfl
@[simp] theorem State.modChan_failed (i : Nat) (f : Chan → Chan) : (s.modChan i f).failed = s.failed := rfl
@[simp] theorem State.modChan_ports (i : Nat) (f : Chan → Chan) : (s.modChan i f).ports = s.ports := rfl
@[simp] theorem State.modChan_hbm (i : Nat) (f : Chan → Chan) : (s.modChan i f).hbm = s.hbm := rfl
@[simp] theorem State.modChan_kwe (i : Nat) (f : Chan → Chan) : (s.modChan i f).kwe = s.kwe := rfl
@[simp] theorem State.modChan_lidOpened (i : Nat) (f : Chan → Chan) : (s.modChan i f).lidOpened = s.lidOpened := rfl
@[simp] theorem State.modChan_lidOpen (i : Nat) (f : Chan → Chan) : (s.modChan i f).lidOpen = s.lidOpen := rfl
@[simp] theorem State.modChan_lidSensor (i : Nat) (f : Chan → Chan) : (s.modChan i f).lidSensor = s.lidSensor := rfl
@[simp] theorem State.modChan_rim (i : Nat) (f : Chan → Chan) : (s.modChan i f).rim = s.rim := rfl
@[simp] theorem State.modChan_rimTags (i : Nat) (f : Chan → Chan) : (s.modChan i f).rimTags = s.rimTags := rfl
@[simp] theorem State.modChan_poison (i : Nat) (f : Chan → Chan) : (s.modChan i f).poison = s.poison := rfl
@[simp] theorem State.modChan_host (i : Nat) (f : Chan → Chan) : (s.modChan i f).host = s.host := rfl
theorem State.modChan_chans (i : Nat) (f : Chan → Chan) : (s.modChan i f).chans = tput {} i (f (s.chan i)) s.chans := rfl
@[simp] theorem State.modChan_clusters (i : Nat) (f : Chan → Chan) : (s.modChan i f).clusters = s.clusters := rfl
@[simp] theorem State.modChan_slices (i : Nat) (f : Chan → Chan) : (s.modChan i f).slices = s.slices := rfl
@[simp] theorem State.modChan_tiles (i : Nat) (f : Chan → Chan) : (s.modChan i f).tiles = s.tiles := rfl
@[simp] theorem State.modChan_pairs (i : Nat) (f : Chan → Chan) : (s.modChan i f).pairs = s.pairs := rfl
@[simp] theorem State.modChan_ctxs (i : Nat) (f : Chan → Chan) : (s.modChan i f).ctxs = s.ctxs := rfl
@[simp] theorem State.modChan_cores (i : Nat) (f : Chan → Chan) : (s.modChan i f).cores = s.cores := rfl
@[simp] theorem State.modChan_regions (i : Nat) (f : Chan → Chan) : (s.modChan i f).regions = s.regions := rfl
@[simp] theorem State.modChan_parts (i : Nat) (f : Chan → Chan) : (s.modChan i f).parts = s.parts := rfl
@[simp] theorem State.modChan_vfs (i : Nat) (f : Chan → Chan) : (s.modChan i f).vfs = s.vfs := rfl
@[simp] theorem State.modChan_rails (i : Nat) (f : Chan → Chan) : (s.modChan i f).rails = s.rails := rfl
@[simp] theorem State.modChan_pubs (i : Nat) (f : Chan → Chan) : (s.modChan i f).pubs = s.pubs := rfl
@[simp] theorem State.modChan_held (i : Nat) (f : Chan → Chan) : (s.modChan i f).held = s.held := rfl
@[simp] theorem State.modChan_flying (i : Nat) (f : Chan → Chan) : (s.modChan i f).flying = s.flying := rfl
@[simp] theorem State.modChan_flight (i : Nat) (f : Chan → Chan) : (s.modChan i f).flight = s.flight := rfl
@[simp] theorem State.modChan_hostReqs (i : Nat) (f : Chan → Chan) : (s.modChan i f).hostReqs = s.hostReqs := rfl
@[simp] theorem State.modChan_invals (i : Nat) (f : Chan → Chan) : (s.modChan i f).invals = s.invals := rfl
@[simp] theorem State.modChan_drains (i : Nat) (f : Chan → Chan) : (s.modChan i f).drains = s.drains := rfl
@[simp] theorem State.modChan_glide (i : Nat) (f : Chan → Chan) : (s.modChan i f).glide = s.glide := rfl
@[simp] theorem State.modChan_killTicks (i : Nat) (f : Chan → Chan) : (s.modChan i f).killTicks = s.killTicks := rfl
@[simp] theorem State.modChan_image (i : Nat) (f : Chan → Chan) : (s.modChan i f).image = s.image := rfl
@[simp] theorem State.modChan_out (i : Nat) (f : Chan → Chan) : (s.modChan i f).out = s.out := rfl
@[simp] theorem State.modChan_agenda (i : Nat) (f : Chan → Chan) : (s.modChan i f).agenda = s.agenda := rfl
@[simp] theorem State.modChan_edging (i : Nat) (f : Chan → Chan) : (s.modChan i f).edging = s.edging := rfl
@[simp] theorem State.modChan_focus (i : Nat) (f : Chan → Chan) : (s.modChan i f).focus = s.focus := rfl
@[simp] theorem State.modChan_seq (i : Nat) (f : Chan → Chan) : (s.modChan i f).seq = s.seq := rfl
@[simp] theorem State.modChan_freeCtr (i : Nat) (f : Chan → Chan) : (s.modChan i f).freeCtr = s.freeCtr := rfl
@[simp] theorem State.modChan_tile (i : Nat) (f : Chan → Chan) (j : Nat) : (s.modChan i f).tile j = s.tile j := rfl
@[simp] theorem State.modChan_pair (i : Nat) (f : Chan → Chan) (j : Nat) : (s.modChan i f).pair j = s.pair j := rfl
@[simp] theorem State.modChan_cluster (i : Nat) (f : Chan → Chan) (j : Nat) : (s.modChan i f).cluster j = s.cluster j := rfl
@[simp] theorem State.modChan_slice (i : Nat) (f : Chan → Chan) (j : Nat) : (s.modChan i f).slice j = s.slice j := rfl
@[simp] theorem State.modChan_ctx (i : Nat) (f : Chan → Chan) (j : Nat) : (s.modChan i f).ctx j = s.ctx j := rfl
@[simp] theorem State.modChan_core (i : Nat) (f : Chan → Chan) (j : Nat) : (s.modChan i f).core j = s.core j := rfl
@[simp] theorem State.modChan_region (i : Nat) (f : Chan → Chan) (j : Nat) : (s.modChan i f).region j = s.region j := rfl
@[simp] theorem State.modChan_part (i : Nat) (f : Chan → Chan) (j : Nat) : (s.modChan i f).part j = s.part j := rfl
@[simp] theorem State.modChan_vf (i : Nat) (f : Chan → Chan) (j : Nat) : (s.modChan i f).vf j = s.vf j := rfl
@[simp] theorem State.modChan_port (i : Nat) (f : Chan → Chan) (j : Nat) : (s.modChan i f).port j = s.port j := rfl
@[simp] theorem State.modChan_rail (i : Nat) (f : Chan → Chan) (j : Nat) : (s.modChan i f).rail j = s.rail j := rfl
@[simp] theorem State.modChan_pub (i : Nat) (f : Chan → Chan) (j : Nat) : (s.modChan i f).pub j = s.pub j := rfl
@[simp] theorem State.modChan_kport (i : Nat) (f : Chan → Chan) (j : Nat) : (s.modChan i f).kport j = s.kport j := rfl
@[simp] theorem State.modChan_monitor (i : Nat) (f : Chan → Chan) : (s.modChan i f).monitor = s.monitor := rfl
@[simp] theorem State.modChan_myKey (i : Nat) (f : Chan → Chan) : (s.modChan i f).myKey = s.myKey := rfl
@[simp] theorem State.modChan_me (i : Nat) (f : Chan → Chan) : (s.modChan i f).me = s.me := rfl
@[simp] theorem State.modChan_myRegion (i : Nat) (f : Chan → Chan) : (s.modChan i f).myRegion = s.myRegion := rfl
@[simp] theorem State.modChan_mySlot (i : Nat) (f : Chan → Chan) : (s.modChan i f).mySlot = s.mySlot := rfl
@[simp] theorem State.modChan_my (i : Nat) (f : Chan → Chan) : (s.modChan i f).my = s.my := rfl
@[simp] theorem State.modChan_mcore (i : Nat) (f : Chan → Chan) (k : CoreId) : (s.modChan i f).mcore k = s.mcore k := rfl
@[simp] theorem State.modChan_running (i : Nat) (f : Chan → Chan) (j : Nat) : (s.modChan i f).running j = s.running j := rfl
theorem State.modChan_chan (i : Nat) (f : Chan → Chan) (j : Nat) : (s.modChan i f).chan j = if i = j then f (s.chan i) else s.chan j := tget_tput _ _ _ _ _
@[simp] theorem State.modChan_chan_same (i : Nat) (f : Chan → Chan) : (s.modChan i f).chan i = f (s.chan i) := tget_tput_same _ _ _ _
theorem State.modChan_chan_other (i : Nat) (f : Chan → Chan) (j : Nat) (h : i ≠ j) : (s.modChan i f).chan j = s.chan j := tget_tput_other _ _ _ h

/-! modPort -/
@[simp] theorem State.modPort_tick (i : Nat) (f : Port → Port) : (s.modPort i f).tick = s.tick := rfl
@[simp] theorem State.modPort_failed (i : Nat) (f : Port → Port) : (s.modPort i f).failed = s.failed := rfl
theorem State.modPort_ports (i : Nat) (f : Port → Port) : (s.modPort i f).ports = tput {} i (f (s.port i)) s.ports := rfl
@[simp] theorem State.modPort_hbm (i : Nat) (f : Port → Port) : (s.modPort i f).hbm = s.hbm := rfl
@[simp] theorem State.modPort_kwe (i : Nat) (f : Port → Port) : (s.modPort i f).kwe = s.kwe := rfl
@[simp] theorem State.modPort_lidOpened (i : Nat) (f : Port → Port) : (s.modPort i f).lidOpened = s.lidOpened := rfl
@[simp] theorem State.modPort_lidOpen (i : Nat) (f : Port → Port) : (s.modPort i f).lidOpen = s.lidOpen := rfl
@[simp] theorem State.modPort_lidSensor (i : Nat) (f : Port → Port) : (s.modPort i f).lidSensor = s.lidSensor := rfl
@[simp] theorem State.modPort_rim (i : Nat) (f : Port → Port) : (s.modPort i f).rim = s.rim := rfl
@[simp] theorem State.modPort_rimTags (i : Nat) (f : Port → Port) : (s.modPort i f).rimTags = s.rimTags := rfl
@[simp] theorem State.modPort_poison (i : Nat) (f : Port → Port) : (s.modPort i f).poison = s.poison := rfl
@[simp] theorem State.modPort_host (i : Nat) (f : Port → Port) : (s.modPort i f).host = s.host := rfl
@[simp] theorem State.modPort_chans (i : Nat) (f : Port → Port) : (s.modPort i f).chans = s.chans := rfl
@[simp] theorem State.modPort_clusters (i : Nat) (f : Port → Port) : (s.modPort i f).clusters = s.clusters := rfl
@[simp] theorem State.modPort_slices (i : Nat) (f : Port → Port) : (s.modPort i f).slices = s.slices := rfl
@[simp] theorem State.modPort_tiles (i : Nat) (f : Port → Port) : (s.modPort i f).tiles = s.tiles := rfl
@[simp] theorem State.modPort_pairs (i : Nat) (f : Port → Port) : (s.modPort i f).pairs = s.pairs := rfl
@[simp] theorem State.modPort_ctxs (i : Nat) (f : Port → Port) : (s.modPort i f).ctxs = s.ctxs := rfl
@[simp] theorem State.modPort_cores (i : Nat) (f : Port → Port) : (s.modPort i f).cores = s.cores := rfl
@[simp] theorem State.modPort_regions (i : Nat) (f : Port → Port) : (s.modPort i f).regions = s.regions := rfl
@[simp] theorem State.modPort_parts (i : Nat) (f : Port → Port) : (s.modPort i f).parts = s.parts := rfl
@[simp] theorem State.modPort_vfs (i : Nat) (f : Port → Port) : (s.modPort i f).vfs = s.vfs := rfl
@[simp] theorem State.modPort_rails (i : Nat) (f : Port → Port) : (s.modPort i f).rails = s.rails := rfl
@[simp] theorem State.modPort_pubs (i : Nat) (f : Port → Port) : (s.modPort i f).pubs = s.pubs := rfl
@[simp] theorem State.modPort_held (i : Nat) (f : Port → Port) : (s.modPort i f).held = s.held := rfl
@[simp] theorem State.modPort_flying (i : Nat) (f : Port → Port) : (s.modPort i f).flying = s.flying := rfl
@[simp] theorem State.modPort_flight (i : Nat) (f : Port → Port) : (s.modPort i f).flight = s.flight := rfl
@[simp] theorem State.modPort_hostReqs (i : Nat) (f : Port → Port) : (s.modPort i f).hostReqs = s.hostReqs := rfl
@[simp] theorem State.modPort_invals (i : Nat) (f : Port → Port) : (s.modPort i f).invals = s.invals := rfl
@[simp] theorem State.modPort_drains (i : Nat) (f : Port → Port) : (s.modPort i f).drains = s.drains := rfl
@[simp] theorem State.modPort_glide (i : Nat) (f : Port → Port) : (s.modPort i f).glide = s.glide := rfl
@[simp] theorem State.modPort_killTicks (i : Nat) (f : Port → Port) : (s.modPort i f).killTicks = s.killTicks := rfl
@[simp] theorem State.modPort_image (i : Nat) (f : Port → Port) : (s.modPort i f).image = s.image := rfl
@[simp] theorem State.modPort_out (i : Nat) (f : Port → Port) : (s.modPort i f).out = s.out := rfl
@[simp] theorem State.modPort_agenda (i : Nat) (f : Port → Port) : (s.modPort i f).agenda = s.agenda := rfl
@[simp] theorem State.modPort_edging (i : Nat) (f : Port → Port) : (s.modPort i f).edging = s.edging := rfl
@[simp] theorem State.modPort_focus (i : Nat) (f : Port → Port) : (s.modPort i f).focus = s.focus := rfl
@[simp] theorem State.modPort_seq (i : Nat) (f : Port → Port) : (s.modPort i f).seq = s.seq := rfl
@[simp] theorem State.modPort_freeCtr (i : Nat) (f : Port → Port) : (s.modPort i f).freeCtr = s.freeCtr := rfl
@[simp] theorem State.modPort_tile (i : Nat) (f : Port → Port) (j : Nat) : (s.modPort i f).tile j = s.tile j := rfl
@[simp] theorem State.modPort_pair (i : Nat) (f : Port → Port) (j : Nat) : (s.modPort i f).pair j = s.pair j := rfl
@[simp] theorem State.modPort_cluster (i : Nat) (f : Port → Port) (j : Nat) : (s.modPort i f).cluster j = s.cluster j := rfl
@[simp] theorem State.modPort_slice (i : Nat) (f : Port → Port) (j : Nat) : (s.modPort i f).slice j = s.slice j := rfl
@[simp] theorem State.modPort_ctx (i : Nat) (f : Port → Port) (j : Nat) : (s.modPort i f).ctx j = s.ctx j := rfl
@[simp] theorem State.modPort_core (i : Nat) (f : Port → Port) (j : Nat) : (s.modPort i f).core j = s.core j := rfl
@[simp] theorem State.modPort_region (i : Nat) (f : Port → Port) (j : Nat) : (s.modPort i f).region j = s.region j := rfl
@[simp] theorem State.modPort_part (i : Nat) (f : Port → Port) (j : Nat) : (s.modPort i f).part j = s.part j := rfl
@[simp] theorem State.modPort_vf (i : Nat) (f : Port → Port) (j : Nat) : (s.modPort i f).vf j = s.vf j := rfl
@[simp] theorem State.modPort_chan (i : Nat) (f : Port → Port) (j : Nat) : (s.modPort i f).chan j = s.chan j := rfl
@[simp] theorem State.modPort_rail (i : Nat) (f : Port → Port) (j : Nat) : (s.modPort i f).rail j = s.rail j := rfl
@[simp] theorem State.modPort_pub (i : Nat) (f : Port → Port) (j : Nat) : (s.modPort i f).pub j = s.pub j := rfl
@[simp] theorem State.modPort_kport (i : Nat) (f : Port → Port) (j : Nat) : (s.modPort i f).kport j = s.kport j := rfl
@[simp] theorem State.modPort_monitor (i : Nat) (f : Port → Port) : (s.modPort i f).monitor = s.monitor := rfl
@[simp] theorem State.modPort_myKey (i : Nat) (f : Port → Port) : (s.modPort i f).myKey = s.myKey := rfl
@[simp] theorem State.modPort_me (i : Nat) (f : Port → Port) : (s.modPort i f).me = s.me := rfl
@[simp] theorem State.modPort_myRegion (i : Nat) (f : Port → Port) : (s.modPort i f).myRegion = s.myRegion := rfl
@[simp] theorem State.modPort_mySlot (i : Nat) (f : Port → Port) : (s.modPort i f).mySlot = s.mySlot := rfl
@[simp] theorem State.modPort_my (i : Nat) (f : Port → Port) : (s.modPort i f).my = s.my := rfl
@[simp] theorem State.modPort_mcore (i : Nat) (f : Port → Port) (k : CoreId) : (s.modPort i f).mcore k = s.mcore k := rfl
@[simp] theorem State.modPort_running (i : Nat) (f : Port → Port) (j : Nat) : (s.modPort i f).running j = s.running j := rfl
theorem State.modPort_port (i : Nat) (f : Port → Port) (j : Nat) : (s.modPort i f).port j = if i = j then f (s.port i) else s.port j := tget_tput _ _ _ _ _
@[simp] theorem State.modPort_port_same (i : Nat) (f : Port → Port) : (s.modPort i f).port i = f (s.port i) := tget_tput_same _ _ _ _
theorem State.modPort_port_other (i : Nat) (f : Port → Port) (j : Nat) (h : i ≠ j) : (s.modPort i f).port j = s.port j := tget_tput_other _ _ _ h

/-! modKport -/
@[simp] theorem State.modKport_tick (i : Nat) (f : Kwe → Kwe) : (s.modKport i f).tick = s.tick := rfl
@[simp] theorem State.modKport_failed (i : Nat) (f : Kwe → Kwe) : (s.modKport i f).failed = s.failed := rfl
@[simp] theorem State.modKport_ports (i : Nat) (f : Kwe → Kwe) : (s.modKport i f).ports = s.ports := rfl
@[simp] theorem State.modKport_hbm (i : Nat) (f : Kwe → Kwe) : (s.modKport i f).hbm = s.hbm := rfl
theorem State.modKport_kwe (i : Nat) (f : Kwe → Kwe) : (s.modKport i f).kwe = tput {} i (f (s.kport i)) s.kwe := rfl
@[simp] theorem State.modKport_lidOpened (i : Nat) (f : Kwe → Kwe) : (s.modKport i f).lidOpened = s.lidOpened := rfl
@[simp] theorem State.modKport_lidOpen (i : Nat) (f : Kwe → Kwe) : (s.modKport i f).lidOpen = s.lidOpen := rfl
@[simp] theorem State.modKport_lidSensor (i : Nat) (f : Kwe → Kwe) : (s.modKport i f).lidSensor = s.lidSensor := rfl
@[simp] theorem State.modKport_rim (i : Nat) (f : Kwe → Kwe) : (s.modKport i f).rim = s.rim := rfl
@[simp] theorem State.modKport_rimTags (i : Nat) (f : Kwe → Kwe) : (s.modKport i f).rimTags = s.rimTags := rfl
@[simp] theorem State.modKport_poison (i : Nat) (f : Kwe → Kwe) : (s.modKport i f).poison = s.poison := rfl
@[simp] theorem State.modKport_host (i : Nat) (f : Kwe → Kwe) : (s.modKport i f).host = s.host := rfl
@[simp] theorem State.modKport_chans (i : Nat) (f : Kwe → Kwe) : (s.modKport i f).chans = s.chans := rfl
@[simp] theorem State.modKport_clusters (i : Nat) (f : Kwe → Kwe) : (s.modKport i f).clusters = s.clusters := rfl
@[simp] theorem State.modKport_slices (i : Nat) (f : Kwe → Kwe) : (s.modKport i f).slices = s.slices := rfl
@[simp] theorem State.modKport_tiles (i : Nat) (f : Kwe → Kwe) : (s.modKport i f).tiles = s.tiles := rfl
@[simp] theorem State.modKport_pairs (i : Nat) (f : Kwe → Kwe) : (s.modKport i f).pairs = s.pairs := rfl
@[simp] theorem State.modKport_ctxs (i : Nat) (f : Kwe → Kwe) : (s.modKport i f).ctxs = s.ctxs := rfl
@[simp] theorem State.modKport_cores (i : Nat) (f : Kwe → Kwe) : (s.modKport i f).cores = s.cores := rfl
@[simp] theorem State.modKport_regions (i : Nat) (f : Kwe → Kwe) : (s.modKport i f).regions = s.regions := rfl
@[simp] theorem State.modKport_parts (i : Nat) (f : Kwe → Kwe) : (s.modKport i f).parts = s.parts := rfl
@[simp] theorem State.modKport_vfs (i : Nat) (f : Kwe → Kwe) : (s.modKport i f).vfs = s.vfs := rfl
@[simp] theorem State.modKport_rails (i : Nat) (f : Kwe → Kwe) : (s.modKport i f).rails = s.rails := rfl
@[simp] theorem State.modKport_pubs (i : Nat) (f : Kwe → Kwe) : (s.modKport i f).pubs = s.pubs := rfl
@[simp] theorem State.modKport_held (i : Nat) (f : Kwe → Kwe) : (s.modKport i f).held = s.held := rfl
@[simp] theorem State.modKport_flying (i : Nat) (f : Kwe → Kwe) : (s.modKport i f).flying = s.flying := rfl
@[simp] theorem State.modKport_flight (i : Nat) (f : Kwe → Kwe) : (s.modKport i f).flight = s.flight := rfl
@[simp] theorem State.modKport_hostReqs (i : Nat) (f : Kwe → Kwe) : (s.modKport i f).hostReqs = s.hostReqs := rfl
@[simp] theorem State.modKport_invals (i : Nat) (f : Kwe → Kwe) : (s.modKport i f).invals = s.invals := rfl
@[simp] theorem State.modKport_drains (i : Nat) (f : Kwe → Kwe) : (s.modKport i f).drains = s.drains := rfl
@[simp] theorem State.modKport_glide (i : Nat) (f : Kwe → Kwe) : (s.modKport i f).glide = s.glide := rfl
@[simp] theorem State.modKport_killTicks (i : Nat) (f : Kwe → Kwe) : (s.modKport i f).killTicks = s.killTicks := rfl
@[simp] theorem State.modKport_image (i : Nat) (f : Kwe → Kwe) : (s.modKport i f).image = s.image := rfl
@[simp] theorem State.modKport_out (i : Nat) (f : Kwe → Kwe) : (s.modKport i f).out = s.out := rfl
@[simp] theorem State.modKport_agenda (i : Nat) (f : Kwe → Kwe) : (s.modKport i f).agenda = s.agenda := rfl
@[simp] theorem State.modKport_edging (i : Nat) (f : Kwe → Kwe) : (s.modKport i f).edging = s.edging := rfl
@[simp] theorem State.modKport_focus (i : Nat) (f : Kwe → Kwe) : (s.modKport i f).focus = s.focus := rfl
@[simp] theorem State.modKport_seq (i : Nat) (f : Kwe → Kwe) : (s.modKport i f).seq = s.seq := rfl
@[simp] theorem State.modKport_freeCtr (i : Nat) (f : Kwe → Kwe) : (s.modKport i f).freeCtr = s.freeCtr := rfl
@[simp] theorem State.modKport_tile (i : Nat) (f : Kwe → Kwe) (j : Nat) : (s.modKport i f).tile j = s.tile j := rfl
@[simp] theorem State.modKport_pair (i : Nat) (f : Kwe → Kwe) (j : Nat) : (s.modKport i f).pair j = s.pair j := rfl
@[simp] theorem State.modKport_cluster (i : Nat) (f : Kwe → Kwe) (j : Nat) : (s.modKport i f).cluster j = s.cluster j := rfl
@[simp] theorem State.modKport_slice (i : Nat) (f : Kwe → Kwe) (j : Nat) : (s.modKport i f).slice j = s.slice j := rfl
@[simp] theorem State.modKport_ctx (i : Nat) (f : Kwe → Kwe) (j : Nat) : (s.modKport i f).ctx j = s.ctx j := rfl
@[simp] theorem State.modKport_core (i : Nat) (f : Kwe → Kwe) (j : Nat) : (s.modKport i f).core j = s.core j := rfl
@[simp] theorem State.modKport_region (i : Nat) (f : Kwe → Kwe) (j : Nat) : (s.modKport i f).region j = s.region j := rfl
@[simp] theorem State.modKport_part (i : Nat) (f : Kwe → Kwe) (j : Nat) : (s.modKport i f).part j = s.part j := rfl
@[simp] theorem State.modKport_vf (i : Nat) (f : Kwe → Kwe) (j : Nat) : (s.modKport i f).vf j = s.vf j := rfl
@[simp] theorem State.modKport_chan (i : Nat) (f : Kwe → Kwe) (j : Nat) : (s.modKport i f).chan j = s.chan j := rfl
@[simp] theorem State.modKport_port (i : Nat) (f : Kwe → Kwe) (j : Nat) : (s.modKport i f).port j = s.port j := rfl
@[simp] theorem State.modKport_rail (i : Nat) (f : Kwe → Kwe) (j : Nat) : (s.modKport i f).rail j = s.rail j := rfl
@[simp] theorem State.modKport_pub (i : Nat) (f : Kwe → Kwe) (j : Nat) : (s.modKport i f).pub j = s.pub j := rfl
@[simp] theorem State.modKport_monitor (i : Nat) (f : Kwe → Kwe) : (s.modKport i f).monitor = s.monitor := rfl
@[simp] theorem State.modKport_myKey (i : Nat) (f : Kwe → Kwe) : (s.modKport i f).myKey = s.myKey := rfl
@[simp] theorem State.modKport_me (i : Nat) (f : Kwe → Kwe) : (s.modKport i f).me = s.me := rfl
@[simp] theorem State.modKport_myRegion (i : Nat) (f : Kwe → Kwe) : (s.modKport i f).myRegion = s.myRegion := rfl
@[simp] theorem State.modKport_mySlot (i : Nat) (f : Kwe → Kwe) : (s.modKport i f).mySlot = s.mySlot := rfl
@[simp] theorem State.modKport_my (i : Nat) (f : Kwe → Kwe) : (s.modKport i f).my = s.my := rfl
@[simp] theorem State.modKport_mcore (i : Nat) (f : Kwe → Kwe) (k : CoreId) : (s.modKport i f).mcore k = s.mcore k := rfl
@[simp] theorem State.modKport_running (i : Nat) (f : Kwe → Kwe) (j : Nat) : (s.modKport i f).running j = s.running j := rfl
theorem State.modKport_kport (i : Nat) (f : Kwe → Kwe) (j : Nat) : (s.modKport i f).kport j = if i = j then f (s.kport i) else s.kport j := tget_tput _ _ _ _ _
@[simp] theorem State.modKport_kport_same (i : Nat) (f : Kwe → Kwe) : (s.modKport i f).kport i = f (s.kport i) := tget_tput_same _ _ _ _
theorem State.modKport_kport_other (i : Nat) (f : Kwe → Kwe) (j : Nat) (h : i ≠ j) : (s.modKport i f).kport j = s.kport j := tget_tput_other _ _ _ h

/-! setPub -/
@[simp] theorem State.setPub_tick (i : Nat) (p : Option Pub) : (s.setPub i p).tick = s.tick := rfl
@[simp] theorem State.setPub_failed (i : Nat) (p : Option Pub) : (s.setPub i p).failed = s.failed := rfl
@[simp] theorem State.setPub_ports (i : Nat) (p : Option Pub) : (s.setPub i p).ports = s.ports := rfl
@[simp] theorem State.setPub_hbm (i : Nat) (p : Option Pub) : (s.setPub i p).hbm = s.hbm := rfl
@[simp] theorem State.setPub_kwe (i : Nat) (p : Option Pub) : (s.setPub i p).kwe = s.kwe := rfl
@[simp] theorem State.setPub_lidOpened (i : Nat) (p : Option Pub) : (s.setPub i p).lidOpened = s.lidOpened := rfl
@[simp] theorem State.setPub_lidOpen (i : Nat) (p : Option Pub) : (s.setPub i p).lidOpen = s.lidOpen := rfl
@[simp] theorem State.setPub_lidSensor (i : Nat) (p : Option Pub) : (s.setPub i p).lidSensor = s.lidSensor := rfl
@[simp] theorem State.setPub_rim (i : Nat) (p : Option Pub) : (s.setPub i p).rim = s.rim := rfl
@[simp] theorem State.setPub_rimTags (i : Nat) (p : Option Pub) : (s.setPub i p).rimTags = s.rimTags := rfl
@[simp] theorem State.setPub_poison (i : Nat) (p : Option Pub) : (s.setPub i p).poison = s.poison := rfl
@[simp] theorem State.setPub_host (i : Nat) (p : Option Pub) : (s.setPub i p).host = s.host := rfl
@[simp] theorem State.setPub_chans (i : Nat) (p : Option Pub) : (s.setPub i p).chans = s.chans := rfl
@[simp] theorem State.setPub_clusters (i : Nat) (p : Option Pub) : (s.setPub i p).clusters = s.clusters := rfl
@[simp] theorem State.setPub_slices (i : Nat) (p : Option Pub) : (s.setPub i p).slices = s.slices := rfl
@[simp] theorem State.setPub_tiles (i : Nat) (p : Option Pub) : (s.setPub i p).tiles = s.tiles := rfl
@[simp] theorem State.setPub_pairs (i : Nat) (p : Option Pub) : (s.setPub i p).pairs = s.pairs := rfl
@[simp] theorem State.setPub_ctxs (i : Nat) (p : Option Pub) : (s.setPub i p).ctxs = s.ctxs := rfl
@[simp] theorem State.setPub_cores (i : Nat) (p : Option Pub) : (s.setPub i p).cores = s.cores := rfl
@[simp] theorem State.setPub_regions (i : Nat) (p : Option Pub) : (s.setPub i p).regions = s.regions := rfl
@[simp] theorem State.setPub_parts (i : Nat) (p : Option Pub) : (s.setPub i p).parts = s.parts := rfl
@[simp] theorem State.setPub_vfs (i : Nat) (p : Option Pub) : (s.setPub i p).vfs = s.vfs := rfl
@[simp] theorem State.setPub_rails (i : Nat) (p : Option Pub) : (s.setPub i p).rails = s.rails := rfl
theorem State.setPub_pubs (i : Nat) (p : Option Pub) : (s.setPub i p).pubs = tput none i p s.pubs := rfl
@[simp] theorem State.setPub_held (i : Nat) (p : Option Pub) : (s.setPub i p).held = s.held := rfl
@[simp] theorem State.setPub_flying (i : Nat) (p : Option Pub) : (s.setPub i p).flying = s.flying := rfl
@[simp] theorem State.setPub_flight (i : Nat) (p : Option Pub) : (s.setPub i p).flight = s.flight := rfl
@[simp] theorem State.setPub_hostReqs (i : Nat) (p : Option Pub) : (s.setPub i p).hostReqs = s.hostReqs := rfl
@[simp] theorem State.setPub_invals (i : Nat) (p : Option Pub) : (s.setPub i p).invals = s.invals := rfl
@[simp] theorem State.setPub_drains (i : Nat) (p : Option Pub) : (s.setPub i p).drains = s.drains := rfl
@[simp] theorem State.setPub_glide (i : Nat) (p : Option Pub) : (s.setPub i p).glide = s.glide := rfl
@[simp] theorem State.setPub_killTicks (i : Nat) (p : Option Pub) : (s.setPub i p).killTicks = s.killTicks := rfl
@[simp] theorem State.setPub_image (i : Nat) (p : Option Pub) : (s.setPub i p).image = s.image := rfl
@[simp] theorem State.setPub_out (i : Nat) (p : Option Pub) : (s.setPub i p).out = s.out := rfl
@[simp] theorem State.setPub_agenda (i : Nat) (p : Option Pub) : (s.setPub i p).agenda = s.agenda := rfl
@[simp] theorem State.setPub_edging (i : Nat) (p : Option Pub) : (s.setPub i p).edging = s.edging := rfl
@[simp] theorem State.setPub_focus (i : Nat) (p : Option Pub) : (s.setPub i p).focus = s.focus := rfl
@[simp] theorem State.setPub_seq (i : Nat) (p : Option Pub) : (s.setPub i p).seq = s.seq := rfl
@[simp] theorem State.setPub_freeCtr (i : Nat) (p : Option Pub) : (s.setPub i p).freeCtr = s.freeCtr := rfl
@[simp] theorem State.setPub_tile (i : Nat) (p : Option Pub) (j : Nat) : (s.setPub i p).tile j = s.tile j := rfl
@[simp] theorem State.setPub_pair (i : Nat) (p : Option Pub) (j : Nat) : (s.setPub i p).pair j = s.pair j := rfl
@[simp] theorem State.setPub_cluster (i : Nat) (p : Option Pub) (j : Nat) : (s.setPub i p).cluster j = s.cluster j := rfl
@[simp] theorem State.setPub_slice (i : Nat) (p : Option Pub) (j : Nat) : (s.setPub i p).slice j = s.slice j := rfl
@[simp] theorem State.setPub_ctx (i : Nat) (p : Option Pub) (j : Nat) : (s.setPub i p).ctx j = s.ctx j := rfl
@[simp] theorem State.setPub_core (i : Nat) (p : Option Pub) (j : Nat) : (s.setPub i p).core j = s.core j := rfl
@[simp] theorem State.setPub_region (i : Nat) (p : Option Pub) (j : Nat) : (s.setPub i p).region j = s.region j := rfl
@[simp] theorem State.setPub_part (i : Nat) (p : Option Pub) (j : Nat) : (s.setPub i p).part j = s.part j := rfl
@[simp] theorem State.setPub_vf (i : Nat) (p : Option Pub) (j : Nat) : (s.setPub i p).vf j = s.vf j := rfl
@[simp] theorem State.setPub_chan (i : Nat) (p : Option Pub) (j : Nat) : (s.setPub i p).chan j = s.chan j := rfl
@[simp] theorem State.setPub_port (i : Nat) (p : Option Pub) (j : Nat) : (s.setPub i p).port j = s.port j := rfl
@[simp] theorem State.setPub_rail (i : Nat) (p : Option Pub) (j : Nat) : (s.setPub i p).rail j = s.rail j := rfl
@[simp] theorem State.setPub_kport (i : Nat) (p : Option Pub) (j : Nat) : (s.setPub i p).kport j = s.kport j := rfl
@[simp] theorem State.setPub_monitor (i : Nat) (p : Option Pub) : (s.setPub i p).monitor = s.monitor := rfl
@[simp] theorem State.setPub_myKey (i : Nat) (p : Option Pub) : (s.setPub i p).myKey = s.myKey := rfl
@[simp] theorem State.setPub_me (i : Nat) (p : Option Pub) : (s.setPub i p).me = s.me := rfl
@[simp] theorem State.setPub_myRegion (i : Nat) (p : Option Pub) : (s.setPub i p).myRegion = s.myRegion := rfl
@[simp] theorem State.setPub_mySlot (i : Nat) (p : Option Pub) : (s.setPub i p).mySlot = s.mySlot := rfl
@[simp] theorem State.setPub_my (i : Nat) (p : Option Pub) : (s.setPub i p).my = s.my := rfl
@[simp] theorem State.setPub_mcore (i : Nat) (p : Option Pub) (k : CoreId) : (s.setPub i p).mcore k = s.mcore k := rfl
@[simp] theorem State.setPub_running (i : Nat) (p : Option Pub) (j : Nat) : (s.setPub i p).running j = s.running j := rfl

/-! modPub -/
@[simp] theorem State.modPub_tick (i : Nat) (f : Pub → Pub) : (s.modPub i f).tick = s.tick := rfl
@[simp] theorem State.modPub_failed (i : Nat) (f : Pub → Pub) : (s.modPub i f).failed = s.failed := rfl
@[simp] theorem State.modPub_ports (i : Nat) (f : Pub → Pub) : (s.modPub i f).ports = s.ports := rfl
@[simp] theorem State.modPub_hbm (i : Nat) (f : Pub → Pub) : (s.modPub i f).hbm = s.hbm := rfl
@[simp] theorem State.modPub_kwe (i : Nat) (f : Pub → Pub) : (s.modPub i f).kwe = s.kwe := rfl
@[simp] theorem State.modPub_lidOpened (i : Nat) (f : Pub → Pub) : (s.modPub i f).lidOpened = s.lidOpened := rfl
@[simp] theorem State.modPub_lidOpen (i : Nat) (f : Pub → Pub) : (s.modPub i f).lidOpen = s.lidOpen := rfl
@[simp] theorem State.modPub_lidSensor (i : Nat) (f : Pub → Pub) : (s.modPub i f).lidSensor = s.lidSensor := rfl
@[simp] theorem State.modPub_rim (i : Nat) (f : Pub → Pub) : (s.modPub i f).rim = s.rim := rfl
@[simp] theorem State.modPub_rimTags (i : Nat) (f : Pub → Pub) : (s.modPub i f).rimTags = s.rimTags := rfl
@[simp] theorem State.modPub_poison (i : Nat) (f : Pub → Pub) : (s.modPub i f).poison = s.poison := rfl
@[simp] theorem State.modPub_host (i : Nat) (f : Pub → Pub) : (s.modPub i f).host = s.host := rfl
@[simp] theorem State.modPub_chans (i : Nat) (f : Pub → Pub) : (s.modPub i f).chans = s.chans := rfl
@[simp] theorem State.modPub_clusters (i : Nat) (f : Pub → Pub) : (s.modPub i f).clusters = s.clusters := rfl
@[simp] theorem State.modPub_slices (i : Nat) (f : Pub → Pub) : (s.modPub i f).slices = s.slices := rfl
@[simp] theorem State.modPub_tiles (i : Nat) (f : Pub → Pub) : (s.modPub i f).tiles = s.tiles := rfl
@[simp] theorem State.modPub_pairs (i : Nat) (f : Pub → Pub) : (s.modPub i f).pairs = s.pairs := rfl
@[simp] theorem State.modPub_ctxs (i : Nat) (f : Pub → Pub) : (s.modPub i f).ctxs = s.ctxs := rfl
@[simp] theorem State.modPub_cores (i : Nat) (f : Pub → Pub) : (s.modPub i f).cores = s.cores := rfl
@[simp] theorem State.modPub_regions (i : Nat) (f : Pub → Pub) : (s.modPub i f).regions = s.regions := rfl
@[simp] theorem State.modPub_parts (i : Nat) (f : Pub → Pub) : (s.modPub i f).parts = s.parts := rfl
@[simp] theorem State.modPub_vfs (i : Nat) (f : Pub → Pub) : (s.modPub i f).vfs = s.vfs := rfl
@[simp] theorem State.modPub_rails (i : Nat) (f : Pub → Pub) : (s.modPub i f).rails = s.rails := rfl
theorem State.modPub_pubs (i : Nat) (f : Pub → Pub) : (s.modPub i f).pubs = tput none i ((s.pub i).map f) s.pubs := rfl
@[simp] theorem State.modPub_held (i : Nat) (f : Pub → Pub) : (s.modPub i f).held = s.held := rfl
@[simp] theorem State.modPub_flying (i : Nat) (f : Pub → Pub) : (s.modPub i f).flying = s.flying := rfl
@[simp] theorem State.modPub_flight (i : Nat) (f : Pub → Pub) : (s.modPub i f).flight = s.flight := rfl
@[simp] theorem State.modPub_hostReqs (i : Nat) (f : Pub → Pub) : (s.modPub i f).hostReqs = s.hostReqs := rfl
@[simp] theorem State.modPub_invals (i : Nat) (f : Pub → Pub) : (s.modPub i f).invals = s.invals := rfl
@[simp] theorem State.modPub_drains (i : Nat) (f : Pub → Pub) : (s.modPub i f).drains = s.drains := rfl
@[simp] theorem State.modPub_glide (i : Nat) (f : Pub → Pub) : (s.modPub i f).glide = s.glide := rfl
@[simp] theorem State.modPub_killTicks (i : Nat) (f : Pub → Pub) : (s.modPub i f).killTicks = s.killTicks := rfl
@[simp] theorem State.modPub_image (i : Nat) (f : Pub → Pub) : (s.modPub i f).image = s.image := rfl
@[simp] theorem State.modPub_out (i : Nat) (f : Pub → Pub) : (s.modPub i f).out = s.out := rfl
@[simp] theorem State.modPub_agenda (i : Nat) (f : Pub → Pub) : (s.modPub i f).agenda = s.agenda := rfl
@[simp] theorem State.modPub_edging (i : Nat) (f : Pub → Pub) : (s.modPub i f).edging = s.edging := rfl
@[simp] theorem State.modPub_focus (i : Nat) (f : Pub → Pub) : (s.modPub i f).focus = s.focus := rfl
@[simp] theorem State.modPub_seq (i : Nat) (f : Pub → Pub) : (s.modPub i f).seq = s.seq := rfl
@[simp] theorem State.modPub_freeCtr (i : Nat) (f : Pub → Pub) : (s.modPub i f).freeCtr = s.freeCtr := rfl
@[simp] theorem State.modPub_tile (i : Nat) (f : Pub → Pub) (j : Nat) : (s.modPub i f).tile j = s.tile j := rfl
@[simp] theorem State.modPub_pair (i : Nat) (f : Pub → Pub) (j : Nat) : (s.modPub i f).pair j = s.pair j := rfl
@[simp] theorem State.modPub_cluster (i : Nat) (f : Pub → Pub) (j : Nat) : (s.modPub i f).cluster j = s.cluster j := rfl
@[simp] theorem State.modPub_slice (i : Nat) (f : Pub → Pub) (j : Nat) : (s.modPub i f).slice j = s.slice j := rfl
@[simp] theorem State.modPub_ctx (i : Nat) (f : Pub → Pub) (j : Nat) : (s.modPub i f).ctx j = s.ctx j := rfl
@[simp] theorem State.modPub_core (i : Nat) (f : Pub → Pub) (j : Nat) : (s.modPub i f).core j = s.core j := rfl
@[simp] theorem State.modPub_region (i : Nat) (f : Pub → Pub) (j : Nat) : (s.modPub i f).region j = s.region j := rfl
@[simp] theorem State.modPub_part (i : Nat) (f : Pub → Pub) (j : Nat) : (s.modPub i f).part j = s.part j := rfl
@[simp] theorem State.modPub_vf (i : Nat) (f : Pub → Pub) (j : Nat) : (s.modPub i f).vf j = s.vf j := rfl
@[simp] theorem State.modPub_chan (i : Nat) (f : Pub → Pub) (j : Nat) : (s.modPub i f).chan j = s.chan j := rfl
@[simp] theorem State.modPub_port (i : Nat) (f : Pub → Pub) (j : Nat) : (s.modPub i f).port j = s.port j := rfl
@[simp] theorem State.modPub_rail (i : Nat) (f : Pub → Pub) (j : Nat) : (s.modPub i f).rail j = s.rail j := rfl
@[simp] theorem State.modPub_kport (i : Nat) (f : Pub → Pub) (j : Nat) : (s.modPub i f).kport j = s.kport j := rfl
@[simp] theorem State.modPub_monitor (i : Nat) (f : Pub → Pub) : (s.modPub i f).monitor = s.monitor := rfl
@[simp] theorem State.modPub_myKey (i : Nat) (f : Pub → Pub) : (s.modPub i f).myKey = s.myKey := rfl
@[simp] theorem State.modPub_me (i : Nat) (f : Pub → Pub) : (s.modPub i f).me = s.me := rfl
@[simp] theorem State.modPub_myRegion (i : Nat) (f : Pub → Pub) : (s.modPub i f).myRegion = s.myRegion := rfl
@[simp] theorem State.modPub_mySlot (i : Nat) (f : Pub → Pub) : (s.modPub i f).mySlot = s.mySlot := rfl
@[simp] theorem State.modPub_my (i : Nat) (f : Pub → Pub) : (s.modPub i f).my = s.my := rfl
@[simp] theorem State.modPub_mcore (i : Nat) (f : Pub → Pub) (k : CoreId) : (s.modPub i f).mcore k = s.mcore k := rfl
@[simp] theorem State.modPub_running (i : Nat) (f : Pub → Pub) (j : Nat) : (s.modPub i f).running j = s.running j := rfl

/-! modMy -/
@[simp] theorem State.modMy_tick (f : Core → Core) : (s.modMy f).tick = s.tick := rfl
@[simp] theorem State.modMy_failed (f : Core → Core) : (s.modMy f).failed = s.failed := rfl
@[simp] theorem State.modMy_ports (f : Core → Core) : (s.modMy f).ports = s.ports := rfl
@[simp] theorem State.modMy_hbm (f : Core → Core) : (s.modMy f).hbm = s.hbm := rfl
@[simp] theorem State.modMy_kwe (f : Core → Core) : (s.modMy f).kwe = s.kwe := rfl
@[simp] theorem State.modMy_lidOpened (f : Core → Core) : (s.modMy f).lidOpened = s.lidOpened := rfl
@[simp] theorem State.modMy_lidOpen (f : Core → Core) : (s.modMy f).lidOpen = s.lidOpen := rfl
@[simp] theorem State.modMy_lidSensor (f : Core → Core) : (s.modMy f).lidSensor = s.lidSensor := rfl
@[simp] theorem State.modMy_rim (f : Core → Core) : (s.modMy f).rim = s.rim := rfl
@[simp] theorem State.modMy_rimTags (f : Core → Core) : (s.modMy f).rimTags = s.rimTags := rfl
@[simp] theorem State.modMy_poison (f : Core → Core) : (s.modMy f).poison = s.poison := rfl
@[simp] theorem State.modMy_host (f : Core → Core) : (s.modMy f).host = s.host := rfl
@[simp] theorem State.modMy_chans (f : Core → Core) : (s.modMy f).chans = s.chans := rfl
@[simp] theorem State.modMy_clusters (f : Core → Core) : (s.modMy f).clusters = s.clusters := rfl
@[simp] theorem State.modMy_slices (f : Core → Core) : (s.modMy f).slices = s.slices := rfl
@[simp] theorem State.modMy_tiles (f : Core → Core) : (s.modMy f).tiles = s.tiles := rfl
@[simp] theorem State.modMy_pairs (f : Core → Core) : (s.modMy f).pairs = s.pairs := rfl
@[simp] theorem State.modMy_ctxs (f : Core → Core) : (s.modMy f).ctxs = s.ctxs := rfl
theorem State.modMy_cores (f : Core → Core) : (s.modMy f).cores = tput {} s.myKey (f s.my) s.cores := rfl
@[simp] theorem State.modMy_regions (f : Core → Core) : (s.modMy f).regions = s.regions := rfl
@[simp] theorem State.modMy_parts (f : Core → Core) : (s.modMy f).parts = s.parts := rfl
@[simp] theorem State.modMy_vfs (f : Core → Core) : (s.modMy f).vfs = s.vfs := rfl
@[simp] theorem State.modMy_rails (f : Core → Core) : (s.modMy f).rails = s.rails := rfl
@[simp] theorem State.modMy_pubs (f : Core → Core) : (s.modMy f).pubs = s.pubs := rfl
@[simp] theorem State.modMy_held (f : Core → Core) : (s.modMy f).held = s.held := rfl
@[simp] theorem State.modMy_flying (f : Core → Core) : (s.modMy f).flying = s.flying := rfl
@[simp] theorem State.modMy_flight (f : Core → Core) : (s.modMy f).flight = s.flight := rfl
@[simp] theorem State.modMy_hostReqs (f : Core → Core) : (s.modMy f).hostReqs = s.hostReqs := rfl
@[simp] theorem State.modMy_invals (f : Core → Core) : (s.modMy f).invals = s.invals := rfl
@[simp] theorem State.modMy_drains (f : Core → Core) : (s.modMy f).drains = s.drains := rfl
@[simp] theorem State.modMy_glide (f : Core → Core) : (s.modMy f).glide = s.glide := rfl
@[simp] theorem State.modMy_killTicks (f : Core → Core) : (s.modMy f).killTicks = s.killTicks := rfl
@[simp] theorem State.modMy_image (f : Core → Core) : (s.modMy f).image = s.image := rfl
@[simp] theorem State.modMy_out (f : Core → Core) : (s.modMy f).out = s.out := rfl
@[simp] theorem State.modMy_agenda (f : Core → Core) : (s.modMy f).agenda = s.agenda := rfl
@[simp] theorem State.modMy_edging (f : Core → Core) : (s.modMy f).edging = s.edging := rfl
@[simp] theorem State.modMy_focus (f : Core → Core) : (s.modMy f).focus = s.focus := rfl
@[simp] theorem State.modMy_seq (f : Core → Core) : (s.modMy f).seq = s.seq := rfl
@[simp] theorem State.modMy_freeCtr (f : Core → Core) : (s.modMy f).freeCtr = s.freeCtr := rfl
@[simp] theorem State.modMy_tile (f : Core → Core) (j : Nat) : (s.modMy f).tile j = s.tile j := rfl
@[simp] theorem State.modMy_pair (f : Core → Core) (j : Nat) : (s.modMy f).pair j = s.pair j := rfl
@[simp] theorem State.modMy_cluster (f : Core → Core) (j : Nat) : (s.modMy f).cluster j = s.cluster j := rfl
@[simp] theorem State.modMy_slice (f : Core → Core) (j : Nat) : (s.modMy f).slice j = s.slice j := rfl
@[simp] theorem State.modMy_ctx (f : Core → Core) (j : Nat) : (s.modMy f).ctx j = s.ctx j := rfl
@[simp] theorem State.modMy_region (f : Core → Core) (j : Nat) : (s.modMy f).region j = s.region j := rfl
@[simp] theorem State.modMy_part (f : Core → Core) (j : Nat) : (s.modMy f).part j = s.part j := rfl
@[simp] theorem State.modMy_vf (f : Core → Core) (j : Nat) : (s.modMy f).vf j = s.vf j := rfl
@[simp] theorem State.modMy_chan (f : Core → Core) (j : Nat) : (s.modMy f).chan j = s.chan j := rfl
@[simp] theorem State.modMy_port (f : Core → Core) (j : Nat) : (s.modMy f).port j = s.port j := rfl
@[simp] theorem State.modMy_rail (f : Core → Core) (j : Nat) : (s.modMy f).rail j = s.rail j := rfl
@[simp] theorem State.modMy_pub (f : Core → Core) (j : Nat) : (s.modMy f).pub j = s.pub j := rfl
@[simp] theorem State.modMy_kport (f : Core → Core) (j : Nat) : (s.modMy f).kport j = s.kport j := rfl
@[simp] theorem State.modMy_monitor (f : Core → Core) : (s.modMy f).monitor = s.monitor := rfl
@[simp] theorem State.modMy_myKey (f : Core → Core) : (s.modMy f).myKey = s.myKey := rfl
@[simp] theorem State.modMy_me (f : Core → Core) : (s.modMy f).me = s.me := rfl
@[simp] theorem State.modMy_myRegion (f : Core → Core) : (s.modMy f).myRegion = s.myRegion := rfl
@[simp] theorem State.modMy_mySlot (f : Core → Core) : (s.modMy f).mySlot = s.mySlot := rfl
@[simp] theorem State.modMy_mcore (f : Core → Core) (k : CoreId) : (s.modMy f).mcore k = s.mcore k := rfl
@[simp] theorem State.modMy_running (f : Core → Core) (j : Nat) : (s.modMy f).running j = s.running j := rfl

/-! modMcore -/
@[simp] theorem State.modMcore_tick (c : CoreId) (f : MCore → MCore) : (s.modMcore c f).tick = s.tick := rfl
@[simp] theorem State.modMcore_failed (c : CoreId) (f : MCore → MCore) : (s.modMcore c f).failed = s.failed := rfl
@[simp] theorem State.modMcore_ports (c : CoreId) (f : MCore → MCore) : (s.modMcore c f).ports = s.ports := rfl
@[simp] theorem State.modMcore_hbm (c : CoreId) (f : MCore → MCore) : (s.modMcore c f).hbm = s.hbm := rfl
@[simp] theorem State.modMcore_kwe (c : CoreId) (f : MCore → MCore) : (s.modMcore c f).kwe = s.kwe := rfl
@[simp] theorem State.modMcore_lidOpened (c : CoreId) (f : MCore → MCore) : (s.modMcore c f).lidOpened = s.lidOpened := rfl
@[simp] theorem State.modMcore_lidOpen (c : CoreId) (f : MCore → MCore) : (s.modMcore c f).lidOpen = s.lidOpen := rfl
@[simp] theorem State.modMcore_lidSensor (c : CoreId) (f : MCore → MCore) : (s.modMcore c f).lidSensor = s.lidSensor := rfl
@[simp] theorem State.modMcore_rim (c : CoreId) (f : MCore → MCore) : (s.modMcore c f).rim = s.rim := rfl
@[simp] theorem State.modMcore_rimTags (c : CoreId) (f : MCore → MCore) : (s.modMcore c f).rimTags = s.rimTags := rfl
@[simp] theorem State.modMcore_poison (c : CoreId) (f : MCore → MCore) : (s.modMcore c f).poison = s.poison := rfl
@[simp] theorem State.modMcore_host (c : CoreId) (f : MCore → MCore) : (s.modMcore c f).host = s.host := rfl
@[simp] theorem State.modMcore_chans (c : CoreId) (f : MCore → MCore) : (s.modMcore c f).chans = s.chans := rfl
@[simp] theorem State.modMcore_clusters (c : CoreId) (f : MCore → MCore) : (s.modMcore c f).clusters = s.clusters := rfl
@[simp] theorem State.modMcore_slices (c : CoreId) (f : MCore → MCore) : (s.modMcore c f).slices = s.slices := rfl
@[simp] theorem State.modMcore_pairs (c : CoreId) (f : MCore → MCore) : (s.modMcore c f).pairs = s.pairs := rfl
@[simp] theorem State.modMcore_ctxs (c : CoreId) (f : MCore → MCore) : (s.modMcore c f).ctxs = s.ctxs := rfl
@[simp] theorem State.modMcore_cores (c : CoreId) (f : MCore → MCore) : (s.modMcore c f).cores = s.cores := rfl
@[simp] theorem State.modMcore_regions (c : CoreId) (f : MCore → MCore) : (s.modMcore c f).regions = s.regions := rfl
@[simp] theorem State.modMcore_parts (c : CoreId) (f : MCore → MCore) : (s.modMcore c f).parts = s.parts := rfl
@[simp] theorem State.modMcore_vfs (c : CoreId) (f : MCore → MCore) : (s.modMcore c f).vfs = s.vfs := rfl
@[simp] theorem State.modMcore_rails (c : CoreId) (f : MCore → MCore) : (s.modMcore c f).rails = s.rails := rfl
@[simp] theorem State.modMcore_pubs (c : CoreId) (f : MCore → MCore) : (s.modMcore c f).pubs = s.pubs := rfl
@[simp] theorem State.modMcore_held (c : CoreId) (f : MCore → MCore) : (s.modMcore c f).held = s.held := rfl
@[simp] theorem State.modMcore_flying (c : CoreId) (f : MCore → MCore) : (s.modMcore c f).flying = s.flying := rfl
@[simp] theorem State.modMcore_flight (c : CoreId) (f : MCore → MCore) : (s.modMcore c f).flight = s.flight := rfl
@[simp] theorem State.modMcore_hostReqs (c : CoreId) (f : MCore → MCore) : (s.modMcore c f).hostReqs = s.hostReqs := rfl
@[simp] theorem State.modMcore_invals (c : CoreId) (f : MCore → MCore) : (s.modMcore c f).invals = s.invals := rfl
@[simp] theorem State.modMcore_drains (c : CoreId) (f : MCore → MCore) : (s.modMcore c f).drains = s.drains := rfl
@[simp] theorem State.modMcore_glide (c : CoreId) (f : MCore → MCore) : (s.modMcore c f).glide = s.glide := rfl
@[simp] theorem State.modMcore_killTicks (c : CoreId) (f : MCore → MCore) : (s.modMcore c f).killTicks = s.killTicks := rfl
@[simp] theorem State.modMcore_image (c : CoreId) (f : MCore → MCore) : (s.modMcore c f).image = s.image := rfl
@[simp] theorem State.modMcore_out (c : CoreId) (f : MCore → MCore) : (s.modMcore c f).out = s.out := rfl
@[simp] theorem State.modMcore_agenda (c : CoreId) (f : MCore → MCore) : (s.modMcore c f).agenda = s.agenda := rfl
@[simp] theorem State.modMcore_edging (c : CoreId) (f : MCore → MCore) : (s.modMcore c f).edging = s.edging := rfl
@[simp] theorem State.modMcore_focus (c : CoreId) (f : MCore → MCore) : (s.modMcore c f).focus = s.focus := rfl
@[simp] theorem State.modMcore_seq (c : CoreId) (f : MCore → MCore) : (s.modMcore c f).seq = s.seq := rfl
@[simp] theorem State.modMcore_freeCtr (c : CoreId) (f : MCore → MCore) : (s.modMcore c f).freeCtr = s.freeCtr := rfl
@[simp] theorem State.modMcore_pair (c : CoreId) (f : MCore → MCore) (j : Nat) : (s.modMcore c f).pair j = s.pair j := rfl
@[simp] theorem State.modMcore_cluster (c : CoreId) (f : MCore → MCore) (j : Nat) : (s.modMcore c f).cluster j = s.cluster j := rfl
@[simp] theorem State.modMcore_slice (c : CoreId) (f : MCore → MCore) (j : Nat) : (s.modMcore c f).slice j = s.slice j := rfl
@[simp] theorem State.modMcore_ctx (c : CoreId) (f : MCore → MCore) (j : Nat) : (s.modMcore c f).ctx j = s.ctx j := rfl
@[simp] theorem State.modMcore_core (c : CoreId) (f : MCore → MCore) (j : Nat) : (s.modMcore c f).core j = s.core j := rfl
@[simp] theorem State.modMcore_region (c : CoreId) (f : MCore → MCore) (j : Nat) : (s.modMcore c f).region j = s.region j := rfl
@[simp] theorem State.modMcore_part (c : CoreId) (f : MCore → MCore) (j : Nat) : (s.modMcore c f).part j = s.part j := rfl
@[simp] theorem State.modMcore_vf (c : CoreId) (f : MCore → MCore) (j : Nat) : (s.modMcore c f).vf j = s.vf j := rfl
@[simp] theorem State.modMcore_chan (c : CoreId) (f : MCore → MCore) (j : Nat) : (s.modMcore c f).chan j = s.chan j := rfl
@[simp] theorem State.modMcore_port (c : CoreId) (f : MCore → MCore) (j : Nat) : (s.modMcore c f).port j = s.port j := rfl
@[simp] theorem State.modMcore_rail (c : CoreId) (f : MCore → MCore) (j : Nat) : (s.modMcore c f).rail j = s.rail j := rfl
@[simp] theorem State.modMcore_pub (c : CoreId) (f : MCore → MCore) (j : Nat) : (s.modMcore c f).pub j = s.pub j := rfl
@[simp] theorem State.modMcore_kport (c : CoreId) (f : MCore → MCore) (j : Nat) : (s.modMcore c f).kport j = s.kport j := rfl

/-! post -/
@[simp] theorem State.post_tick (e : Instr) : (s.post e).tick = s.tick := rfl
@[simp] theorem State.post_failed (e : Instr) : (s.post e).failed = s.failed := rfl
@[simp] theorem State.post_ports (e : Instr) : (s.post e).ports = s.ports := rfl
@[simp] theorem State.post_hbm (e : Instr) : (s.post e).hbm = s.hbm := rfl
@[simp] theorem State.post_kwe (e : Instr) : (s.post e).kwe = s.kwe := rfl
@[simp] theorem State.post_lidOpened (e : Instr) : (s.post e).lidOpened = s.lidOpened := rfl
@[simp] theorem State.post_lidOpen (e : Instr) : (s.post e).lidOpen = s.lidOpen := rfl
@[simp] theorem State.post_lidSensor (e : Instr) : (s.post e).lidSensor = s.lidSensor := rfl
@[simp] theorem State.post_rim (e : Instr) : (s.post e).rim = s.rim := rfl
@[simp] theorem State.post_rimTags (e : Instr) : (s.post e).rimTags = s.rimTags := rfl
@[simp] theorem State.post_poison (e : Instr) : (s.post e).poison = s.poison := rfl
@[simp] theorem State.post_host (e : Instr) : (s.post e).host = s.host := rfl
@[simp] theorem State.post_chans (e : Instr) : (s.post e).chans = s.chans := rfl
@[simp] theorem State.post_clusters (e : Instr) : (s.post e).clusters = s.clusters := rfl
@[simp] theorem State.post_slices (e : Instr) : (s.post e).slices = s.slices := rfl
@[simp] theorem State.post_tiles (e : Instr) : (s.post e).tiles = s.tiles := rfl
@[simp] theorem State.post_pairs (e : Instr) : (s.post e).pairs = s.pairs := rfl
@[simp] theorem State.post_ctxs (e : Instr) : (s.post e).ctxs = s.ctxs := rfl
@[simp] theorem State.post_cores (e : Instr) : (s.post e).cores = s.cores := rfl
@[simp] theorem State.post_regions (e : Instr) : (s.post e).regions = s.regions := rfl
@[simp] theorem State.post_parts (e : Instr) : (s.post e).parts = s.parts := rfl
@[simp] theorem State.post_vfs (e : Instr) : (s.post e).vfs = s.vfs := rfl
@[simp] theorem State.post_rails (e : Instr) : (s.post e).rails = s.rails := rfl
@[simp] theorem State.post_pubs (e : Instr) : (s.post e).pubs = s.pubs := rfl
@[simp] theorem State.post_held (e : Instr) : (s.post e).held = s.held := rfl
@[simp] theorem State.post_flying (e : Instr) : (s.post e).flying = s.flying := rfl
@[simp] theorem State.post_flight (e : Instr) : (s.post e).flight = s.flight := rfl
@[simp] theorem State.post_hostReqs (e : Instr) : (s.post e).hostReqs = s.hostReqs := rfl
@[simp] theorem State.post_invals (e : Instr) : (s.post e).invals = s.invals := rfl
@[simp] theorem State.post_drains (e : Instr) : (s.post e).drains = s.drains := rfl
@[simp] theorem State.post_glide (e : Instr) : (s.post e).glide = s.glide := rfl
@[simp] theorem State.post_killTicks (e : Instr) : (s.post e).killTicks = s.killTicks := rfl
@[simp] theorem State.post_image (e : Instr) : (s.post e).image = s.image := rfl
@[simp] theorem State.post_out (e : Instr) : (s.post e).out = s.out := rfl
theorem State.post_agenda (e : Instr) : (s.post e).agenda = s.agenda ++ [.event e] := rfl
@[simp] theorem State.post_edging (e : Instr) : (s.post e).edging = s.edging := rfl
@[simp] theorem State.post_focus (e : Instr) : (s.post e).focus = s.focus := rfl
@[simp] theorem State.post_seq (e : Instr) : (s.post e).seq = s.seq := rfl
@[simp] theorem State.post_freeCtr (e : Instr) : (s.post e).freeCtr = s.freeCtr := rfl
@[simp] theorem State.post_tile (e : Instr) (j : Nat) : (s.post e).tile j = s.tile j := rfl
@[simp] theorem State.post_pair (e : Instr) (j : Nat) : (s.post e).pair j = s.pair j := rfl
@[simp] theorem State.post_cluster (e : Instr) (j : Nat) : (s.post e).cluster j = s.cluster j := rfl
@[simp] theorem State.post_slice (e : Instr) (j : Nat) : (s.post e).slice j = s.slice j := rfl
@[simp] theorem State.post_ctx (e : Instr) (j : Nat) : (s.post e).ctx j = s.ctx j := rfl
@[simp] theorem State.post_core (e : Instr) (j : Nat) : (s.post e).core j = s.core j := rfl
@[simp] theorem State.post_region (e : Instr) (j : Nat) : (s.post e).region j = s.region j := rfl
@[simp] theorem State.post_part (e : Instr) (j : Nat) : (s.post e).part j = s.part j := rfl
@[simp] theorem State.post_vf (e : Instr) (j : Nat) : (s.post e).vf j = s.vf j := rfl
@[simp] theorem State.post_chan (e : Instr) (j : Nat) : (s.post e).chan j = s.chan j := rfl
@[simp] theorem State.post_port (e : Instr) (j : Nat) : (s.post e).port j = s.port j := rfl
@[simp] theorem State.post_rail (e : Instr) (j : Nat) : (s.post e).rail j = s.rail j := rfl
@[simp] theorem State.post_pub (e : Instr) (j : Nat) : (s.post e).pub j = s.pub j := rfl
@[simp] theorem State.post_kport (e : Instr) (j : Nat) : (s.post e).kport j = s.kport j := rfl
@[simp] theorem State.post_monitor (e : Instr) : (s.post e).monitor = s.monitor := rfl
@[simp] theorem State.post_myKey (e : Instr) : (s.post e).myKey = s.myKey := rfl
@[simp] theorem State.post_me (e : Instr) : (s.post e).me = s.me := rfl
@[simp] theorem State.post_myRegion (e : Instr) : (s.post e).myRegion = s.myRegion := rfl
@[simp] theorem State.post_mySlot (e : Instr) : (s.post e).mySlot = s.mySlot := rfl
@[simp] theorem State.post_my (e : Instr) : (s.post e).my = s.my := rfl
@[simp] theorem State.post_mcore (e : Instr) (k : CoreId) : (s.post e).mcore k = s.mcore k := rfl
@[simp] theorem State.post_running (e : Instr) (j : Nat) : (s.post e).running j = s.running j := rfl

/-! later -/
@[simp] theorem State.later_tick (e : Instr) : (s.later e).tick = s.tick := rfl
@[simp] theorem State.later_failed (e : Instr) : (s.later e).failed = s.failed := rfl
@[simp] theorem State.later_ports (e : Instr) : (s.later e).ports = s.ports := rfl
@[simp] theorem State.later_hbm (e : Instr) : (s.later e).hbm = s.hbm := rfl
@[simp] theorem State.later_kwe (e : Instr) : (s.later e).kwe = s.kwe := rfl
@[simp] theorem State.later_lidOpened (e : Instr) : (s.later e).lidOpened = s.lidOpened := rfl
@[simp] theorem State.later_lidOpen (e : Instr) : (s.later e).lidOpen = s.lidOpen := rfl
@[simp] theorem State.later_lidSensor (e : Instr) : (s.later e).lidSensor = s.lidSensor := rfl
@[simp] theorem State.later_rim (e : Instr) : (s.later e).rim = s.rim := rfl
@[simp] theorem State.later_rimTags (e : Instr) : (s.later e).rimTags = s.rimTags := rfl
@[simp] theorem State.later_poison (e : Instr) : (s.later e).poison = s.poison := rfl
@[simp] theorem State.later_host (e : Instr) : (s.later e).host = s.host := rfl
@[simp] theorem State.later_chans (e : Instr) : (s.later e).chans = s.chans := rfl
@[simp] theorem State.later_clusters (e : Instr) : (s.later e).clusters = s.clusters := rfl
@[simp] theorem State.later_slices (e : Instr) : (s.later e).slices = s.slices := rfl
@[simp] theorem State.later_tiles (e : Instr) : (s.later e).tiles = s.tiles := rfl
@[simp] theorem State.later_pairs (e : Instr) : (s.later e).pairs = s.pairs := rfl
@[simp] theorem State.later_ctxs (e : Instr) : (s.later e).ctxs = s.ctxs := rfl
@[simp] theorem State.later_cores (e : Instr) : (s.later e).cores = s.cores := rfl
@[simp] theorem State.later_regions (e : Instr) : (s.later e).regions = s.regions := rfl
@[simp] theorem State.later_parts (e : Instr) : (s.later e).parts = s.parts := rfl
@[simp] theorem State.later_vfs (e : Instr) : (s.later e).vfs = s.vfs := rfl
@[simp] theorem State.later_rails (e : Instr) : (s.later e).rails = s.rails := rfl
@[simp] theorem State.later_pubs (e : Instr) : (s.later e).pubs = s.pubs := rfl
@[simp] theorem State.later_held (e : Instr) : (s.later e).held = s.held := rfl
@[simp] theorem State.later_flying (e : Instr) : (s.later e).flying = s.flying := rfl
@[simp] theorem State.later_flight (e : Instr) : (s.later e).flight = s.flight := rfl
@[simp] theorem State.later_hostReqs (e : Instr) : (s.later e).hostReqs = s.hostReqs := rfl
@[simp] theorem State.later_invals (e : Instr) : (s.later e).invals = s.invals := rfl
@[simp] theorem State.later_drains (e : Instr) : (s.later e).drains = s.drains := rfl
@[simp] theorem State.later_glide (e : Instr) : (s.later e).glide = s.glide := rfl
@[simp] theorem State.later_killTicks (e : Instr) : (s.later e).killTicks = s.killTicks := rfl
@[simp] theorem State.later_image (e : Instr) : (s.later e).image = s.image := rfl
@[simp] theorem State.later_out (e : Instr) : (s.later e).out = s.out := rfl
theorem State.later_agenda (e : Instr) : (s.later e).agenda = s.agenda ++ [.tick, .event e] := rfl
@[simp] theorem State.later_edging (e : Instr) : (s.later e).edging = s.edging := rfl
@[simp] theorem State.later_focus (e : Instr) : (s.later e).focus = s.focus := rfl
@[simp] theorem State.later_seq (e : Instr) : (s.later e).seq = s.seq := rfl
@[simp] theorem State.later_freeCtr (e : Instr) : (s.later e).freeCtr = s.freeCtr := rfl
@[simp] theorem State.later_tile (e : Instr) (j : Nat) : (s.later e).tile j = s.tile j := rfl
@[simp] theorem State.later_pair (e : Instr) (j : Nat) : (s.later e).pair j = s.pair j := rfl
@[simp] theorem State.later_cluster (e : Instr) (j : Nat) : (s.later e).cluster j = s.cluster j := rfl
@[simp] theorem State.later_slice (e : Instr) (j : Nat) : (s.later e).slice j = s.slice j := rfl
@[simp] theorem State.later_ctx (e : Instr) (j : Nat) : (s.later e).ctx j = s.ctx j := rfl
@[simp] theorem State.later_core (e : Instr) (j : Nat) : (s.later e).core j = s.core j := rfl
@[simp] theorem State.later_region (e : Instr) (j : Nat) : (s.later e).region j = s.region j := rfl
@[simp] theorem State.later_part (e : Instr) (j : Nat) : (s.later e).part j = s.part j := rfl
@[simp] theorem State.later_vf (e : Instr) (j : Nat) : (s.later e).vf j = s.vf j := rfl
@[simp] theorem State.later_chan (e : Instr) (j : Nat) : (s.later e).chan j = s.chan j := rfl
@[simp] theorem State.later_port (e : Instr) (j : Nat) : (s.later e).port j = s.port j := rfl
@[simp] theorem State.later_rail (e : Instr) (j : Nat) : (s.later e).rail j = s.rail j := rfl
@[simp] theorem State.later_pub (e : Instr) (j : Nat) : (s.later e).pub j = s.pub j := rfl
@[simp] theorem State.later_kport (e : Instr) (j : Nat) : (s.later e).kport j = s.kport j := rfl
@[simp] theorem State.later_monitor (e : Instr) : (s.later e).monitor = s.monitor := rfl
@[simp] theorem State.later_myKey (e : Instr) : (s.later e).myKey = s.myKey := rfl
@[simp] theorem State.later_me (e : Instr) : (s.later e).me = s.me := rfl
@[simp] theorem State.later_myRegion (e : Instr) : (s.later e).myRegion = s.myRegion := rfl
@[simp] theorem State.later_mySlot (e : Instr) : (s.later e).mySlot = s.mySlot := rfl
@[simp] theorem State.later_my (e : Instr) : (s.later e).my = s.my := rfl
@[simp] theorem State.later_mcore (e : Instr) (k : CoreId) : (s.later e).mcore k = s.mcore k := rfl
@[simp] theorem State.later_running (e : Instr) (j : Nat) : (s.later e).running j = s.running j := rfl

/-! emit -/
@[simp] theorem State.emit_tick (o : Out) : (s.emit o).tick = s.tick := rfl
@[simp] theorem State.emit_failed (o : Out) : (s.emit o).failed = s.failed := rfl
@[simp] theorem State.emit_ports (o : Out) : (s.emit o).ports = s.ports := rfl
@[simp] theorem State.emit_hbm (o : Out) : (s.emit o).hbm = s.hbm := rfl
@[simp] theorem State.emit_kwe (o : Out) : (s.emit o).kwe = s.kwe := rfl
@[simp] theorem State.emit_lidOpened (o : Out) : (s.emit o).lidOpened = s.lidOpened := rfl
@[simp] theorem State.emit_lidOpen (o : Out) : (s.emit o).lidOpen = s.lidOpen := rfl
@[simp] theorem State.emit_lidSensor (o : Out) : (s.emit o).lidSensor = s.lidSensor := rfl
@[simp] theorem State.emit_rim (o : Out) : (s.emit o).rim = s.rim := rfl
@[simp] theorem State.emit_rimTags (o : Out) : (s.emit o).rimTags = s.rimTags := rfl
@[simp] theorem State.emit_poison (o : Out) : (s.emit o).poison = s.poison := rfl
@[simp] theorem State.emit_host (o : Out) : (s.emit o).host = s.host := rfl
@[simp] theorem State.emit_chans (o : Out) : (s.emit o).chans = s.chans := rfl
@[simp] theorem State.emit_clusters (o : Out) : (s.emit o).clusters = s.clusters := rfl
@[simp] theorem State.emit_slices (o : Out) : (s.emit o).slices = s.slices := rfl
@[simp] theorem State.emit_tiles (o : Out) : (s.emit o).tiles = s.tiles := rfl
@[simp] theorem State.emit_pairs (o : Out) : (s.emit o).pairs = s.pairs := rfl
@[simp] theorem State.emit_ctxs (o : Out) : (s.emit o).ctxs = s.ctxs := rfl
@[simp] theorem State.emit_cores (o : Out) : (s.emit o).cores = s.cores := rfl
@[simp] theorem State.emit_regions (o : Out) : (s.emit o).regions = s.regions := rfl
@[simp] theorem State.emit_parts (o : Out) : (s.emit o).parts = s.parts := rfl
@[simp] theorem State.emit_vfs (o : Out) : (s.emit o).vfs = s.vfs := rfl
@[simp] theorem State.emit_rails (o : Out) : (s.emit o).rails = s.rails := rfl
@[simp] theorem State.emit_pubs (o : Out) : (s.emit o).pubs = s.pubs := rfl
@[simp] theorem State.emit_held (o : Out) : (s.emit o).held = s.held := rfl
@[simp] theorem State.emit_flying (o : Out) : (s.emit o).flying = s.flying := rfl
@[simp] theorem State.emit_flight (o : Out) : (s.emit o).flight = s.flight := rfl
@[simp] theorem State.emit_hostReqs (o : Out) : (s.emit o).hostReqs = s.hostReqs := rfl
@[simp] theorem State.emit_invals (o : Out) : (s.emit o).invals = s.invals := rfl
@[simp] theorem State.emit_drains (o : Out) : (s.emit o).drains = s.drains := rfl
@[simp] theorem State.emit_glide (o : Out) : (s.emit o).glide = s.glide := rfl
@[simp] theorem State.emit_killTicks (o : Out) : (s.emit o).killTicks = s.killTicks := rfl
@[simp] theorem State.emit_image (o : Out) : (s.emit o).image = s.image := rfl
theorem State.emit_out (o : Out) : (s.emit o).out = s.out ++ [o] := rfl
@[simp] theorem State.emit_agenda (o : Out) : (s.emit o).agenda = s.agenda := rfl
@[simp] theorem State.emit_edging (o : Out) : (s.emit o).edging = s.edging := rfl
@[simp] theorem State.emit_focus (o : Out) : (s.emit o).focus = s.focus := rfl
@[simp] theorem State.emit_seq (o : Out) : (s.emit o).seq = s.seq := rfl
@[simp] theorem State.emit_freeCtr (o : Out) : (s.emit o).freeCtr = s.freeCtr := rfl
@[simp] theorem State.emit_tile (o : Out) (j : Nat) : (s.emit o).tile j = s.tile j := rfl
@[simp] theorem State.emit_pair (o : Out) (j : Nat) : (s.emit o).pair j = s.pair j := rfl
@[simp] theorem State.emit_cluster (o : Out) (j : Nat) : (s.emit o).cluster j = s.cluster j := rfl
@[simp] theorem State.emit_slice (o : Out) (j : Nat) : (s.emit o).slice j = s.slice j := rfl
@[simp] theorem State.emit_ctx (o : Out) (j : Nat) : (s.emit o).ctx j = s.ctx j := rfl
@[simp] theorem State.emit_core (o : Out) (j : Nat) : (s.emit o).core j = s.core j := rfl
@[simp] theorem State.emit_region (o : Out) (j : Nat) : (s.emit o).region j = s.region j := rfl
@[simp] theorem State.emit_part (o : Out) (j : Nat) : (s.emit o).part j = s.part j := rfl
@[simp] theorem State.emit_vf (o : Out) (j : Nat) : (s.emit o).vf j = s.vf j := rfl
@[simp] theorem State.emit_chan (o : Out) (j : Nat) : (s.emit o).chan j = s.chan j := rfl
@[simp] theorem State.emit_port (o : Out) (j : Nat) : (s.emit o).port j = s.port j := rfl
@[simp] theorem State.emit_rail (o : Out) (j : Nat) : (s.emit o).rail j = s.rail j := rfl
@[simp] theorem State.emit_pub (o : Out) (j : Nat) : (s.emit o).pub j = s.pub j := rfl
@[simp] theorem State.emit_kport (o : Out) (j : Nat) : (s.emit o).kport j = s.kport j := rfl
@[simp] theorem State.emit_monitor (o : Out) : (s.emit o).monitor = s.monitor := rfl
@[simp] theorem State.emit_myKey (o : Out) : (s.emit o).myKey = s.myKey := rfl
@[simp] theorem State.emit_me (o : Out) : (s.emit o).me = s.me := rfl
@[simp] theorem State.emit_myRegion (o : Out) : (s.emit o).myRegion = s.myRegion := rfl
@[simp] theorem State.emit_mySlot (o : Out) : (s.emit o).mySlot = s.mySlot := rfl
@[simp] theorem State.emit_my (o : Out) : (s.emit o).my = s.my := rfl
@[simp] theorem State.emit_mcore (o : Out) (k : CoreId) : (s.emit o).mcore k = s.mcore k := rfl
@[simp] theorem State.emit_running (o : Out) (j : Nat) : (s.emit o).running j = s.running j := rfl

/-! bump -/
@[simp] theorem State.bump_tick : s.bump.tick = s.tick := rfl
@[simp] theorem State.bump_failed : s.bump.failed = s.failed := rfl
@[simp] theorem State.bump_ports : s.bump.ports = s.ports := rfl
@[simp] theorem State.bump_hbm : s.bump.hbm = s.hbm := rfl
@[simp] theorem State.bump_kwe : s.bump.kwe = s.kwe := rfl
@[simp] theorem State.bump_lidOpened : s.bump.lidOpened = s.lidOpened := rfl
@[simp] theorem State.bump_lidOpen : s.bump.lidOpen = s.lidOpen := rfl
@[simp] theorem State.bump_lidSensor : s.bump.lidSensor = s.lidSensor := rfl
@[simp] theorem State.bump_rim : s.bump.rim = s.rim := rfl
@[simp] theorem State.bump_rimTags : s.bump.rimTags = s.rimTags := rfl
@[simp] theorem State.bump_poison : s.bump.poison = s.poison := rfl
@[simp] theorem State.bump_host : s.bump.host = s.host := rfl
@[simp] theorem State.bump_chans : s.bump.chans = s.chans := rfl
@[simp] theorem State.bump_clusters : s.bump.clusters = s.clusters := rfl
@[simp] theorem State.bump_slices : s.bump.slices = s.slices := rfl
@[simp] theorem State.bump_tiles : s.bump.tiles = s.tiles := rfl
@[simp] theorem State.bump_pairs : s.bump.pairs = s.pairs := rfl
@[simp] theorem State.bump_ctxs : s.bump.ctxs = s.ctxs := rfl
@[simp] theorem State.bump_cores : s.bump.cores = s.cores := rfl
@[simp] theorem State.bump_regions : s.bump.regions = s.regions := rfl
@[simp] theorem State.bump_parts : s.bump.parts = s.parts := rfl
@[simp] theorem State.bump_vfs : s.bump.vfs = s.vfs := rfl
@[simp] theorem State.bump_rails : s.bump.rails = s.rails := rfl
@[simp] theorem State.bump_pubs : s.bump.pubs = s.pubs := rfl
@[simp] theorem State.bump_held : s.bump.held = s.held := rfl
@[simp] theorem State.bump_flying : s.bump.flying = s.flying := rfl
@[simp] theorem State.bump_flight : s.bump.flight = s.flight := rfl
@[simp] theorem State.bump_hostReqs : s.bump.hostReqs = s.hostReqs := rfl
@[simp] theorem State.bump_invals : s.bump.invals = s.invals := rfl
@[simp] theorem State.bump_drains : s.bump.drains = s.drains := rfl
@[simp] theorem State.bump_glide : s.bump.glide = s.glide := rfl
@[simp] theorem State.bump_killTicks : s.bump.killTicks = s.killTicks := rfl
@[simp] theorem State.bump_image : s.bump.image = s.image := rfl
@[simp] theorem State.bump_out : s.bump.out = s.out := rfl
@[simp] theorem State.bump_agenda : s.bump.agenda = s.agenda := rfl
@[simp] theorem State.bump_edging : s.bump.edging = s.edging := rfl
@[simp] theorem State.bump_focus : s.bump.focus = s.focus := rfl
theorem State.bump_seq : s.bump.seq = s.seq + 1 := rfl
@[simp] theorem State.bump_freeCtr : s.bump.freeCtr = s.freeCtr := rfl
@[simp] theorem State.bump_tile (j : Nat) : s.bump.tile j = s.tile j := rfl
@[simp] theorem State.bump_pair (j : Nat) : s.bump.pair j = s.pair j := rfl
@[simp] theorem State.bump_cluster (j : Nat) : s.bump.cluster j = s.cluster j := rfl
@[simp] theorem State.bump_slice (j : Nat) : s.bump.slice j = s.slice j := rfl
@[simp] theorem State.bump_ctx (j : Nat) : s.bump.ctx j = s.ctx j := rfl
@[simp] theorem State.bump_core (j : Nat) : s.bump.core j = s.core j := rfl
@[simp] theorem State.bump_region (j : Nat) : s.bump.region j = s.region j := rfl
@[simp] theorem State.bump_part (j : Nat) : s.bump.part j = s.part j := rfl
@[simp] theorem State.bump_vf (j : Nat) : s.bump.vf j = s.vf j := rfl
@[simp] theorem State.bump_chan (j : Nat) : s.bump.chan j = s.chan j := rfl
@[simp] theorem State.bump_port (j : Nat) : s.bump.port j = s.port j := rfl
@[simp] theorem State.bump_rail (j : Nat) : s.bump.rail j = s.rail j := rfl
@[simp] theorem State.bump_pub (j : Nat) : s.bump.pub j = s.pub j := rfl
@[simp] theorem State.bump_kport (j : Nat) : s.bump.kport j = s.kport j := rfl
@[simp] theorem State.bump_monitor : s.bump.monitor = s.monitor := rfl
@[simp] theorem State.bump_myKey : s.bump.myKey = s.myKey := rfl
@[simp] theorem State.bump_me : s.bump.me = s.me := rfl
@[simp] theorem State.bump_myRegion : s.bump.myRegion = s.myRegion := rfl
@[simp] theorem State.bump_mySlot : s.bump.mySlot = s.mySlot := rfl
@[simp] theorem State.bump_my : s.bump.my = s.my := rfl
@[simp] theorem State.bump_mcore (k : CoreId) : s.bump.mcore k = s.mcore k := rfl
@[simp] theorem State.bump_running (j : Nat) : s.bump.running j = s.running j := rfl

/-! The focus core. -/

@[simp] theorem State.modMy_core_same (f : Core → Core) : (s.modMy f).core s.myKey = f s.my := tget_tput_same _ _ _ _
@[simp] theorem State.modMy_my (f : Core → Core) : (s.modMy f).my = f s.my := tget_tput_same _ _ _ _
theorem State.modMy_core_other (f : Core → Core) (j : Nat) (h : s.myKey ≠ j) : (s.modMy f).core j = s.core j := tget_tput_other _ _ _ h
@[simp] theorem State.pub_setPub (i : Nat) (p : Option Pub) : (s.setPub i p).pub i = p := tget_tput_same _ _ _ _
@[simp] theorem State.pub_modPub (i : Nat) (f : Pub → Pub) : (s.modPub i f).pub i = (s.pub i).map f := tget_tput_same _ _ _ _

theorem State.modMcore_mcore (c : CoreId) (f : MCore → MCore) : (s.modMcore c f).mcore c = f (s.mcore c) := by
  unfold State.modMcore State.mcore Tile.mcore
  rw [State.modTile_tile_same]
  cases c.compute <;> rfl

theorem State.modMcore_slots (c : CoreId) (f : MCore → MCore) (j : Nat) :
    ((s.modMcore c f).tile j).slots = (s.tile j).slots ∧ ((s.modMcore c f).tile j).run = (s.tile j).run := by
  unfold State.modMcore
  rw [State.modTile_tile]
  split
  · subst ‹c.site = j›; cases c.compute <;> exact ⟨rfl, rfl⟩
  · exact ⟨rfl, rfl⟩

@[simp] theorem State.modMcore_running (c : CoreId) (f : MCore → MCore) (j : Nat) : (s.modMcore c f).running j = s.running j := by
  unfold State.running
  rw [(s.modMcore_slots c f j).1, (s.modMcore_slots c f j).2]

end Sys2Proof.Machine
end

