-- ==== Sys2Proof/Laws/Issue.lean ====
section
/-! SUPPORT. What issuing an instruction does, once for every instruction: the frame reduces to the body's effect where the
instruction starts (R39, R47, R121), an instruction that ends leaves its effect's state but for the issuing core's pc, checker
and progress, and a trap enters the monitor (R383). -/

namespace Sys2Proof.Machine

open Sys2Proof

/-! Cores and registers. -/

@[simp] theorem State.modMcore_myCtx (s : State) (f : MCore → MCore) (h : ∀ m, (f m).mode = m.mode ∧ (f m).trapCtx = m.trapCtx) :
    (s.modMcore s.focus f).myCtx = s.myCtx := by
  unfold State.myCtx State.monitor
  rw [show (s.modMcore s.focus f).focus = s.focus from rfl, State.modMcore_mcore, (h _).1, (h _).2, State.modMcore_running]

theorem State.modMcore_myKey (s : State) (f : MCore → MCore) (h : ∀ m, (f m).mode = m.mode ∧ (f m).trapCtx = m.trapCtx) :
    (s.modMcore s.focus f).myKey = s.myKey := by
  unfold State.myKey State.me
  rw [State.modMcore_myCtx s f h]; rfl

theorem State.modMcore_monitor (s : State) (f : MCore → MCore) (h : ∀ m, (f m).mode = m.mode) :
    (s.modMcore s.focus f).monitor = s.monitor := by
  unfold State.monitor
  rw [show (s.modMcore s.focus f).focus = s.focus from rfl, State.modMcore_mcore, h]

/-- A monitor's update that keeps its mode and context, seen through a tile. -/
theorem State.modMcore_tile (s : State) (f : MCore → MCore) (i : Nat) :
    (s.modMcore s.focus f).tile i = if s.focus.site = i then
      (if s.focus.compute then { s.tile s.focus.site with compute := f (s.tile s.focus.site).compute }
       else { s.tile s.focus.site with stage := f (s.tile s.focus.site).stage }) else s.tile i := by
  unfold State.modMcore
  rw [State.modTile_tile]

/-- The parts of the state that only the issuing core's registers, pc, checker and progress tell apart. -/
structure Near (u t : State) : Prop where
  rest : t = { u with cores := t.cores, tiles := t.tiles }
  others : ∀ k, k ≠ u.myKey → t.core k = u.core k
  mine : ∃ c pc sig p, t.core u.myKey = { u.my with c := c, pc := pc, sig := sig, prog := p } ∧
    (u.monitor = true → c = u.my.c ∧ pc = u.my.pc ∧ sig = u.my.sig)
  tiles : u.monitor = false → t.tiles = u.tiles
  monitor : ∃ c pc, ∀ i, t.tile i = (u.modMcore u.focus fun m => if u.monitor then { m with c := c, pc := pc } else m).tile i

namespace Near

variable {u t v : State}

theorem focus (h : Near u t) : t.focus = u.focus := by rw [h.rest]

theorem mcore (h : Near u t) : ∃ c pc, t.mcore u.focus = if u.monitor then { u.mcore u.focus with c := c, pc := pc } else u.mcore u.focus := by
  obtain ⟨c, pc, h⟩ := h.monitor
  refine ⟨c, pc, ?_⟩
  have := State.modMcore_mcore u u.focus fun m => if u.monitor then { m with c := c, pc := pc } else m
  rw [← this]
  unfold State.mcore
  rw [h]

theorem mode (h : Near u t) : t.monitor = u.monitor := by
  obtain ⟨c, pc, hm⟩ := h.mcore
  unfold State.monitor at *
  rw [h.focus, hm]
  split <;> rfl

theorem running (h : Near u t) (i : Nat) : t.running i = u.running i := by
  obtain ⟨c, pc, hm⟩ := h.monitor
  unfold State.running
  rw [hm, (State.modMcore_slots u u.focus _ i).1, (State.modMcore_slots u u.focus _ i).2]

theorem key (h : Near u t) : t.myKey = u.myKey := by
  obtain ⟨c, pc, hm⟩ := h.mcore
  unfold State.myKey State.me State.myCtx
  rw [h.mode, h.focus, h.running, hm]
  cases u.monitor <;> rfl

theorem refl (u : State) : Near u u where
  rest := rfl
  others _ _ := rfl
  mine := ⟨_, _, _, _, rfl, fun _ => ⟨rfl, rfl, rfl⟩⟩
  tiles _ := rfl
  monitor := by
    refine ⟨(u.mcore u.focus).c, (u.mcore u.focus).pc, fun i => ?_⟩
    rw [State.modMcore_tile]
    split
    · subst ‹u.focus.site = i›
      split
      · cases hm : u.monitor
        · rfl
        · simp only [if_true]; unfold State.mcore Tile.mcore; rw [‹u.focus.compute = true›]; rfl
      · cases hm : u.monitor
        · rfl
        · simp only [if_true]; unfold State.mcore Tile.mcore; rw [Bool.not_eq_true] at *; rw [‹u.focus.compute = false›]; rfl
    · rfl

theorem trans (h : Near u t) (k : Near t v) : Near u v where
  rest := by rw [k.rest, h.rest]
  others x hx := by rw [k.others x (by rw [h.key]; exact hx), h.others x hx]
  mine := by
    obtain ⟨c, pc, sg, p, h1, h2⟩ := h.mine
    obtain ⟨c', pc', sg', p', k1, k2⟩ := k.mine
    have hmy : t.my = t.core u.myKey := by unfold State.my; rw [h.key]
    rw [h.key, hmy, h1] at k1
    rw [h.mode, hmy, h1] at k2
    refine ⟨c', pc', sg', p', k1, fun hm => ?_⟩
    obtain ⟨a1, a2, a3⟩ := h2 hm
    obtain ⟨b1, b2, b3⟩ := k2 hm
    exact ⟨b1.trans a1, b2.trans a2, b3.trans a3⟩
  tiles hm := by rw [k.tiles (by rw [h.mode]; exact hm), h.tiles hm]
  monitor := by
    obtain ⟨c, pc, hm⟩ := h.monitor
    obtain ⟨c', pc', km⟩ := k.monitor
    refine ⟨c', pc', fun i => ?_⟩
    rw [km, State.modMcore_tile, State.modMcore_tile, h.focus, h.mode]
    split
    · subst ‹u.focus.site = i›
      rw [hm, State.modMcore_tile, if_pos rfl]
      split
      · cases u.monitor <;> rfl
      · cases u.monitor <;> rfl
    · rw [hm, State.modMcore_tile, if_neg ‹_›]

theorem only (h : Near u t) (hp : t.my.prog = {}) : OnlyIssuer u t where
  rest := h.rest
  others := h.others
  mine := by
    obtain ⟨c, pc, sg, p, h1, h2⟩ := h.mine
    refine ⟨c, pc, sg, ?_, h2⟩
    have : t.my = t.core u.myKey := by unfold State.my; rw [h.key]
    rw [this, h1] at hp
    rw [h1, ← hp]
  tiles := h.tiles
  monitor := h.monitor

end Near

theorem OnlyIssuer.near {u t : State} (h : OnlyIssuer u t) : Near u t where
  rest := h.rest
  others := h.others
  mine := by obtain ⟨c, pc, sg, h1, h2⟩ := h.mine; exact ⟨c, pc, sg, {}, h1, h2⟩
  tiles := h.tiles
  monitor := h.monitor

theorem OnlyIssuer.prog {u t : State} (h : OnlyIssuer u t) : t.my.prog = {} := by
  obtain ⟨c, pc, sg, h1, h2⟩ := h.mine
  rw [State.my, h.near.key, h1]

/-- Changes of the focus context's core that touch registers, pc, checker and progress alone. -/
theorem Near.of_my {u : State} {f : Core → Core} (c : Tbl CReg) (pc : Nat) (sg : Sig) (p : Progress)
    (hf : f u.my = { u.my with c := c, pc := pc, sig := sg, prog := p })
    (hm : u.monitor = true → c = u.my.c ∧ pc = u.my.pc ∧ sg = u.my.sig) : Near u (u.modMy f) where
  rest := rfl
  others k hk := State.modMy_core_other u f k (Ne.symm hk)
  mine := ⟨c, pc, sg, p, by rw [State.modMy_core_same, hf], hm⟩
  tiles _ := rfl
  monitor := (Near.refl u).monitor

theorem Near.of_mcore {u : State} {f : MCore → MCore} (hm : u.monitor = true) (c : Tbl CReg) (pc : Nat)
    (hf : f (u.mcore u.focus) = { u.mcore u.focus with c := c, pc := pc }) : Near u (u.modMcore u.focus f) where
  rest := rfl
  others _ _ := rfl
  mine := ⟨_, _, _, _, rfl, fun _ => ⟨rfl, rfl, rfl⟩⟩
  tiles h := absurd (hm.symm.trans h) (by decide)
  monitor := by
    refine ⟨c, pc, fun i => ?_⟩
    rw [State.modMcore_tile, State.modMcore_tile, hm]
    unfold State.mcore Tile.mcore at hf
    split
    · split
      · rw [if_pos ‹_›] at hf; rw [hf]; rfl
      · rw [if_neg ‹_›] at hf; rw [hf]; rfl
    · rfl

/-! Reads and writes of registers. -/

@[simp] theorem State.rc_zero (s : State) : s.rc 0#5 = {} := rfl

theorem rc_congr {u t : State} (hm : t.monitor = u.monitor) (hc : t.my.c = u.my.c)
    (hmc : (t.mcore t.focus).c = (u.mcore u.focus).c) (r : Reg) : t.rc r = u.rc r := by
  unfold State.rc
  rw [hm, hc, hmc]

theorem Near.of_wc (u : State) (d : Reg) (v : CReg) : Near u (u.wc d v) := by
  unfold State.wc
  split
  · exact Near.refl u
  · split
    · exact Near.of_mcore ‹_› _ _ rfl
    · exact Near.of_my _ _ _ _ rfl fun h => absurd h ‹_›

theorem State.rc_wc (u : State) (d r : Reg) (v : CReg) : (u.wc d v).rc r = if r = d ∧ d ≠ 0#5 then v else u.rc r := by
  have hm := (Near.of_wc u d v).mode
  unfold State.rc
  rw [hm]
  by_cases hr : r = 0#5
  · rw [if_pos hr, if_pos hr, if_neg]
    rintro ⟨h, h'⟩
    exact h' (h.symm.trans hr)
  rw [if_neg hr, if_neg hr]
  unfold State.wc
  by_cases hd : d = 0#5
  · rw [if_neg (fun (h : r = d ∧ d ≠ 0#5) => h.2 hd)]
    simp [hd]
  rw [if_neg hd]
  have hnat : d.toNat = r.toNat ↔ r = d := ⟨fun h => (BitVec.eq_of_toNat_eq h).symm, fun h => by rw [h]⟩
  cases hmon : u.monitor
  · simp only [Bool.false_eq_true, if_false, State.modMy_my, tget_tput, hnat]
    by_cases h : r = d <;> simp [h, hd]
  · simp only [if_true]
    rw [show (u.modMcore u.focus fun m => { m with c := tput {} d.toNat v m.c }).focus = u.focus from rfl, State.modMcore_mcore]
    simp only [tget_tput, hnat]
    by_cases h : r = d <;> simp [h, hd]

@[simp] theorem State.pcNow_wc (u : State) (d : Reg) (v : CReg) : (u.wc d v).pcNow = u.pcNow := by
  unfold State.pcNow
  rw [(Near.of_wc u d v).mode]
  unfold State.wc
  by_cases hd : d = 0#5
  · simp only [hd, if_true]
  · simp only [hd, if_false]
    cases hm : u.monitor
    · simp [State.modMy_my]
    · simp only [if_true]
      rw [show (u.modMcore u.focus fun m => { m with c := tput {} d.toNat v m.c }).focus = u.focus from rfl, State.modMcore_mcore]

@[simp] theorem State.killLater_wc (u : State) (d : Reg) (v : CReg) : (u.wc d v).my.killLater = u.my.killLater := by
  have h := (Near.of_wc u d v).mine
  obtain ⟨c, pc, sg, p, h1, _⟩ := h
  rw [State.my, (Near.of_wc u d v).key, h1]

/-! The end of an instruction. -/

theorem State.endInstr_eq (u : State) (h : u.my.killLater = none) : u.endInstr = u.modMy fun c => { c with prog := {} } := by
  unfold State.endInstr
  simp only [State.modMy_my, h]

/-- An instruction that ends at next leaves u but for the core's pc, checker and progress. -/
theorem settle_ends (u : State) (i : Issue) (g : Sig) (next : Nat) (hk : u.my.killLater = none) :
    Ends u (((if u.monitor then u else match u.my.act with
      | some a => u.modMy fun c => { c with sig := sigAfter a g i u.word0 next }
      | none => u).setPc next).endInstr) next := by
  cases hm : u.monitor
  · simp only [Bool.false_eq_true, if_false]
    generalize hw : (match u.my.act with
      | some a => u.modMy fun c => { c with sig := sigAfter a g i u.word0 next }
      | none => u) = w
    have hn : Near u w ∧ w.my.c = u.my.c ∧ w.my.killLater = none := by
      subst hw
      cases u.my.act with
      | none => exact ⟨Near.refl u, rfl, hk⟩
      | some a => exact ⟨Near.of_my _ _ _ _ rfl (fun h => absurd (hm.symm.trans h) (by decide)), by simp, by simpa using hk⟩
    have hwm : w.monitor = false := hn.1.mode.trans hm
    have hset : w.setPc next = w.modMy fun c => { c with pc := next % 2 ^ 64 } := by unfold State.setPc; rw [hwm]; rfl
    rw [hset, State.endInstr_eq _ (by simpa using hn.2.2)]
    have h2 : Near w (w.modMy fun c => { c with pc := next % 2 ^ 64 }) :=
      Near.of_my _ _ _ _ rfl fun h => absurd (hwm.symm.trans h) (by decide)
    have h3 := Near.of_my (u := w.modMy fun c => { c with pc := next % 2 ^ 64 }) (f := fun c => { c with prog := {} }) _ _ _ _ rfl
      (fun h => absurd ((h2.mode.trans hwm).symm.trans h) (by decide))
    have h := hn.1.trans (h2.trans h3)
    refine ⟨h.only (by simp), fun r => ?_, ?_⟩
    · refine rc_congr h.mode (by simpa using hn.2.1) ?_ r
      rw [h.focus]
      obtain ⟨c, pc, e⟩ := h.mcore
      rw [e, hm]; rfl
    · unfold State.pcNow
      rw [h.mode, hm]
      simp
  · simp only [if_true]
    have hset : u.setPc next = u.modMcore u.focus fun m => { m with pc := next % 2 ^ 64 } := by unfold State.setPc; rw [hm]; rfl
    have h1 : Near u (u.setPc next) := by rw [hset]; exact Near.of_mcore hm _ _ rfl
    have hmy : (u.setPc next).my = u.my := by
      unfold State.my; rw [h1.key, hset]; rfl
    rw [State.endInstr_eq _ (by rw [hmy]; exact hk)]
    have h2 := Near.of_my (u := u.setPc next) (f := fun c => { c with prog := {} }) _ _ _ _ rfl fun _ => ⟨rfl, rfl, rfl⟩
    have h := h1.trans h2
    have hmc : ((u.setPc next).modMy fun c => { c with prog := {} }).mcore u.focus = { u.mcore u.focus with pc := next % 2 ^ 64 } := by
      rw [State.modMy_mcore, hset, State.modMcore_mcore]
    refine ⟨h.only (by simp), fun r => ?_, ?_⟩
    · refine rc_congr h.mode ?_ ?_ r
      · rw [State.modMy_my, hmy]
      · rw [h.focus, hmc]
    · unfold State.pcNow
      rw [h.mode, hm, h.focus, hmc]
      rfl

theorem settle_retire (u : State) (i : Issue) (g : Sig) (hk : u.my.killLater = none) :
    Ends u (u.settle i g .retire) (u.pcNow + i.len) := settle_ends u i g _ hk

theorem settle_goto (u : State) (i : Issue) (g : Sig) (pc : Nat) (hk : u.my.killLater = none) :
    Ends u (u.settle i g (.goto pc)) pc := settle_ends u i g _ hk

/-! Issue. -/

/-- Where the shared checks pass, issue runs the body. -/
theorem issue_free {i : Issue} {s : State} (h : Free i s) (body : State → Act) : issue i body s = .next (s.runBody i body) := by
  unfold issue
  have h1 : (!s.monitor && s.my.act.isNone) = false := by
    rcases h.stream with h | h
    · rw [h]; rfl
    · cases ha : s.my.act with
      | none => rw [ha] at h; exact absurd h (by decide)
      | some a => simp
  have h2 : ((s.monitor && !i.mon && !i.monOnly) || (i.computeOnly && !s.focus.compute) || i.illegal) = false := by
    have hr : (i.computeOnly && !s.focus.compute) = false := by
      cases hc : i.computeOnly
      · rfl
      · rw [h.role hc]; rfl
    rw [hr, h.legal, Bool.or_false, Bool.or_false]
    have := h.mode
    cases hm : s.monitor
    · rfl
    · rw [hm] at this
      rcases this with e | e <;> simp [e]
  have h3 : (i.monOnly && !s.monitor) = false := by
    have := h.mode
    cases hm : s.monitor
    · rw [hm] at this; simp only [Bool.false_eq_true, if_false] at this; rw [this]; rfl
    · simp
  have h4 : (!s.monitor && s.hazard i) = false := by
    rcases h.hazard with e | e
    · rw [e]; rfl
    · rw [e]; simp
  rw [h1, h2, h3, h.range, h4]
  rfl

/-- The body's verdict is settled as it stands, in the state that the checker's entry leaves. -/
theorem issue_next {i : Issue} {s s' u : State} {v : Verdict} {taken : Bool} {body : State → Act} (h : Free i s)
    (hc : Checked i s s' taken) (hb : body s' = (u, v))
    (hv : match v with
      | .retire => taken = false
      | .done => taken = false
      | .goto _ => taken = true
      | .stay => s.released u = true → taken = false
      | .trap _ _ _ => i.trapEnds = true → taken = false
      | .abort _ _ _ => taken = false) :
    ∃ g, issue i body s = .next (u.settle i g v) := by
  rw [issue_free h]
  unfold State.runBody
  unfold Checked at hc
  cases hm : s.monitor
  · rw [hm] at hc
    simp only [Bool.false_eq_true, if_false] at hc
    obtain ⟨a, es, g, h1, h2, h3, h4, rfl⟩ := hc
    rw [h2]
    simp only [h1, Option.getD_some, hm, Bool.false_eq_true, if_false, h3, hb]
    refine ⟨g, ?_⟩
    cases v <;> simp only at hv ⊢
    · subst hv; rw [h4]
    · subst hv; rw [h4]
    · cases hr : s.released u
      · rfl
      · rw [hv hr] at h4
        simp only [if_true, h4]
    · cases ht : i.trapEnds
      · rfl
      · rw [hv ht] at h4
        simp only [if_true, h4]
    · subst hv; rw [h4]
    · subst hv; rw [h4]
  · rw [hm] at hc
    simp only [if_true] at hc
    subst hc
    have : s'.sigTable = (.ok [], s') := by
      unfold State.sigTable
      cases s'.my.act <;> simp [hm]
    rw [this]
    simp only [hm, if_true, hb]
    exact ⟨_, rfl⟩

/-! What the checker's entry leaves. -/

theorem Checked.near {i : Issue} {s s' : State} {taken : Bool} (h : Checked i s s' taken) : Near s s' := by
  unfold Checked at h
  cases hm : s.monitor
  · rw [hm] at h
    obtain ⟨a, es, g, _, _, _, _, rfl⟩ := h
    exact Near.of_my _ _ _ _ rfl fun e => absurd (hm.symm.trans e) (by decide)
  · rw [hm] at h
    obtain rfl : s' = s := h
    exact Near.refl s'

/-- Every field of the issuing core but the checker's state. -/
theorem Checked.my {i : Issue} {s s' : State} {taken : Bool} (h : Checked i s s' taken) :
    ∃ g, s'.my = { s.my with sig := g } := by
  unfold Checked at h
  cases hm : s.monitor
  · rw [hm] at h
    obtain ⟨a, es, g, _, _, _, _, rfl⟩ := h
    exact ⟨g, by simp⟩
  · rw [hm] at h
    obtain rfl : s' = s := h
    exact ⟨s'.my.sig, rfl⟩

theorem Checked.rc {i : Issue} {s s' : State} {taken : Bool} (h : Checked i s s' taken) (r : Reg) : s'.rc r = s.rc r := by
  obtain ⟨g, e⟩ := h.my
  refine rc_congr h.near.mode (by rw [e]) ?_ r
  unfold Checked at h
  cases hm : s.monitor
  · rw [hm] at h
    obtain ⟨a, es, g, _, _, _, _, rfl⟩ := h
    rfl
  · rw [hm] at h
    obtain rfl : s' = s := h
    rfl

theorem Checked.rd {i : Issue} {s s' : State} {taken : Bool} (h : Checked i s s' taken) (r : Reg) : s'.rd r = s.rd r := by
  unfold State.rd; rw [h.rc]

theorem Checked.tiles {i : Issue} {s s' : State} {taken : Bool} (h : Checked i s s' taken) : s'.tiles = s.tiles := by
  unfold Checked at h
  cases hm : s.monitor
  · rw [hm] at h
    obtain ⟨a, es, g, _, _, _, _, rfl⟩ := h
    rfl
  · rw [hm] at h
    obtain rfl : s' = s := h
    rfl

/-- s' is s but for the cores. -/
theorem Checked.eq {i : Issue} {s s' : State} {taken : Bool} (h : Checked i s s' taken) : s' = { s with cores := s'.cores } := by
  have := h.near.rest
  rw [h.tiles] at this
  exact this

theorem Checked.pcNow {i : Issue} {s s' : State} {taken : Bool} (h : Checked i s s' taken) : s'.pcNow = s.pcNow := by
  obtain ⟨g, e⟩ := h.my
  unfold State.pcNow
  rw [h.near.mode, e, h.near.focus]
  unfold State.mcore State.tile
  rw [h.tiles]

theorem Checked.kill {i : Issue} {s s' : State} {taken : Bool} (h : Checked i s s' taken) (hf : Free i s) : s'.my.killLater = none := by
  obtain ⟨g, e⟩ := h.my
  rw [e]; exact hf.kill

/-! The three ends of an instruction, for every instruction. -/

theorem issue_ends {i : Issue} {s s' u : State} {body : State → Act} (hf : Free i s) (hc : Checked i s s' false)
    (hb : body s' = (u, .retire)) (hk : u.my.killLater = none) :
    ∃ t, issue i body s = .next t ∧ Ends u t (u.pcNow + i.len) := by
  obtain ⟨g, e⟩ := issue_next hf hc hb rfl
  exact ⟨_, e, settle_retire u i g hk⟩

theorem issue_goes {i : Issue} {s s' u : State} {pc : Nat} {body : State → Act} (hf : Free i s) (hc : Checked i s s' true)
    (hb : body s' = (u, .goto pc)) (hk : u.my.killLater = none) :
    ∃ t, issue i body s = .next t ∧ Ends u t pc := by
  obtain ⟨g, e⟩ := issue_next hf hc hb rfl
  exact ⟨_, e, settle_goto u i g pc hk⟩

theorem Ends.of_wc {s s' t : State} {i : Issue} {taken : Bool} {n : Nat} {d : Reg} {v : CReg} (hc : Checked i s s' taken)
    (h : Ends (s'.wc d v) t n) : EndsWith s t n d v where
  frame := ((hc.near.trans (Near.of_wc s' d v)).trans h.frame.near).only h.frame.prog
  regs r := by rw [h.regs, State.rc_wc, hc.rc]
  pc := h.pc

theorem Ends.of_self {s s' t : State} {i : Issue} {taken : Bool} {n : Nat} (hc : Checked i s s' taken) (h : Ends s' t n) : Ends s t n where
  frame := (hc.near.trans h.frame.near).only h.frame.prog
  regs r := by rw [h.regs, hc.rc]
  pc := h.pc

/-- An instruction whose whole effect is a register. -/
theorem issue_writes {i : Issue} {s s' : State} {d : Reg} {v : CReg} {body : State → Act} (hf : Free i s)
    (hc : Checked i s s' false) (hb : body s' = (s'.wc d v, .retire)) :
    ∃ t, issue i body s = .next t ∧ EndsWith s t (s.pcNow + i.len) d v := by
  obtain ⟨t, e, h⟩ := issue_ends hf hc hb (by rw [State.killLater_wc]; exact hc.kill hf)
  rw [State.pcNow_wc, hc.pcNow] at h
  exact ⟨t, e, h.of_wc hc⟩

/-- Traps (R383): in activation mode, once no request is outstanding. -/
theorem trapNow_trapped (u : State) (c : Cause) (va info : Nat) (hm : u.monitor = false) (hq : u.pendingReqs = false) :
    Trapped u (u.trapNow c va info false) c.code va info false := by
  have key : (u.modMy fun c => { c with prog := {}, stall := if c.leaving.isEmpty then .none else .refused }).focus = u.focus := rfl
  unfold State.trapNow
  simp only [hm, hq, Bool.false_eq_true, if_false]
  unfold State.takeTrap
  simp only [hm, Bool.false_eq_true, if_false]
  generalize hw : (u.modMy fun c => { c with prog := {}, stall := if c.leaving.isEmpty then .none else .refused }) = w
  have hwm : w.mcore u.focus = u.mcore u.focus := by subst hw; rfl
  refine ⟨?_, ?_, ?_, ?_, ?_, ?_, ?_⟩
  · subst hw; rfl
  · unfold State.monitor
    rw [show ∀ f, (w.modMcore w.focus f).focus = w.focus from fun _ => rfl, State.modMcore_mcore]
  · unfold State.pcNow State.monitor
    rw [show ∀ f, (w.modMcore w.focus f).focus = w.focus from fun _ => rfl, State.modMcore_mcore]
    rfl
  · subst hw
    rw [State.modMy_focus, State.modMcore_mcore]
    rfl
  · intro k hk
    subst hw
    rw [State.modMcore_core, State.modMy_core_other _ _ _ (Ne.symm hk)]
  · subst hw
    rw [State.modMcore_core, State.modMy_core_same]
  · intro i hi
    subst hw
    rw [State.modMcore_tile, if_neg (by rw [State.modMy_focus]; exact Ne.symm hi)]
    rfl

/-- An instruction that traps where no request is outstanding. -/
theorem issue_traps {i : Issue} {s s' u : State} {c : Cause} {va info : Nat} {body : State → Act} (hf : Free i s)
    (hc : Checked i s s' false) (hb : body s' = (u, .trap c va info)) (hm : u.monitor = false) (hq : u.pendingReqs = false) :
    ∃ t, issue i body s = .next t ∧ Trapped u t c.code va info false := by
  obtain ⟨g, e⟩ := issue_next hf hc hb (fun _ => rfl)
  exact ⟨_, e, trapNow_trapped u c va info hm hq⟩

end Sys2Proof.Machine
end

