-- ==== Sys2Proof/Laws/Exec.lean ====
section
/-! SUPPORT. Every instruction of a core issues by its declaration: the one lemma that the proofs about issue start from. -/

namespace Sys2Proof.Machine

open Sys2Proof

/-- An instruction that has an encoding is a body that issues under what the instruction declares. -/
theorem exec_issue (i : Instr) (h : (toFields i).isSome = true) : ∃ body, ∀ s, exec i s = issue (s.declared i) body s := by
  cases i <;> first | exact (Bool.false_ne_true h).elim | exact ⟨_, fun _ => rfl⟩

/-- An end that writes no register is one that writes c0. -/
theorem Ends.writes_none {s t : State} {n : Nat} {v : CReg} (h : Ends s t n) : EndsWith s t n 0#5 v where
  frame := h.frame
  regs r := by rw [h.regs, if_neg (fun e => e.2 rfl)]
  pc := h.pc

end Sys2Proof.Machine
end

