-- ==== Sys2Proof/Laws/Memory.lean ====
section
/-! SUPPORT. Laws of memory: what was stored is read, other bytes stay, and every memory operation keeps the canonical form of rim
memory, of the host's memory and of a checkpoint's image. -/

namespace Sys2Proof.Machine

open Sys2Proof

/-! Byte tables. -/

theorem tget_twrite_before (t : Tbl Byte) (n : Nat) : ∀ a b x, b < a → tget 0#8 (twrite t a n x) b = tget 0#8 t b := by
  induction n generalizing t with
  | zero => intros; rfl
  | succ n ih =>
    intro a b x h
    rw [twrite, ih _ (a + 1) b _ (by omega), tget_tput_other _ _ _ (by omega)]

/-- A byte outside the stored ones reads as before. -/
theorem tget_twrite_outside (t : Tbl Byte) (n : Nat) : ∀ a b x, b < a ∨ a + n ≤ b → tget 0#8 (twrite t a n x) b = tget 0#8 t b := by
  induction n generalizing t with
  | zero => intros; rfl
  | succ n ih =>
    intro a b x h
    rw [twrite, ih _ (a + 1) b _ (by omega), tget_tput_other _ _ _ (by omega)]

/-- What n bytes stored from an address read as. -/
theorem tread_twrite (t : Tbl Byte) (n : Nat) : ∀ a x, tread (twrite t a n x) a n = x % 256 ^ n := by
  induction n generalizing t with
  | zero => intro a x; simp [tread, Nat.mod_one]
  | succ n ih =>
    intro a x
    rw [tread, twrite, ih, tget_twrite_before _ _ _ _ _ (Nat.lt_succ_self a), tget_tput_same, BitVec.toNat_ofNat, pow_succ' 256 n,
      Nat.mod_mul]

/-! Rim memory. -/

theorem rimPut_wf (p : Partition) (n : Nat) : ∀ (t : List Host.Cell) (a x : Nat), Memory.wf t = true → Memory.wf (rimPut p t a n x) = true := by
  induction n with
  | zero => intro t a x h; exact h
  | succ n ih => intro t a x h; exact ih _ _ _ (Tbl.wf_tput _ _ _ h)

/-- A cell that no stored address lies in reads as before. -/
theorem tget_rimPut_outside (p : Partition) (n : Nat) : ∀ (t : List Host.Cell) (a x b : Nat), (∀ i, i < n → p.cell (a + i) ≠ b) →
    tget 0#8 (rimPut p t a n x) b = tget 0#8 t b := by
  induction n with
  | zero => intros; rfl
  | succ n ih =>
    intro t a x b h
    rw [rimPut, ih _ _ _ _ (fun i hi => by rw [show a + 1 + i = a + (i + 1) by omega]; exact h (i + 1) (by omega)),
      tget_tput_other _ _ _ (by simpa using h 0 (by omega))]

/-- What n bytes stored from a rim address read as, where they lie in cells of their own. -/
theorem rimRead_rimWrite (s : State) (p : Partition) (n : Nat) : ∀ (a x : Nat), (∀ i j, i < n → j < n → p.cell (a + i) = p.cell (a + j) → i = j) →
    (s.rimWrite p a n x).rimRead p a n = x % 256 ^ n := by
  unfold State.rimWrite
  generalize s.rim = t
  induction n generalizing t with
  | zero => intro a x _; simp [State.rimRead, Nat.mod_one]
  | succ n ih =>
    intro a x h
    have hr : ∀ (u : State) (t : List Host.Cell) (a m : Nat), ({ u with rim := t } : State).rimRead p a m = ({ s with rim := t } : State).rimRead p a m := by
      intro u t a m
      induction m generalizing a with
      | zero => rfl
      | succ m ihm => simp only [State.rimRead]; rw [ihm]
    rw [State.rimRead, rimPut, tget_rimPut_outside]
    · have := ih (tput 0#8 (p.cell a) (BitVec.ofNat 8 x) t) (a + 1) (x / 256) fun i j hi hj e => by
        have := h (i + 1) (j + 1) (by omega) (by omega) (by rw [show a + (i + 1) = a + 1 + i by omega, show a + (j + 1) = a + 1 + j by omega]; exact e)
        omega
      rw [this, tget_tput_same, BitVec.toNat_ofNat, pow_succ' 256 n, Nat.mod_mul]
    · intro i hi e
      have := h 0 (i + 1) (by omega) (by omega) (by rw [show a + (i + 1) = a + 1 + i by omega, e]; rfl)
      omega

/-! What keeps every byte of memory. -/

/-- No byte of memory differs. -/
structure MemKept (s t : State) : Prop where
  rim : t.rim = s.rim
  host : t.host = s.host
  image : t.image = s.image

theorem MemKept.refl (s : State) : MemKept s s := ⟨rfl, rfl, rfl⟩
theorem MemKept.trans {s t u : State} (h : MemKept s t) (k : MemKept t u) : MemKept s u :=
  ⟨k.rim.trans h.rim, k.host.trans h.host, k.image.trans h.image⟩
theorem MemKept.wf {s t : State} (h : MemKept s t) : t.memWf = s.memWf := by simp only [State.memWf, h.rim, h.host, h.image]

/-- A fold of steps that keep memory keeps it. -/
theorem MemKept.foldl {α : Type} (f : State → α → State) (h : ∀ s x, MemKept s (f s x)) : ∀ (l : List α) (s : State), MemKept s (l.foldl f s)
  | [], s => refl s
  | x :: l, s => (h s x).trans (foldl f h l (f s x))

/-- A fold of steps that keep the canonical form keeps it. -/
theorem memWf_foldl {α : Type} (f : State → α → State) (h : ∀ s x, s.memWf = true → (f s x).memWf = true) :
    ∀ (l : List α) (s : State), s.memWf = true → (l.foldl f s).memWf = true
  | [], _, w => w
  | x :: l, s, w => memWf_foldl f h l (f s x) (h s x w)

theorem kept_rimTouch (s : State) (p : Nat) (reg : Option Nat) (write : Bool) (pa n : Nat) : MemKept s (s.rimTouch p reg write pa n) := by
  unfold State.rimTouch
  refine MemKept.foldl _ (fun s i => ?_) _ _
  dsimp only
  split <;> exact ⟨rfl, rfl, rfl⟩

theorem kept_dropLine (s : State) (p pa : Nat) : MemKept s (s.dropLine p pa) := by
  unfold State.dropLine
  refine MemKept.foldl _ (fun _ _ => ?_) _ _
  exact ⟨rfl, rfl, rfl⟩

theorem kept_setRimLineTags (s : State) (p : Partition) (l : Nat) (t : BitVec 4) : MemKept s (s.setRimLineTags p l t) := ⟨rfl, rfl, rfl⟩

theorem kept_debitOcc (s : State) (r n : Nat) : MemKept s (s.debitOcc r n) := by
  unfold State.debitOcc
  refine MemKept.foldl _ (fun _ _ => ?_) _ _
  exact ⟨rfl, rfl, rfl⟩

theorem kept_chargeHost (s : State) (p port n : Nat) : MemKept s (s.chargeHost p port n) := ⟨rfl, rfl, rfl⟩

theorem kept_chain (s : State) (p sl l : Nat) (reg : Option Nat) : MemKept s (s.chain p sl l reg).2 := by
  unfold State.chain
  split
  · exact MemKept.refl s
  · exact (kept_rimTouch s p reg false (l * 64) 64).trans ⟨rfl, rfl, rfl⟩

theorem kept_freeBytes (s : State) (n : Nat) : MemKept s (s.freeBytes n).2 := by
  induction n generalizing s with
  | zero => exact MemKept.refl s
  | succ n ih => exact MemKept.trans (t := s.free.2) ⟨rfl, rfl, rfl⟩ (ih s.free.2)

theorem kept_readPa (s : State) (p sl pa n : Nat) (dev : Bool) (reg : Nat) (v : Option Stamp) : MemKept s (s.readPa p sl pa n dev reg v).2 := by
  unfold State.readPa
  split
  · split
    · exact MemKept.refl s
    · dsimp only
      split
      · exact (kept_chain s p sl (pa / 64) (some reg)).trans (kept_freeBytes _ n)
      · exact kept_chain s p sl (pa / 64) (some reg)
  · exact kept_chargeHost s p _ n

theorem kept_askAts (s : State) (p sl page : Nat) (acc : Access) (vf : Nat) (who : Asker) :
    MemKept s (s.askAts p sl page acc vf who) := by
  unfold State.askAts
  dsimp only
  split <;> exact ⟨rfl, rfl, rfl⟩

theorem kept_translateHost (s : State) (p sl va : Nat) (acc : Access) (reg : Nat) (who : Asker) :
    MemKept s (translateHost s p sl va acc reg who).2 := by
  unfold translateHost
  dsimp only
  repeat' split
  all_goals first | exact kept_askAts _ _ _ _ _ _ _ | exact ⟨rfl, rfl, rfl⟩

/-! What keeps the canonical form. -/

theorem reset_memWf : State.reset.memWf = true := rfl

theorem memWf_iff (s : State) : s.memWf = true ↔ Memory.wf s.rim = true ∧ Memory.wf s.host = true ∧ (s.image.all fun i => Memory.wf i.rim) = true := by
  simp only [State.memWf, Bool.and_eq_true, and_assoc]

theorem memWf_rim {s : State} (h : s.memWf = true) (m : List Host.Cell) (hm : Memory.wf m = true) : ({ s with rim := m } : State).memWf = true :=
  (memWf_iff _).2 ⟨hm, ((memWf_iff s).1 h).2⟩
theorem memWf_host {s : State} (h : s.memWf = true) (m : List Host.Cell) (hm : Memory.wf m = true) : ({ s with host := m } : State).memWf = true :=
  (memWf_iff _).2 ⟨((memWf_iff s).1 h).1, hm, ((memWf_iff s).1 h).2.2⟩

theorem rimWrite_memWf {s : State} (p : Partition) (a n x : Nat) (h : s.memWf = true) : (s.rimWrite p a n x).memWf = true :=
  memWf_rim h _ (rimPut_wf p n _ a x ((memWf_iff s).1 h).1)

theorem zeroCells_memWf {s : State} (lo hi : Nat) (h : s.memWf = true) : (s.zeroCells lo hi).memWf = true :=
  (memWf_iff _).2 ⟨Tbl.wf_filter _ _ ((memWf_iff s).1 h).1, ((memWf_iff s).1 h).2⟩

theorem zeroFrame_memWf {s : State} (p : Partition) (fr : Nat) (h : s.memWf = true) : (s.zeroFrame p fr).memWf = true :=
  memWf_foldl _ (fun _ _ => zeroCells_memWf _ _) _ _ h

theorem hostWrite_memWf {s : State} (a n x : Nat) (h : s.memWf = true) : ({ s with host := twrite s.host a n x } : State).memWf = true :=
  memWf_host h _ (twrite_wf n a x ((memWf_iff s).1 h).2.1)

theorem setLeaf_memWf {s : State} (p sl pteAt : Nat) (f : Nat → Nat) (reg : Option Nat) (h : s.memWf = true) :
    (s.setLeaf p sl pteAt f reg).memWf = true := by
  have k := kept_rimTouch (s.rimWrite (s.part p) pteAt 8 (f (s.rimRead (s.part p) pteAt 8))) p reg true pteAt 8
  exact (MemKept.wf ⟨k.rim, k.host, k.image⟩).trans (rimWrite_memWf _ _ _ _ h)

theorem markLeaf_memWf {s : State} (p sl pteAt pte : Nat) (f : Nat → Nat) (reg : Nat) (h : s.memWf = true) :
    (s.markLeaf p sl pteAt pte f reg).memWf = true := by
  unfold State.markLeaf
  split
  · exact setLeaf_memWf _ _ _ _ _ h
  · exact h

theorem enterWrite_memWf {s : State} (p sl l : Nat) (w : LineWrite) (h : s.memWf = true) : (s.enterWrite p sl l w).memWf = true := by
  unfold State.enterWrite
  dsimp only
  have hc : (s.chain p sl l (some w.region)).2.memWf = true := (kept_chain s p sl l (some w.region)).wf.trans h
  generalize (s.chain p sl l (some w.region)) = c at hc
  have hw := rimWrite_memWf (s := c.2.modSlice sl fun x => { x with chains := tput none l (some { c.1 with writes := insertWrite w c.1.writes }) x.chains })
    ((c.2.modSlice sl fun x => { x with chains := tput none l (some { c.1 with writes := insertWrite w c.1.writes }) x.chains }).part p) (l * 64) 64
    (Chain.newest { c.1 with writes := insertWrite w c.1.writes }).1.toNat hc
  split
  · exact (MemKept.wf ((MemKept.trans (kept_setRimLineTags _ _ _ _) (kept_rimTouch _ _ _ _ _ _)).trans ⟨rfl, rfl, rfl⟩)).trans hw
  · exact (MemKept.wf (MemKept.trans (kept_setRimLineTags _ _ _ _) (kept_rimTouch _ _ _ _ _ _))).trans hw

theorem hostWriteLine_memWf {s : State} (p sl pa : Nat) (w : LineWrite) (h : s.memWf = true) : (s.hostWriteLine p sl pa w).memWf = true := by
  unfold State.hostWriteLine
  refine memWf_foldl _ (fun s i hs => ?_) _ _ h
  have hc : (s.chargeHost p (nearestPort (sl / 4)) 1).memWf = true := (MemKept.wf (kept_chargeHost _ _ _ _)).trans hs
  split
  · dsimp only
    split
    · exact hc
    · exact memWf_host hc _ (Tbl.wf_tput _ _ _ ((memWf_iff _).1 hc).2.1)
  · exact hs

theorem hostAtomWrite_memWf {s : State} (sl pa n x : Nat) (st : Stamp) (h : s.memWf = true) : (s.hostAtomWrite sl pa n x st).memWf = true :=
  hostWrite_memWf pa n x h

theorem translateDev_memWf {s : State} (p sl va : Nat) (acc : Access) (reg : Nat) (v : Stamp) (dirty : Bool) (h : s.memWf = true) :
    (translateDev s p sl va acc reg v dirty).2.memWf = true := by
  unfold translateDev
  dsimp only
  have hf : ∀ l : List Nat, (l.foldl (fun s a => s.rimTouch p (some reg) false a 8) s).memWf = true := fun l =>
    (MemKept.wf (MemKept.foldl _ (fun s a => kept_rimTouch s p (some reg) false a 8) l s)).trans h
  split
  · rename_i heq
    split at heq <;> obtain ⟨-, rfl⟩ := Prod.mk.inj heq
    · exact h
    · exact hf _
  · rename_i f u heq
    have hu : u.memWf = true := by
      split at heq <;> obtain ⟨-, rfl⟩ := Prod.mk.inj heq
      · exact h
      · exact hf _
    clear heq
    have hm : ∀ e, (u.addStb p sl e).memWf = true := fun _ => hu
    repeat' split
    all_goals with_reducible first
      | exact hu
      | exact hm _
      | exact markLeaf_memWf _ _ _ _ _ _ hu
      | exact markLeaf_memWf _ _ _ _ _ _ (hm _)

theorem translateFor_memWf {s : State} (p va : Nat) (acc : Access) (reg : Nat) (v : Stamp) (who : Asker) (dirty : Bool)
    (h : s.memWf = true) : (translateFor s p va acc reg v who dirty).2.memWf = true := by
  unfold translateFor
  dsimp only
  split
  · exact translateDev_memWf p _ va acc reg v dirty h
  · exact (kept_translateHost s p _ va acc reg who).wf.trans h

theorem translate_memWf {s : State} (p va : Nat) (acc : Access) (reg : Nat) (v : Stamp) (who : Asker) (h : s.memWf = true) :
    (translate s p va acc reg v who).2.memWf = true := translateFor_memWf p va acc reg v who _ h

end Sys2Proof.Machine
end

