-- ==== Sys2Proof/Tests/Decoding.lean ====
section
/-! SUPPORT. Tests of decoding. The words are put together from the field tables of the spec (R25, R32 to R38) and the opcode map
(R28), never by the model's encoder; every instruction has one. -/

namespace Sys2Proof.Tests

open Sys2Proof

set_option Elab.async false

/-- Word 0 by R25: the values of the fields at their lowest bits, LEN at [1:0] and the major at [7:2]. -/
def wA (q min b a d maj len : Nat) : W32 :=
  BitVec.ofNat 32 (q * 2 ^ 29 + min * 2 ^ 23 + b * 2 ^ 18 + a * 2 ^ 13 + d * 2 ^ 8 + maj * 4 + len)
def wI (imm min a d maj len : Nat) : W32 := BitVec.ofNat 32 (imm * 2 ^ 21 + min * 2 ^ 18 + a * 2 ^ 13 + d * 2 ^ 8 + maj * 4 + len)
def wB (off hint cond b a maj : Nat) : W32 := BitVec.ofNat 32 (off * 2 ^ 23 + hint * 2 ^ 21 + cond * 2 ^ 18 + b * 2 ^ 13 + a * 2 ^ 8 + maj * 4)
def wJ (off hint maj : Nat) : W32 := BitVec.ofNat 32 (off * 2 ^ 10 + hint * 2 ^ 8 + maj * 4)
def wV (mr mp me min b a d maj : Nat) : W32 :=
  BitVec.ofNat 32 (mr * 2 ^ 30 + mp * 2 ^ 29 + me * 2 ^ 28 + min * 2 ^ 23 + b * 2 ^ 18 + a * 2 ^ 13 + d * 2 ^ 8 + maj * 4)

/-- An extension word: values at their lowest bits. -/
def pack (fs : List (Nat × Nat)) : W32 := BitVec.ofNat 32 ((fs.map fun p => p.2 * 2 ^ p.1).sum)

/-- All of the words decode to their instructions. -/
abbrev Reads (l : List (List W32 × Instr)) : Prop := ∀ p ∈ l, decodeWords p.1 = .ok p.2

/-- None of the words decodes. -/
abbrev Refuses (l : List (List W32)) : Prop := ∀ ws ∈ l, (decodeWords ws).toOption = none

/-- Major 0x01, format A: D, A, B and CMP's condition in Q (R28, R30). -/
theorem test_decode_integer : Reads [
    ([wA 0 0 5 4 3 0x01 0], .add 3#5 4#5 5#5),
    ([wA 0 1 5 4 3 0x01 0], .sub 3#5 4#5 5#5),
    ([wA 0 2 5 4 3 0x01 0], .and 3#5 4#5 5#5),
    ([wA 0 3 5 4 3 0x01 0], .or 3#5 4#5 5#5),
    ([wA 0 4 5 4 3 0x01 0], .xor 3#5 4#5 5#5),
    ([wA 0 5 5 4 3 0x01 0], .shl 3#5 4#5 5#5),
    ([wA 0 6 5 4 3 0x01 0], .shr 3#5 4#5 5#5),
    ([wA 0 7 5 4 3 0x01 0], .sar 3#5 4#5 5#5),
    ([wA 0 8 5 4 3 0x01 0], .mul 3#5 4#5 5#5),
    ([wA 0 9 5 4 3 0x01 0], .mulhS 3#5 4#5 5#5),
    ([wA 0 10 5 4 3 0x01 0], .mulhN 3#5 4#5 5#5),
    ([wA 0 11 5 4 3 0x01 0], .divS 3#5 4#5 5#5),
    ([wA 0 12 5 4 3 0x01 0], .divN 3#5 4#5 5#5),
    ([wA 0 13 5 4 3 0x01 0], .remS 3#5 4#5 5#5),
    ([wA 0 14 5 4 3 0x01 0], .remN 3#5 4#5 5#5),
    ([wA 0 15 5 4 3 0x01 0], .minS 3#5 4#5 5#5),
    ([wA 0 16 5 4 3 0x01 0], .minN 3#5 4#5 5#5),
    ([wA 0 17 5 4 3 0x01 0], .maxS 3#5 4#5 5#5),
    ([wA 0 18 5 4 3 0x01 0], .maxN 3#5 4#5 5#5),
    ([wA 0 19 0 4 3 0x01 0], .clz 3#5 4#5),
    ([wA 0 20 0 4 3 0x01 0], .ctz 3#5 4#5),
    ([wA 0 21 0 4 3 0x01 0], .popc 3#5 4#5),
    ([wA 0 22 5 4 3 0x01 0], .sel 3#5 4#5 5#5),
    ([wA 0 23 0 4 3 0x01 0], .mov 3#5 4#5),
    ([wA 0 24 5 4 3 0x01 0], .cmp .eq 3#5 4#5 5#5),
    ([wA 1 24 5 4 3 0x01 0], .cmp .ne 3#5 4#5 5#5),
    ([wA 2 24 5 4 3 0x01 0], .cmp .ltS 3#5 4#5 5#5),
    ([wA 3 24 5 4 3 0x01 0], .cmp .geS 3#5 4#5 5#5),
    ([wA 4 24 5 4 3 0x01 0], .cmp .ltN 3#5 4#5 5#5),
    ([wA 5 24 5 4 3 0x01 0], .cmp .geN 3#5 4#5 5#5),
    ([wA 6 24 0 4 3 0x01 0], .cmp .z 3#5 4#5 0#5),
    ([wA 7 24 0 4 3 0x01 0], .cmp .nz 3#5 4#5 0#5)] := by decide +kernel

/-- Major 0x01 with LEN 0b10: the literal's low word first, B zero (R23, R27). -/
theorem test_decode_integer_literal : Reads [
    ([wA 0 0 0 4 3 0x01 2, 0xFFFFFFFE#32, 1#32], .addLiteral 3#5 4#5 0x00000001FFFFFFFE#64),
    ([wA 0 1 0 4 3 0x01 2, 0xFFFFFFFE#32, 1#32], .subLiteral 3#5 4#5 0x00000001FFFFFFFE#64),
    ([wA 0 2 0 4 3 0x01 2, 0xFFFFFFFE#32, 1#32], .andLiteral 3#5 4#5 0x00000001FFFFFFFE#64),
    ([wA 0 3 0 4 3 0x01 2, 0xFFFFFFFE#32, 1#32], .orLiteral 3#5 4#5 0x00000001FFFFFFFE#64),
    ([wA 0 4 0 4 3 0x01 2, 0xFFFFFFFE#32, 1#32], .xorLiteral 3#5 4#5 0x00000001FFFFFFFE#64),
    ([wA 0 5 0 4 3 0x01 2, 0xFFFFFFFE#32, 1#32], .shlLiteral 3#5 4#5 0x00000001FFFFFFFE#64),
    ([wA 0 6 0 4 3 0x01 2, 0xFFFFFFFE#32, 1#32], .shrLiteral 3#5 4#5 0x00000001FFFFFFFE#64),
    ([wA 0 7 0 4 3 0x01 2, 0xFFFFFFFE#32, 1#32], .sarLiteral 3#5 4#5 0x00000001FFFFFFFE#64),
    ([wA 0 8 0 4 3 0x01 2, 0xFFFFFFFE#32, 1#32], .mulLiteral 3#5 4#5 0x00000001FFFFFFFE#64),
    ([wA 0 9 0 4 3 0x01 2, 0xFFFFFFFE#32, 1#32], .mulhSLiteral 3#5 4#5 0x00000001FFFFFFFE#64),
    ([wA 0 10 0 4 3 0x01 2, 0xFFFFFFFE#32, 1#32], .mulhNLiteral 3#5 4#5 0x00000001FFFFFFFE#64),
    ([wA 0 11 0 4 3 0x01 2, 0xFFFFFFFE#32, 1#32], .divSLiteral 3#5 4#5 0x00000001FFFFFFFE#64),
    ([wA 0 12 0 4 3 0x01 2, 0xFFFFFFFE#32, 1#32], .divNLiteral 3#5 4#5 0x00000001FFFFFFFE#64),
    ([wA 0 13 0 4 3 0x01 2, 0xFFFFFFFE#32, 1#32], .remSLiteral 3#5 4#5 0x00000001FFFFFFFE#64),
    ([wA 0 14 0 4 3 0x01 2, 0xFFFFFFFE#32, 1#32], .remNLiteral 3#5 4#5 0x00000001FFFFFFFE#64),
    ([wA 0 15 0 4 3 0x01 2, 0xFFFFFFFE#32, 1#32], .minSLiteral 3#5 4#5 0x00000001FFFFFFFE#64),
    ([wA 0 16 0 4 3 0x01 2, 0xFFFFFFFE#32, 1#32], .minNLiteral 3#5 4#5 0x00000001FFFFFFFE#64),
    ([wA 0 17 0 4 3 0x01 2, 0xFFFFFFFE#32, 1#32], .maxSLiteral 3#5 4#5 0x00000001FFFFFFFE#64),
    ([wA 0 18 0 4 3 0x01 2, 0xFFFFFFFE#32, 1#32], .maxNLiteral 3#5 4#5 0x00000001FFFFFFFE#64),
    ([wA 0 22 0 4 3 0x01 2, 0xFFFFFFFE#32, 1#32], .selLiteral 3#5 4#5 0x00000001FFFFFFFE#64),
    ([wA 2 24 0 4 3 0x01 2, 0xFFFFFFFE#32, 1#32], .cmpLiteral .ltS 3#5 4#5 0x00000001FFFFFFFE#64)] := by decide +kernel

/-- Major 0x02, format I: IMM11 in [31:21] (R25). -/
theorem test_decode_immediate : Reads [
    ([wI 2047 0 4 3 0x02 0], .addi 3#5 4#5 0x7FF#11),
    ([wI 0 0 4 3 0x02 2, 0xFFFFFFFE#32, 1#32], .addiLiteral 3#5 4#5 0x00000001FFFFFFFE#64),
    ([wI 2047 1 4 3 0x02 0], .andi 3#5 4#5 0x7FF#11),
    ([wI 0 1 4 3 0x02 2, 0xFFFFFFFE#32, 1#32], .andiLiteral 3#5 4#5 0x00000001FFFFFFFE#64),
    ([wI 2047 2 4 3 0x02 0], .ori 3#5 4#5 0x7FF#11),
    ([wI 0 2 4 3 0x02 2, 0xFFFFFFFE#32, 1#32], .oriLiteral 3#5 4#5 0x00000001FFFFFFFE#64),
    ([wI 2047 3 4 3 0x02 0], .xori 3#5 4#5 0x7FF#11),
    ([wI 0 3 4 3 0x02 2, 0xFFFFFFFE#32, 1#32], .xoriLiteral 3#5 4#5 0x00000001FFFFFFFE#64),
    ([wI 2047 4 4 3 0x02 0], .shli 3#5 4#5 0x7FF#11),
    ([wI 0 4 4 3 0x02 2, 0xFFFFFFFE#32, 1#32], .shliLiteral 3#5 4#5 0x00000001FFFFFFFE#64),
    ([wI 2047 5 4 3 0x02 0], .shri 3#5 4#5 0x7FF#11),
    ([wI 0 5 4 3 0x02 2, 0xFFFFFFFE#32, 1#32], .shriLiteral 3#5 4#5 0x00000001FFFFFFFE#64),
    ([wI 2047 6 4 3 0x02 0], .sari 3#5 4#5 0x7FF#11),
    ([wI 0 6 4 3 0x02 2, 0xFFFFFFFE#32, 1#32], .sariLiteral 3#5 4#5 0x00000001FFFFFFFE#64),
    ([wI 1024 7 0 3 0x02 0], .li 3#5 0x400#11),
    ([wI 0 7 0 3 0x02 2, 0xFFFFFFFE#32, 1#32], .liLiteral 3#5 0x00000001FFFFFFFE#64)] := by decide +kernel

/-- Major 0x03: precision in Q[0], rounding or condition in Q[2:1] (R30), FCVT's selector in B (R228). -/
theorem test_decode_scalar_float : Reads [
    ([wA 5 0 5 4 3 0x03 0], .fadd true .rdn 3#5 4#5 5#5),
    ([wA 2 0 0 4 3 0x03 2, 5#32, 0#32], .faddLiteral false .rz 3#5 4#5 5#64),
    ([wA 5 1 5 4 3 0x03 0], .fsub true .rdn 3#5 4#5 5#5),
    ([wA 2 1 0 4 3 0x03 2, 5#32, 0#32], .fsubLiteral false .rz 3#5 4#5 5#64),
    ([wA 5 2 5 4 3 0x03 0], .fmul true .rdn 3#5 4#5 5#5),
    ([wA 2 2 0 4 3 0x03 2, 5#32, 0#32], .fmulLiteral false .rz 3#5 4#5 5#64),
    ([wA 5 3 5 4 3 0x03 0], .ffma true .rdn 3#5 4#5 5#5),
    ([wA 2 3 0 4 3 0x03 2, 5#32, 0#32], .ffmaLiteral false .rz 3#5 4#5 5#64),
    ([wA 1 4 5 4 3 0x03 0], .fmin true 3#5 4#5 5#5),
    ([wA 0 4 0 4 3 0x03 2, 5#32, 0#32], .fminLiteral false 3#5 4#5 5#64),
    ([wA 1 5 5 4 3 0x03 0], .fmax true 3#5 4#5 5#5),
    ([wA 0 5 0 4 3 0x03 2, 5#32, 0#32], .fmaxLiteral false 3#5 4#5 5#64),
    ([wA 1 6 5 4 3 0x03 0], .fcmp true .eq 3#5 4#5 5#5),
    ([wA 3 6 5 4 3 0x03 0], .fcmp true .lt 3#5 4#5 5#5),
    ([wA 5 6 5 4 3 0x03 0], .fcmp true .le 3#5 4#5 5#5),
    ([wA 7 6 5 4 3 0x03 0], .fcmp true .un 3#5 4#5 5#5),
    ([wA 3 6 0 4 3 0x03 2, 5#32, 7#32], .fcmpLiteral true .lt 3#5 4#5 0x0000000700000005#64),
    ([wA 6 7 0 4 3 0x03 0], .fcvt false .rup .xf 3#5 4#5),
    ([wA 6 7 1 4 3 0x03 0], .fcvt false .rup .sf 3#5 4#5),
    ([wA 6 7 2 4 3 0x03 0], .fcvt false .rup .nf 3#5 4#5),
    ([wA 6 7 3 4 3 0x03 0], .fcvt false .rup .fs 3#5 4#5),
    ([wA 6 7 4 4 3 0x03 0], .fcvt false .rup .fn 3#5 4#5),
    ([wA 1 8 0 4 3 0x03 0], .fabs true 3#5 4#5),
    ([wA 0 9 0 4 3 0x03 0], .fneg false 3#5 4#5)] := by decide +kernel

/-- Major 0x04 (R28). -/
theorem test_decode_capability : Reads [
    ([wA 0 0 5 4 3 0x04 0], .csetb 3#5 4#5 5#5),
    ([wA 0 1 5 4 3 0x04 0], .csetp 3#5 4#5 5#5),
    ([wA 0 2 5 4 3 0x04 0], .cinc 3#5 4#5 5#5),
    ([wA 0 3 0 4 3 0x04 0], .cgetb 3#5 4#5),
    ([wA 0 4 0 4 3 0x04 0], .cgetl 3#5 4#5),
    ([wA 0 5 0 4 3 0x04 0], .cgetp 3#5 4#5),
    ([wA 0 6 0 4 3 0x04 0], .cclr 3#5 4#5),
    ([wA 0 7 5 4 3 0x04 0], .ctest 3#5 4#5 5#5)] := by decide +kernel

/-- Majors 0x05 to 0x09: OFF9 in [31:23] or OFF22 in [31:10], the hint (R31), RET, JR and CALLR. -/
theorem test_decode_branches : Reads [
    ([wB 511 0 0 5 4 0x05], .beq .none 0x1FF#9 4#5 5#5),
    ([wB 511 1 1 5 4 0x05], .bne .t 0x1FF#9 4#5 5#5),
    ([wB 511 2 2 5 4 0x05], .bltS .n 0x1FF#9 4#5 5#5),
    ([wB 511 0 3 5 4 0x05], .bgeS .none 0x1FF#9 4#5 5#5),
    ([wB 511 1 4 5 4 0x05], .bltN .t 0x1FF#9 4#5 5#5),
    ([wB 511 2 5 5 4 0x05], .bgeN .n 0x1FF#9 4#5 5#5),
    ([wB 256 1 6 0 4 0x05], .bz .t 0x100#9 4#5),
    ([wB 255 2 7 0 4 0x05], .bnz .n 0x0FF#9 4#5),
    ([wJ 0x3FFFFF 0 0x06], .b false 0x3FFFFF#22),
    ([wJ 0x200000 1 0x07], .call true 0x200000#22),
    ([wA 0 0 0 0 0 0x08 0], .ret),
    ([wA 0 1 0 4 0 0x08 0], .jr 4#5),
    ([wA 0 2 0 4 0 0x08 0], .callr 4#5),
    ([wB 510 1 0 0 4 0x09], .loop .t 0x1FE#9 4#5)] := by decide +kernel

/-- Major 0x10, format I. -/
theorem test_decode_loads : Reads [
    ([wI 2040 0 4 3 0x10 0], .ld8N 3#5 4#5 0x7F8#11),
    ([wI 0 0 4 3 0x10 2, 0xFFFFFFFE#32, 1#32], .ld8NLiteral 3#5 4#5 0x00000001FFFFFFFE#64),
    ([wI 2040 1 4 3 0x10 0], .ld8S 3#5 4#5 0x7F8#11),
    ([wI 0 1 4 3 0x10 2, 0xFFFFFFFE#32, 1#32], .ld8SLiteral 3#5 4#5 0x00000001FFFFFFFE#64),
    ([wI 2040 2 4 3 0x10 0], .ld16N 3#5 4#5 0x7F8#11),
    ([wI 0 2 4 3 0x10 2, 0xFFFFFFFE#32, 1#32], .ld16NLiteral 3#5 4#5 0x00000001FFFFFFFE#64),
    ([wI 2040 3 4 3 0x10 0], .ld16S 3#5 4#5 0x7F8#11),
    ([wI 0 3 4 3 0x10 2, 0xFFFFFFFE#32, 1#32], .ld16SLiteral 3#5 4#5 0x00000001FFFFFFFE#64),
    ([wI 2040 4 4 3 0x10 0], .ld32N 3#5 4#5 0x7F8#11),
    ([wI 0 4 4 3 0x10 2, 0xFFFFFFFE#32, 1#32], .ld32NLiteral 3#5 4#5 0x00000001FFFFFFFE#64),
    ([wI 2040 5 4 3 0x10 0], .ld32S 3#5 4#5 0x7F8#11),
    ([wI 0 5 4 3 0x10 2, 0xFFFFFFFE#32, 1#32], .ld32SLiteral 3#5 4#5 0x00000001FFFFFFFE#64),
    ([wI 2040 6 4 3 0x10 0], .ld64 3#5 4#5 0x7F8#11),
    ([wI 0 6 4 3 0x10 2, 0xFFFFFFFE#32, 1#32], .ld64Literal 3#5 4#5 0x00000001FFFFFFFE#64),
    ([wI 2040 7 4 3 0x10 0], .ldc 3#5 4#5 0x7F8#11),
    ([wI 0 7 4 3 0x10 2, 0xFFFFFFFE#32, 1#32], .ldcLiteral 3#5 4#5 0x00000001FFFFFFFE#64)] := by decide +kernel

/-- Major 0x11, format I. -/
theorem test_decode_stores : Reads [
    ([wI 2040 0 4 3 0x11 0], .st8 3#5 4#5 0x7F8#11),
    ([wI 0 0 4 3 0x11 2, 0xFFFFFFFE#32, 1#32], .st8Literal 3#5 4#5 0x00000001FFFFFFFE#64),
    ([wI 2040 1 4 3 0x11 0], .st16 3#5 4#5 0x7F8#11),
    ([wI 0 1 4 3 0x11 2, 0xFFFFFFFE#32, 1#32], .st16Literal 3#5 4#5 0x00000001FFFFFFFE#64),
    ([wI 2040 2 4 3 0x11 0], .st32 3#5 4#5 0x7F8#11),
    ([wI 0 2 4 3 0x11 2, 0xFFFFFFFE#32, 1#32], .st32Literal 3#5 4#5 0x00000001FFFFFFFE#64),
    ([wI 2040 3 4 3 0x11 0], .st64 3#5 4#5 0x7F8#11),
    ([wI 0 3 4 3 0x11 2, 0xFFFFFFFE#32, 1#32], .st64Literal 3#5 4#5 0x00000001FFFFFFFE#64),
    ([wI 2040 4 4 3 0x11 0], .stc 3#5 4#5 0x7F8#11),
    ([wI 0 4 4 3 0x11 2, 0xFFFFFFFE#32, 1#32], .stcLiteral 3#5 4#5 0x00000001FFFFFFFE#64)] := by decide +kernel

/-- Major 0x12 and its words 1 and 2 (R32). -/
theorem test_decode_vector_memory : Reads [
    ([wA 0 0 0 4 3 0x12 1, pack [(0, 0xFFFFFFF0)], pack [(0, 1), (16, 1), (17, 1), (18, 2)]], .ldv 3#5 4#5 0xFFFFFFF0#32 1#8 (some ⟨true, 2#2⟩)),
    ([wA 0 1 0 4 3 0x12 1, pack [(0, 0xFFFFFFF0)], pack []], .stv 3#5 4#5 0xFFFFFFF0#32 none),
    ([wA 0 2 5 4 3 0x12 1, pack [(0, 0xFFFFFFF0)], pack [(0, 1), (8, 2)]], .ldvs 3#5 4#5 5#5 0xFFFFFFF0#32 1#8 .e32 none),
    ([wA 0 3 5 4 3 0x12 1, pack [(0, 0xFFFFFFF0)], pack [(8, 1), (16, 1), (18, 3)]], .stvs 3#5 4#5 5#5 0xFFFFFFF0#32 .e16 (some ⟨false, 3#2⟩)),
    ([wA 0 4 0 4 3 0x12 1, pack [(0, 0xFFFFFFF0)], pack [(0, 2), (8, 3), (11, 9)]], .ldvg 3#5 4#5 9#5 0xFFFFFFF0#32 2#8 .e64 none),
    ([wA 0 5 0 4 3 0x12 1, pack [(0, 0xFFFFFFF0)], pack [(8, 0), (11, 9)]], .stvg 3#5 4#5 9#5 0xFFFFFFF0#32 .e8 none)] := by decide +kernel

/-- Majors 0x13 and 0x14: ordering in Q[1:0], width in Q[2] (R30). -/
theorem test_decode_sync : Reads [
    ([wA 0 0 0 4 0 0x13 0], .rel 4#5),
    ([wA 0 1 5 4 0 0x13 0], .acq 4#5 5#5),
    ([wA 0 2 0 0 0 0x13 0], .acqa),
    ([wA 0 3 0 4 0 0x13 0], .phase 4#5),
    ([wA 0 4 5 4 0 0x13 0], .pref 4#5 5#5),
    ([wA 0 5 0 4 3 0x13 0], .trailq 3#5 4#3),
    ([wA 0 0 5 4 3 0x14 0], .atomAdd .plain false 3#5 4#5 5#5),
    ([wA 1 1 5 4 3 0x14 0], .atomAnd .acq false 3#5 4#5 5#5),
    ([wA 2 2 5 4 3 0x14 0], .atomOr .rel false 3#5 4#5 5#5),
    ([wA 3 3 5 4 3 0x14 0], .atomXor .ar false 3#5 4#5 5#5),
    ([wA 4 4 5 4 3 0x14 0], .atomMinS .plain true 3#5 4#5 5#5),
    ([wA 5 5 5 4 3 0x14 0], .atomMinN .acq true 3#5 4#5 5#5),
    ([wA 6 6 5 4 3 0x14 0], .atomMaxS .rel true 3#5 4#5 5#5),
    ([wA 7 7 5 4 3 0x14 0], .atomMaxN .ar true 3#5 4#5 5#5),
    ([wA 0 8 5 4 3 0x14 0], .atomSwap .plain false 3#5 4#5 5#5),
    ([wA 1 9 5 4 3 0x14 0], .cas .acq false 3#5 4#5 5#5),
    ([wA 3 10 8 4 6 0x14 0], .cas2 .ar 6#5 4#5 8#5),
    ([wA 4 11 5 4 3 0x14 0], .atomfAdd .plain true 3#5 4#5 5#5)] := by decide +kernel

/-- Majors 0x18 and 0x1A with HALLOC's, HATOM's, HCAS's and HCASX's words (R33, R34). -/
theorem test_decode_handles : Reads [
    ([wA 0 0 0 0 3 0x18 1, pack [(0, 8), (16, 32)], pack [(0, 1), (8, 2), (10, 1)]], .halloc 3#5 8#16 32#16 1#8 .cluster true false),
    ([wA 0 0 0 0 3 0x18 1, pack [(0, 1), (16, 1)], pack [(0, 2), (8, 1), (11, 1)]], .halloc 3#5 1#16 1#16 2#8 .twin false true),
    ([wA 0 1 0 4 0 0x18 0], .hfree 4#5),
    ([wA 0 2 1 4 0 0x18 0], .hretain 4#5 true),
    ([wA 0 3 6 4 3 0x18 0], .hquery 3#5 4#5 6#3),
    ([wA 0 4 0 4 0 0x18 0], .hexport 4#5),
    ([wA 0 5 0 4 0 0x18 0], .hunexport 4#5),
    ([wA 0 6 0 4 0 0x18 0], .hzero 4#5),
    ([wA 0 7 0 4 0 0x18 0], .hwait 4#5),
    ([wA 0 0 5 4 3 0x1A 0], .ldh32 3#5 4#5 5#5),
    ([wA 0 1 5 4 3 0x1A 0], .ldh64 3#5 4#5 5#5),
    ([wA 0 2 5 4 3 0x1A 0], .sth32 3#5 4#5 5#5),
    ([wA 0 3 5 4 3 0x1A 0], .sth64 3#5 4#5 5#5),
    ([wA 0 4 5 4 3 0x1A 0], .ldhv 3#5 4#5 5#5),
    ([wA 0 5 5 4 3 0x1A 0], .sthv 3#5 4#5 5#5),
    ([wA 5 6 5 4 3 0x1A 1, pack [], pack [(5, 0)]], .hatom .acq true .add 3#5 4#5 5#5),
    ([wA 5 6 5 4 3 0x1A 1, pack [], pack [(5, 1)]], .hatom .acq true .and 3#5 4#5 5#5),
    ([wA 5 6 5 4 3 0x1A 1, pack [], pack [(5, 2)]], .hatom .acq true .or 3#5 4#5 5#5),
    ([wA 5 6 5 4 3 0x1A 1, pack [], pack [(5, 3)]], .hatom .acq true .xor 3#5 4#5 5#5),
    ([wA 5 6 5 4 3 0x1A 1, pack [], pack [(5, 4)]], .hatom .acq true .minS 3#5 4#5 5#5),
    ([wA 5 6 5 4 3 0x1A 1, pack [], pack [(5, 5)]], .hatom .acq true .minN 3#5 4#5 5#5),
    ([wA 5 6 5 4 3 0x1A 1, pack [], pack [(5, 6)]], .hatom .acq true .maxS 3#5 4#5 5#5),
    ([wA 5 6 5 4 3 0x1A 1, pack [], pack [(5, 7)]], .hatom .acq true .maxN 3#5 4#5 5#5),
    ([wA 5 6 5 4 3 0x1A 1, pack [], pack [(5, 8)]], .hatom .acq true .swap 3#5 4#5 5#5),
    ([wA 2 7 5 4 3 0x1A 1, pack [], pack [(0, 6)]], .hcas .rel false 3#5 4#5 5#5 6#5),
    ([wA 0 8 5 4 3 0x1A 1, pack [(0, 7)], pack [(0, 6)]], .hcasx .plain false 3#5 4#5 5#5 6#5 7#5)] := by decide +kernel

/-- Majors 0x1C and 0x1D: queue and direction in Q, barrier, semaphore and event in word 1 (R35). -/
theorem test_decode_copies : Reads [
    ([wA 6 0 5 4 3 0x1C 1, pack [(0, 33), (6, 1), (7, 9), (11, 1), (12, 5), (16, 1)], pack []],
      .cpy ⟨2#2, 33#6, true, 9#4, true, 5#4, true⟩ true 3#5 4#5 5#5),
    ([wA 2 1 5 4 3 0x1C 1, pack [(0, 33), (6, 1), (7, 9), (11, 1), (12, 5), (16, 1)], pack [(0, 3), (16, 128)]],
      .cpys ⟨2#2, 33#6, true, 9#4, true, 5#4, true⟩ false 3#5 4#5 5#5 3#16 128#16),
    ([wA 2 2 5 4 3 0x1C 1, pack [], pack [(0, 1), (4, 2), (8, 3)]], .cpyv ⟨2#2, 0#6, false, 0#4, false, 0#4, false⟩ false 3#5 4#5 5#5 1#4 2#4 3#4),
    ([wA 2 3 5 4 3 0x1C 1, pack [], pack [(0, 7), (16, 8)]], .cpyg ⟨2#2, 0#6, false, 0#4, false, 0#4, false⟩ 3#5 4#5 5#5 7#16 8#16),
    ([wA 2 4 0 4 3 0x1C 1, pack [], pack [(0, 16)]], .cpym ⟨2#2, 0#6, false, 0#4, false, 0#4, false⟩ 3#5 4#5 16#5),
    ([wA 2 5 5 4 3 0x1C 1, pack [], pack []], .cshd ⟨2#2, 0#6, false, 0#4, false, 0#4, false⟩ 3#5 4#5 5#5),
    ([wA 2 6 0 4 0 0x1C 1, pack [], pack []], .cpub ⟨2#2, 0#6, false, 0#4, false, 0#4, false⟩ 4#5),
    ([wA 2 7 5 4 3 0x1C 1, pack [], pack [(0, 2)]], .cred ⟨2#2, 0#6, false, 0#4, false, 0#4, false⟩ .max 3#5 4#5 5#5),
    ([wA 2 8 5 0 0 0x1C 1, pack [(0, 33), (6, 1), (7, 9), (11, 1), (12, 5), (16, 1)], pack []], .barx ⟨2#2, 33#6, true, 9#4, true, 5#4, true⟩ 5#5),
    ([wA 0 0 0 9 0 0x1D 0], .cwait 9#4),
    ([wA 0 1 0 2 3 0x1D 0], .cstat 3#5 2#2),
    ([wA 0 2 0 15 0 0x1D 0], .ccancel 15#4)] := by decide +kernel

/-- Format V with three operands: MIN in [27:23], ME, MP and MR (R25, R28). -/
theorem test_decode_vector : Reads [
    ([wV 1 1 1 0 5 4 3 0x20], .vadd (some ⟨true, 1#2⟩) 3#5 4#5 5#5),
    ([wV 2 0 1 1 5 4 3 0x20], .vsub (some ⟨false, 2#2⟩) 3#5 4#5 5#5),
    ([wV 0 0 0 2 5 4 3 0x20], .vmul none 3#5 4#5 5#5),
    ([wV 0 0 1 3 5 4 3 0x20], .vfma (some ⟨false, 0#2⟩) 3#5 4#5 5#5),
    ([wV 1 1 1 4 5 4 3 0x20], .vfms (some ⟨true, 1#2⟩) 3#5 4#5 5#5),
    ([wV 0 0 0 5 5 4 3 0x20], .vmin none 3#5 4#5 5#5),
    ([wV 3 1 1 6 5 4 3 0x20], .vmax (some ⟨true, 3#2⟩) 3#5 4#5 5#5),
    ([wV 0 0 1 7 5 4 3 0x20], .vdiv (some ⟨false, 0#2⟩) 3#5 4#5 5#5),
    ([wV 0 0 0 0 5 4 3 0x21], .vand none 3#5 4#5 5#5),
    ([wV 2 0 1 1 5 4 3 0x21], .vor (some ⟨false, 2#2⟩) 3#5 4#5 5#5),
    ([wV 3 1 1 2 5 4 3 0x21], .vxor (some ⟨true, 3#2⟩) 3#5 4#5 5#5),
    ([wV 0 0 0 4 5 4 3 0x21], .vshl none 3#5 4#5 5#5),
    ([wV 1 1 1 5 5 4 3 0x21], .vshr (some ⟨true, 1#2⟩) 3#5 4#5 5#5),
    ([wV 2 0 1 6 5 4 3 0x21], .vsar (some ⟨false, 2#2⟩) 3#5 4#5 5#5),
    ([wV 0 0 0 0 5 4 3 0x22], .vcmpeq none 3#5 4#5 5#5),
    ([wV 0 0 1 1 5 4 3 0x22], .vcmpne (some ⟨false, 0#2⟩) 3#5 4#5 5#5),
    ([wV 1 1 1 2 5 4 3 0x22], .vcmplt (some ⟨true, 1#2⟩) 3#5 4#5 5#5),
    ([wV 0 0 0 3 5 4 3 0x22], .vcmple none 3#5 4#5 5#5),
    ([wV 3 1 1 4 5 4 3 0x22], .vcmpun (some ⟨true, 3#2⟩) 3#5 4#5 5#5),
    ([wV 0 0 1 6 5 4 3 0x22], .vmerge (some ⟨false, 0#2⟩) 3#5 4#5 5#5),
    ([wV 0 0 0 10 5 4 3 0x22], .vmaskand none 3#5 4#5 5#5),
    ([wV 2 0 1 11 5 4 3 0x22], .vmaskor (some ⟨false, 2#2⟩) 3#5 4#5 5#5),
    ([wV 3 1 1 0 5 4 3 0x23], .vshuf (some ⟨true, 3#2⟩) 3#5 4#5 5#5),
    ([wV 0 0 0 1 5 4 3 0x23], .vrot none 3#5 4#5 5#5),
    ([wV 1 1 1 10 5 4 3 0x23], .vslide (some ⟨true, 1#2⟩) 3#5 4#5 5#5),
    ([wV 2 0 1 6 5 4 3 0x24], .vdot (some ⟨false, 2#2⟩) 3#5 4#5 5#5)] := by decide +kernel

/-- Format V with two operands, and the masked selections, reductions and element moves. -/
theorem test_decode_vector_unary : Reads [
    ([wV 2 1 1 8 0 4 3 0x20], .vsqrt (some ⟨true, 2#2⟩) 3#5 4#5),
    ([wV 2 1 1 9 0 4 3 0x20], .vrcp (some ⟨true, 2#2⟩) 3#5 4#5),
    ([wV 2 1 1 10 0 4 3 0x20], .vrsq (some ⟨true, 2#2⟩) 3#5 4#5),
    ([wV 2 1 1 11 0 4 3 0x20], .vexp2 (some ⟨true, 2#2⟩) 3#5 4#5),
    ([wV 2 1 1 12 0 4 3 0x20], .vlog2 (some ⟨true, 2#2⟩) 3#5 4#5),
    ([wV 2 1 1 13 0 4 3 0x20], .vabs (some ⟨true, 2#2⟩) 3#5 4#5),
    ([wV 2 1 1 14 0 4 3 0x20], .vneg (some ⟨true, 2#2⟩) 3#5 4#5),
    ([wV 2 1 1 3 0 4 3 0x21], .vnot (some ⟨true, 2#2⟩) 3#5 4#5),
    ([wV 2 1 1 7 0 4 3 0x21], .vpopc (some ⟨true, 2#2⟩) 3#5 4#5),
    ([wV 2 1 1 8 0 4 3 0x21], .vclz (some ⟨true, 2#2⟩) 3#5 4#5),
    ([wV 2 1 1 12 0 4 3 0x22], .vmasknot (some ⟨true, 2#2⟩) 3#5 4#5),
    ([wV 2 1 1 2 0 4 3 0x23], .vbcast (some ⟨true, 2#2⟩) 3#5 4#5),
    ([wV 2 1 1 8 0 4 3 0x23], .vscan (some ⟨true, 2#2⟩) 3#5 4#5),
    ([wV 2 1 1 9 0 4 3 0x23], .vmov (some ⟨true, 2#2⟩) 3#5 4#5),
    ([wV 2 0 1 5 5 4 3 0x22], .vsel 2#2 3#5 4#5 5#5),
    ([wV 2 0 1 7 0 4 3 0x22], .vpopm (some 2#2) 3#5 4#5),
    ([wV 0 0 0 8 0 4 3 0x22], .vfirst none 3#5 4#5),
    ([wV 0 0 0 9 3 4 3 0x22], .viota none 3#5 4#5 3#2),
    ([wV 0 0 0 3 5 4 3 0x23], .vext 3#5 4#5 5#5),
    ([wV 0 0 0 4 5 4 3 0x23], .vins 3#5 4#5 5#5),
    ([wV 1 0 1 5 5 4 3 0x23], .vredadd (some 1#2) 3#5 4#5 5#5),
    ([wV 0 0 0 6 5 4 3 0x23], .vredmin none 3#5 4#5 5#5),
    ([wV 0 0 0 7 5 4 3 0x23], .vredmax none 3#5 4#5 5#5),
    ([wV 0 0 0 5 0 4 3 0x24], .vtagq 3#5 4#5)] := by decide +kernel

/-- The X minors of major 0x24 (R36). -/
theorem test_decode_conversions : Reads [
    ([wA 0 0 0 4 3 0x24 1, pack [(0, 4), (8, 4), (11, 1), (12, 1), (13, 1), (14, 3)], pack []], .vcvt 4#8 .sr true (some ⟨true, 3#2⟩) 3#5 4#5),
    ([wA 0 1 5 4 3 0x24 1, pack [(0, 3), (8, 2)], pack []], .vpack 3#8 .rdn false none 3#5 4#5 5#5),
    ([wA 0 2 0 3 4 0x24 1, pack [(0, 1), (8, 3)], pack []], .vunpk 1#8 .rup false none 4#5 3#5),
    ([wA 0 3 0 4 3 0x24 1, pack [(0, 0x10), (12, 1)], pack []], .vsat 0x10#8 (some ⟨false, 0#2⟩) 3#5 4#5),
    ([wA 0 4 0 4 3 0x24 1, pack [(0, 0x40)], pack []], .vtag 0x40#8 3#5 4#5)] := by decide +kernel

/-- Majors 0x2C to 0x2E: the words of a matrix command and MMAS's literal (R37). -/
theorem test_decode_matrix : Reads [
    ([wA 3 0 3 2 1 0x2C 1, pack [(0, 32), (6, 5), (12, 4), (18, 63)], pack [(0, 3), (4, 1), (5, 9), (9, 1), (10, 6), (15, 7), (20, 1)]],
      .mma ⟨⟨5#6, 4#6, 63#6, 3#4, true, 9#4, true⟩, 1#2, 2#5, 3#5, some 6#5, some 7#5, 32#6, true⟩),
    ([wA 0 1 3 2 1 0x2C 3, pack [(0, 2), (6, 5), (12, 4), (18, 63)], pack [(0, 3), (4, 1), (5, 9), (9, 1)], pack [(0, 8), (5, 9), (10, 10), (15,
      11), (20, 2)], 0#32], .mmas ⟨⟨5#6, 4#6, 63#6, 3#4, true, 9#4, true⟩, 1#2, 2#5, 3#5, none, none, 2#6, false⟩ ⟨8#5, 9#5, 10#5, 11#5, .b32⟩),
    ([wA 0 2 0 4 1 0x2C 1, pack [(0, 0), (6, 5), (12, 4), (18, 63)], pack [(0, 3), (4, 1), (5, 9), (9, 1)]],
      .mlda ⟨5#6, 4#6, 63#6, 3#4, true, 9#4, true⟩ 1#2 4#5),
    ([wA 0 3 0 1 4 0x2C 1, pack [(0, 0), (6, 5), (12, 4), (18, 63)], pack [(0, 3), (4, 1), (5, 9), (9, 1)]],
      .msta ⟨5#6, 4#6, 63#6, 3#4, true, 9#4, true⟩ 4#5 1#2),
    ([wA 0 4 0 0 1 0x2C 1, pack [(0, 0), (6, 5), (12, 4), (18, 63)], pack [(0, 3), (4, 1), (5, 9), (9, 1)]],
      .mzero ⟨5#6, 4#6, 63#6, 3#4, true, 9#4, true⟩ 1#2),
    ([wA 0 5 0 4 3 0x2C 1, pack [(0, 0), (6, 5), (12, 4), (18, 63)], pack [(0, 3), (4, 1), (5, 9), (9, 1)]],
      .mtrn ⟨5#6, 4#6, 63#6, 3#4, true, 9#4, true⟩ 3#5 4#5),
    ([wA 0 6 0 1 4 0x2C 1, pack [(0, 0), (6, 5), (12, 4), (18, 63)], pack [(0, 3), (4, 1), (5, 9), (9, 1), (21, 2), (24, 1)]],
      .mcvt ⟨5#6, 4#6, 63#6, 3#4, true, 9#4, true⟩ .rdn true 4#5 1#2),
    ([wA 0 0 1 30 0 0x2D 0], .mwait 62#6),
    ([wA 0 1 0 3 0 0x2D 0], .mcons 3#6),
    ([wA 0 2 2 1 0 0x2D 0], .mspill 1#2 2#2),
    ([wA 0 3 2 1 0 0x2D 0], .mfill 1#2 2#2),
    ([wA 0 4 0 0 0 0x2D 0], .licreq),
    ([wA 0 5 0 0 0 0x2D 0], .licrel),
    ([wA 0 6 0 0 3 0x2D 0], .licq 3#5),
    ([wA 0 7 0 2 3 0x2D 0], .accq 3#5 2#2),
    ([wA 0 0 0 4 7 0x2E 0], .fmtset 7#3 4#5),
    ([wA 0 1 0 6 3 0x2E 0], .fmtget 3#5 6#3)] := by decide +kernel

/-- Majors 0x34 and 0x35 (R38). -/
theorem test_decode_tasks : Reads [
    ([wA 2 0 5 4 0 0x34 1, pack [(0, 200), (8, 4)], pack []], .send true 4#5 5#5 200#8 4#3),
    ([wA 0 1 5 4 0 0x34 1, pack [(0, 200), (8, 1)], pack [(0, 9)]], .sendh false 4#5 5#5 200#8 1#3 9#5),
    ([wA 0 2 0 4 0 0x34 1, pack [(0, 200), (8, 32)], pack []], .spawn 4#5 0#5 200#8 32#6),
    ([wA 0 3 5 4 0 0x34 1, pack [(0, 0xFFFFFFF0)], pack [(0, 6)]], .fork 4#5 5#5 0xFFFFFFF0#32 6#3),
    ([wA 0 4 5 4 0 0x34 0], .join 4#5 5#5),
    ([wA 0 5 26 4 0 0x34 1, pack [(0, 200)], pack []], .launch 4#5 26#5 200#8),
    ([wA 0 6 0 0 0 0x34 0], .halt),
    ([wA 0 7 0 0 0 0x34 0], .yield),
    ([wA 0 0 5 4 3 0x35 0], .sethdl 3#5 4#5 5#5),
    ([wA 0 1 5 0 3 0x35 0], .gethdl 3#5 5#5),
    ([wA 0 2 0 0 3 0x35 0], .myid 3#5),
    ([wA 0 3 0 6 3 0x35 0], .gridq 3#5 6#3),
    ([wA 0 4 0 4 0 0x35 0], .ganghint 4#5)] := by decide +kernel

/-- Majors 0x38 to 0x3A: a barrier's bit 5 in Q[0], numbers split over two fields. -/
theorem test_decode_system : Reads [
    ([wA 1 0 0 4 3 0x38 0], .barinit 35#6 4#5),
    ([wA 0 1 0 4 3 0x38 0], .bararr 3#6 4#5),
    ([wA 1 2 0 0 31 0x38 0], .barwait 63#6),
    ([wA 0 3 0 15 0 0x38 0], .semup 15#4),
    ([wA 0 4 0 9 0 0x38 0], .semdn 9#4),
    ([wA 0 5 0 9 3 0x38 0], .semtry 3#5 9#4),
    ([wA 0 6 0 7 3 0x38 0], .qstat 3#5 7#3),
    ([wA 0 0 0 4 7 0x39 0], .evcfg 7#3 4#5),
    ([wA 0 1 0 15 0 0x39 0], .evpulse 15#4),
    ([wA 0 2 0 15 3 0x39 0], .evread 3#5 15#4),
    ([wA 0 0 5 4 3 0x3A 0], .srd 3#5 164#10),
    ([wA 0 1 5 4 3 0x3A 0], .swr 163#10 4#5),
    ([wA 0 2 0 0 3 0x3A 0], .tstamp 3#5),
    ([wA 0 3 0 0 3 0x3A 0], .cstamp 3#5),
    ([wA 0 4 5 4 0 0x3A 0], .trap 164#10),
    ([wA 0 5 0 0 0 0x3A 0], .rft),
    ([wA 0 6 31 31 0 0x3A 0], .brk 1023#10),
    ([wA 0 7 0 0 0 0x3A 0], .sigchk),
    ([wA 0 8 0 0 0 0x3A 0], .nop)] := by decide +kernel

/-- Words that are no instruction (R26 to R31, R33, R34, R36 to R39): reserved majors and minors, a LEN not accepted, reserved
fields, hints, masks and values outside their tables. -/
theorem test_decode_refuses : Refuses [
    [0#32],
    [0x000000FC#32],
    [wA 0 0 5 4 3 0x0A 0],
    [wA 0 25 5 4 3 0x01 0],
    [wA 1 0 5 4 3 0x01 0],
    [wA 0 0 5 4 3 0x01 1],
    [wA 0 0 5 4 3 0x01 2, 0#32, 0#32],
    [wA 0 0 0 4 3 0x03 2, 0#32, 1#32],
    [wA 0 4 5 4 3 0x24 0],
    [wA 1 0 0 4 3 0x04 0, 0#32],
    [wB 0 3 0 5 4 0x05],
    [wJ 0 2 0x06],
    [wB 0 0 1 0 4 0x09],
    [wV 0 1 0 0 5 4 3 0x20],
    [wV 2 0 0 0 5 4 3 0x20],
    [wV 0 0 0 5 5 4 3 0x22],
    [wA 1 0 5 4 0 0x34 1, 0#32, 0#32],
    [wA 0 0 5 4 4 0x2C 1, pack [(0, 1)], 0#32],
    [wA 0 1 3 2 1 0x2C 1, pack [(0, 1)], 0#32],
    [wA 0 1 3 2 1 0x2C 3, pack [(0, 1)], 0#32, pack [(20, 3)], 0#32],
    [wI 1 0 4 3 0x02 2, 0#32, 0#32],
    [wA 0 0 0 0 3 0x18 1, pack [(0, 1), (16, 1)], pack [(0, 1), (8, 3)]],
    [wA 0 6 5 4 3 0x1A 1, 0#32, pack [(5, 9)]],
    [wA 0 0 0 4 3 0x24 1, pack [(0, 1), (8, 5)], 0#32],
    [wA 4 0 5 4 3 0x38 0]] := by decide +kernel

end Sys2Proof.Tests
end

