-- ==== Sys2Proof/Tests/Kit.lean ====
section
/-! SUPPORT. Small states for the tests and for the witnesses of the statements' hypotheses. -/

namespace Sys2Proof.Tests

open Sys2Proof Sys2Proof.Machine

/-- The compute core of tile 0 at an instruction of an activation of region 1 whose handler carries no signature table. -/
def core0 : State := { State.reset.placeInstr 32 0 with agenda := [], focus := ⟨0, true⟩ }

/-- The context of core 0. -/
def x0 : Nat := ctxKey 1 0
/-- The keys of its two cores. -/
def kc : Nat := coreKey x0 true
def ks : Nat := coreKey x0 false

/-- A state with the issuing core changed. -/
def withMy (s : State) (f : Core → Core) : State := s.modMy f

/-- A state with register r of the activation set. -/
def withC (s : State) (r : Nat) (v : CReg) : State := s.modMy fun c => { c with c := tput {} r v c.c }
def withX (s : State) (r x : Nat) : State := withC s r (dataReg (BitVec.ofNat 64 x))

/-- Core 0 in monitor mode, over its context. -/
def mon0 : State := core0.modMcore ⟨0, true⟩ fun m => { m with mode := true, trapCtx := some x0 }

/-- Core 0 with v4 and v5 of FP32 zeros and v1 a mask. -/
def vec0 : State := core0.modCtx x0 fun c =>
  { c with v := [(1, { bits := 5#1024, tag := 0x40#8 }), (4, { bits := 0#1024, tag := 0x01#8 }), (5, { bits := 0#1024, tag := 0x01#8 })] }

/-- A capability of 4 KiB of device memory with every permission. -/
def capAt : CReg := mkCap (2 ^ 55 + 0x10000) (2 ^ 55 + 0x10000) 64 6 15

/-- Core 0 with a capability of 4 KiB in c4. -/
def cap0 : State := withC core0 4 capAt

/-- Region 1 with a handler table in mapped memory. -/
def tabled : State := core0.modRegion 1 fun g => { g with blk := { g.blk with htab := 2 ^ 55 + 0x8000 } }

/-- The last doubleword of that capability lies in the own trail. -/
def stored0 : State := withMy cap0 fun c => { c with trail := trailAddAll [] (granuleWrites (2 ^ 55 + 0x10FF8) 8 5 false) }

/-- A handle of 8 × 32 FP32 elements, and core 0 with it as h1, with an entry of the scoreboard over it, and with it exported. -/
def h1 : Handle := { st := 1, rows := 8, cols := 32, tag := 1#8, level := .cluster, ebits := 32, granules := [0] }

def handled : State := core0.modHandle x0 1 fun _ => h1

def exported : State := core0.modHandle x0 1 fun _ => { h1 with st := 2 }

def covered : State := handled.modTile 0 fun t =>
  { t with board := [(0, some { ctx := x0, h := 1, lo := 0, hi := 1024, writes := true, kind := 1 })] }

/-- A publication with one share, at tick 20,000. -/
def pubOf (st : ShareSt) (tick : Nat) : Pub :=
  { part := 0, region := 1, core := kc, stamp := mkStamp tick 0, ckpt := none, after := .again
    shares := [(0, some { st := st, writes := [{ g := (2 ^ 55 + 0x10000) / 16, mask := 1#16, data := 5#128, tag := false }], pages := [] })] }
def publishing (p : Pub) : State :=
  let s := core0.modCore kc fun c => { c with stall := .release 0 }
  { s with pubs := [(0, some p)], tick := 20000 }

/-- A read, a gathering of bytes and an outcome of the spec's own steps that gave their value. -/
def readOk : ReadEnd → Bool
  | .ok _ => true
  | _ => false
def gatherOk : Gathered → Bool
  | .ok _ _ => true
  | _ => false

/-- The machine as an instruction's effect finds it, where the handler is unchecked. -/
def begun (s : State) : State :=
  if s.monitor then s
  else match s.my.act with
    | some a => match sigReach s a (codeOffset a s.my.pc) [] with
      | .ok g => s.modMy fun c => { c with sig := g }
      | .error _ => s
    | none => s

/-- Starts, decided, for handlers without a signature table. -/
def startsB (i : Instr) (s : State) : Bool :=
  let d := s.declared i
  !d.illegal && (s.monitor || s.my.act.any fun a => a.sigCount == 0) && (if s.monitor then d.mon || d.monOnly else !d.monOnly) &&
    (!d.computeOnly || s.focus.compute) && (s.regRange d).isNone && (s.monitor || !s.hazard d) && s.my.killLater.isNone

theorem free_of {i : Instr} {s : State} (h : startsB i s = true) : Free (s.declared i) s := by
  simp only [startsB, Bool.and_eq_true, Bool.or_eq_true, Bool.not_eq_true', Option.isNone_iff_eq_none] at h
  obtain ⟨⟨⟨⟨⟨⟨h0, h1⟩, h2⟩, h3⟩, h4⟩, h5⟩, h6⟩ := h
  refine ⟨h1.imp id fun h => ?_, ?_, fun e => (h3.resolve_left (by simp [e])), h0, h4, h5, h6⟩
  · cases e : s.my.act <;> simp_all
  · cases hm : s.monitor <;> simp_all

theorem starts {i : Instr} {s : State} (taken : Bool) (h : startsB i s = true) : Starts i s (begun s) taken := by
  refine ⟨free_of h, ?_⟩
  unfold Checked begun
  cases hm : s.monitor
  · simp only [startsB, hm, Bool.false_or, Bool.and_eq_true] at h
    obtain ⟨⟨⟨⟨⟨⟨-, h1⟩, -⟩, -⟩, -⟩, -⟩, -⟩ := h
    cases ha : s.my.act with
    | none => simp [ha] at h1
    | some a =>
      have hz : a.sigCount = 0 := by simpa [ha] using h1
      cases hg : sigReach s a (codeOffset a s.my.pc) [] with
      | error e => unfold sigReach at hg; simp [hz] at hg
      | ok g =>
      simp only [hg, Bool.false_eq_true, if_false]
      exact ⟨a, [], g, rfl, by unfold State.sigTable; simp [ha, hz], hg, by unfold sigEnd; simp [hz], rfl⟩
  · simp

end Sys2Proof.Tests
end

