-- ==== Sys2Proof/Tests/Slice0.lean ====
section
/-! SUPPORT. Tests against the worked examples of the spec: the checks of well-formedness, the printed instruction words, and single
steps with the results the spec works out. -/

namespace Sys2Proof.Tests

open Sys2Proof Sys2Proof.Machine

set_option Elab.async false

/-! Well-formedness: one ill-formed term for each check (R26 to R38). -/

/-- The tags of a copy with no barrier, and of a matrix command with id n. -/
def noTags : CopyTags := ⟨0#2, 0#6, false, 0#4, false, 0#4, false⟩
def idTags (n : BitVec 6) : MTags := ⟨n, 63#6, 63#6, 0#4, false, 0#4, false⟩
def mma (n k : BitVec 6) : MmaArgs := ⟨idTags n, 0#2, 1#5, 2#5, none, none, k, false⟩

/-- None of the instructions is well formed. -/
abbrev IllFormed (l : List Instr) : Prop := ∀ i ∈ l, i.wf = false

theorem test_wf_scalar : IllFormed [.cmp .z 3#5 4#5 5#5, .cmp .nz 3#5 4#5 5#5, .cmpLiteral .z 3#5 4#5 0#64,
    .cmpLiteral .nz 3#5 4#5 0#64, .faddLiteral false .rne 3#5 4#5 0x100000000#64, .fsubLiteral false .rne 3#5 4#5 0x100000000#64,
    .fmulLiteral false .rne 3#5 4#5 0x100000000#64, .ffmaLiteral false .rne 3#5 4#5 0x100000000#64, .fminLiteral false 3#5 4#5 0x100000000#64,
    .fmaxLiteral false 3#5 4#5 0x100000000#64, .fcmpLiteral false .lt 3#5 4#5 0x100000000#64, .loop .none 0#9 0#5] := by decide +kernel

theorem test_wf_memory : IllFormed [.ldv 3#5 4#5 0#32 0x09#8 none, .ldv 3#5 4#5 0#32 0#8 (some ⟨false, 0#2⟩),
    .ldv 3#5 4#5 0#32 0x40#8 (some ⟨false, 0#2⟩), .ldvs 3#5 4#5 5#5 0#32 0x01#8 .e16 none, .ldvs 3#5 4#5 5#5 0#32 0x40#8 .e8 none,
    .ldvg 3#5 4#5 5#5 0#32 0x02#8 .e32 none, .cas2 .plain 0#5 4#5 6#5, .cas2 .plain 3#5 4#5 6#5, .cas2 .plain 2#5 4#5 5#5,
    .halloc 3#5 0#16 1#16 1#8 .tile false false, .halloc 3#5 1#16 0#16 1#8 .tile false false, .halloc 3#5 1#16 1#16 0x40#8 .tile false false,
    .halloc 3#5 1#16 1#16 0x1A#8 .tile false false, .hquery 3#5 4#5 7#3, .cpys noTags false 3#5 4#5 5#5 0#16 1#16,
    .cpys noTags false 3#5 4#5 5#5 1#16 0#16, .cpyg noTags 3#5 4#5 5#5 0#16 1#16, .cpyg noTags 3#5 4#5 5#5 1#16 0#16,
    .cpym noTags 3#5 4#5 0#5, .cpym noTags 3#5 4#5 17#5, .barx noTags 5#5] := by decide +kernel

theorem test_wf_units : IllFormed [.vcvt 0#8 .rne false none 3#5 4#5, .vpack 0x40#8 .rne false none 3#5 4#5 5#5,
    .vunpk 0x01#8 .rne false none 3#5 4#5, .vunpk 0#8 .rne false none 4#5 3#5, .vsat 0x0F#8 none 3#5 4#5, .vtag 0x28#8 3#5 4#5,
    .mma (mma 63#6 1#6), .mma (mma 0#6 0#6), .mma (mma 0#6 33#6), .mmas (mma 0#6 1#6) ⟨1#5, 2#5, 3#5, 4#5, .b32⟩,
    .mlda (idTags 63#6) 0#2 1#5, .msta (idTags 63#6) 1#5 0#2, .mzero (idTags 63#6) 0#2, .mtrn (idTags 63#6) 1#5 2#5,
    .mcvt (idTags 63#6) .rne false 1#5 0#2, .accq 3#5 3#2] := by decide +kernel

theorem test_wf_tasks : IllFormed [.send false 4#5 0#5 0#8 5#3, .send false 4#5 31#5 0#8 2#3, .send false 4#5 1#5 0#8 0#3,
    .sendh false 4#5 31#5 0#8 2#3 0#5, .spawn 4#5 0#5 0#8 33#6, .fork 4#5 0#5 0#32 7#3, .fork 4#5 27#5 0#32 6#3, .launch 4#5 27#5 0#8,
    .gridq 3#5 7#3] := by decide +kernel

/-! The words the spec prints (R39, R123, R127, R132, R138, R160, R197, R229, R235, R269, R279, R305, R334, R344, R349, R354, R356). -/

theorem test_words_formats : Reads [
    ([0x00148304#32], .add 3#5 4#5 5#5), ([0xFFE04208#32], .addi 2#5 2#5 0x7FF#11), ([0xFEA40114#32], .bne .t 0x1FD#9 1#5 0#5),
    ([0x51A92880#32], .vfma (some ⟨false, 1#2⟩) 8#5 9#5 10#5),
    ([0x000C41B1#32, 0x00FC4144#32, 0#32], .mma ⟨⟨5#6, 4#6, 63#6, 0#4, false, 0#4, false⟩, 1#2, 2#5, 3#5, none, none, 4#6, false⟩),
    ([0x01182240#32], .ld64 2#5 1#5 8#11), ([0x00004849#32, 0x100#32, 1#32], .ldv 8#5 2#5 0x100#32 1#8 none),
    ([0x02006949#32, 0#32, 0x00056201#32], .ldvg 9#5 3#5 12#5 0#32 1#8 .e32 (some ⟨false, 1#2⟩)),
    ([0x01250188#32], .vcmplt none 1#5 8#5 9#5), ([0x01A50188#32], .vcmple none 1#5 8#5 9#5),
    ([0x71250A80#32], .vmul (some ⟨true, 1#2⟩) 10#5 8#5 9#5), ([0x52B14B8C#32], .vredadd (some 1#2) 11#5 10#5 12#5),
    ([0x0181658C#32], .vext 5#5 11#5 0#5)] := by decide +kernel

theorem test_words_sync : Reads [
    ([0x0000A04C#32], .rel 5#5), ([0x0098804C#32], .acq 4#5 6#5), ([0x0100004C#32], .acqa), ([0x0180A04C#32], .phase 5#5),
    ([0x0218804C#32], .pref 4#5 6#5), ([0x0280234C#32], .trailq 3#5 1#3), ([0xE0148350#32], .atomAdd .ar true 3#5 4#5 5#5),
    ([0x04A0E650#32], .cas .plain false 6#5 7#5 8#5), ([0x00006074#32], .cwait 3#4), ([0x00802374#32], .cstat 3#5 1#2),
    ([0x01008074#32], .ccancel 4#4), ([0x00000261#32, 0x00200020#32, 0x00000203#32], .halloc 2#5 32#16 32#16 3#8 .cluster false false),
    ([0x00000761#32, 0x012C012C#32, 0x00000401#32], .halloc 7#5 300#16 300#16 1#8 .tile true false), ([0x00804060#32], .hfree 2#5),
    ([0x018C4560#32], .hquery 5#5 2#5 3#3)] := by decide +kernel

theorem test_words_capability : Reads [
    ([0x000C2210#32], .csetb 2#5 1#5 3#5), ([0x00984710#32], .csetp 7#5 2#5 6#5), ([0x01104210#32], .cinc 2#5 2#5 4#5),
    ([0x01804510#32], .cgetb 5#5 2#5), ([0x02004510#32], .cgetl 5#5 2#5), ([0x02804510#32], .cgetp 5#5 2#5),
    ([0x03004510#32], .cclr 5#5 2#5), ([0x039C2A10#32], .ctest 10#5 1#5 7#5), ([0x00000020#32], .ret), ([0x0080E020#32], .jr 7#5),
    ([0x0100E020#32], .callr 7#5)] := by decide +kernel

theorem test_words_matrix : Reads [
    ([0x0000A0B4#32], .mwait 5#6), ([0x0007E0B4#32], .mwait 63#6), ([0x008060B4#32], .mcons 3#6), ([0x010400B4#32], .mspill 0#2 1#2),
    ([0x018000B4#32], .mfill 0#2 0#2), ([0x020000B4#32], .licreq), ([0x028000B4#32], .licrel), ([0x030003B4#32], .licq 3#5),
    ([0x038024B4#32], .accq 4#5 1#2)] := by decide +kernel

theorem test_words_tasks : Reads [
    ([0x001480D1#32, 0x203#32, 0#32], .send false 4#5 5#5 3#8 2#3), ([0x401480D1#32, 0x203#32, 0#32], .send true 4#5 5#5 3#8 2#3),
    ([0x009480D1#32, 0x103#32, 7#32], .sendh false 4#5 5#5 3#8 1#3 7#5), ([0x012080D1#32, 0x405#32, 0#32], .spawn 4#5 8#5 5#8 4#6),
    ([0x02A920D1#32, 0#32, 0#32], .launch 9#5 10#5 0#8), ([0x021C60D0#32], .join 3#5 7#5), ([0x030000D0#32], .halt),
    ([0x038000D0#32], .yield), ([0x001483D4#32], .sethdl 3#5 4#5 5#5), ([0x009403D4#32], .gethdl 3#5 5#5), ([0x010003D4#32], .myid 3#5),
    ([0x018043D4#32], .gridq 3#5 2#3), ([0x0200C0D4#32], .ganghint 6#5)] := by decide +kernel

theorem test_words_system : Reads [
    ([0x2000E8E0#32], .barinit 40#6 7#5), ([0x208128E0#32], .bararr 40#6 9#5), ([0x210008E0#32], .barwait 40#6), ([0x018060E0#32], .semup 3#4),
    ([0x020060E0#32], .semdn 3#4), ([0x028062E0#32], .semtry 2#5 3#4), ([0x030082E0#32], .qstat 2#5 4#3), ([0x0000A2E4#32], .evcfg 2#3 5#5),
    ([0x008060E4#32], .evpulse 3#4), ([0x010064E4#32], .evread 4#5 3#4), ([0x010003E8#32], .tstamp 3#5), ([0x018004E8#32], .cstamp 4#5),
    ([0x020540E8#32], .trap 42#10), ([0x028000E8#32], .rft), ([0x030000E8#32], .brk 0#10), ([0x038000E8#32], .sigchk),
    ([0x040000E8#32], .nop)] := by decide +kernel

/-! Single instructions on core 0. -/

/-- A state after an instruction, and a register there. -/
def after (i : Instr) (s : State) : State :=
  match exec i s with
  | .next t => t
  | _ => s
def gives (i : Instr) (s : State) (r : Reg) : Nat := ((after i s).rd r).toNat

/-- Core 0 with c4 and c5 of data. -/
def ab (a b : Int) : State := withC (withC core0 4 (dataReg (BitVec.ofInt 64 a))) 5 (dataReg (BitVec.ofInt 64 b))

/-- The worked cases of R221. -/
theorem test_division : gives (.divS 3#5 4#5 5#5) (ab (-7) 2) 3#5 = 0xFFFFFFFFFFFFFFFD ∧
    gives (.remS 3#5 4#5 5#5) (ab (-7) 2) 3#5 = 0xFFFFFFFFFFFFFFFF ∧ gives (.divS 3#5 4#5 5#5) (ab 7 (-2)) 3#5 = 0xFFFFFFFFFFFFFFFD ∧
    gives (.remS 3#5 4#5 5#5) (ab 7 (-2)) 3#5 = 1 ∧ gives (.divN 3#5 4#5 5#5) (ab 7 0) 3#5 = 0xFFFFFFFFFFFFFFFF ∧
    gives (.remN 3#5 4#5 5#5) (ab 7 0) 3#5 = 7 := by decide +kernel

theorem test_mulh_shift_clz : gives (.mulhN 3#5 4#5 5#5) (ab (-1) (-1)) 3#5 = 0xFFFFFFFFFFFFFFFE ∧
    gives (.mulhS 3#5 4#5 5#5) (ab (-1) (-1)) 3#5 = 0 ∧ gives (.shl 3#5 4#5 5#5) (ab 1 65) 3#5 = 2 ∧
    gives (.sar 3#5 4#5 5#5) (ab (-8) 1) 3#5 = 0xFFFFFFFFFFFFFFFC ∧ gives (.clz 3#5 4#5) (ab 0 0) 3#5 = 64 := by decide +kernel

/-- The table of R222, and the hard-wired c0 (R200): a write to it is dropped. -/
theorem test_cmp_and_c0 : gives (.cmp .ltS 3#5 4#5 5#5) (ab (-1) 1) 3#5 = 1 ∧ gives (.cmp .ltN 3#5 4#5 5#5) (ab (-1) 1) 3#5 = 0 ∧
    gives (.cmp .z 3#5 4#5 0#5) (ab 0 1) 3#5 = 1 ∧ gives (.add 0#5 4#5 5#5) (ab 1 1) 0#5 = 0 := by decide +kernel

/-- The worked rounding of R226: 1 + 2^-24 in F32. -/
theorem test_fadd_rounds : gives (.fadd false .rne 3#5 4#5 5#5) (ab 0x3F800000 0x33800000) 3#5 = 0x3F800000 ∧
    gives (.fadd false .rup 3#5 4#5 5#5) (ab 0x3F800000 0x33800000) 3#5 = 0x3F800001 := by decide +kernel

/-- R228: -2.5 to S64 in the four modes. -/
theorem test_fcvt_to_integer : [Rm.rne, .rz, .rdn, .rup].map (fun m => gives (.fcvt true m .fs 3#5 4#5) (ab 0xC004000000000000 0) 3#5) =
    [2 ^ 64 - 2, 2 ^ 64 - 2, 2 ^ 64 - 3, 2 ^ 64 - 2] := by decide +kernel

/-- The capability c1 of R232's worked derivation, its c2, and the results of the steps. -/
def d1 : CReg := mkCap 0x80000000010000 0x80000000010000 64 6 11
def d2 : CReg := csetbVal (cincVal d1 100#64) 1001#64

theorem test_derivation : d1.len = 4096 ∧ (cincVal d1 100#64).addr = 0x80000000010064 ∧ d2.tag = true ∧ d2.base = 0x80000000010064 ∧
    d2.addr = 0x80000000010064 ∧ d2.top = 0x80000000010454 ∧ d2.len = 1008 ∧ (csetpVal d2 1#64).perms = 1 ∧
    (cincVal d2 1008#64).tag = true ∧ cincVal d2 1009#64 = dataReg 0x0080000000010455#64 := by decide +kernel

theorem test_derivation_bounds : ctestVal d1 (csetpVal d2 1#64) false = true ∧ ctestVal (csetpVal d2 1#64) d1 false = false ∧
    (csetbVal d2 1008#64).tag = true ∧ (csetbVal d1 3997#64).len = 4000 ∧
    csetbVal (cincVal d1 100#64) 3990#64 = dataReg 0x0080000000010064#64 ∧ canonical 1000 = (3, 125) ∧ canonical 1001 = (3, 126) ∧
    canonical 4097 = (6, 65) := by decide +kernel

theorem test_derivation_runs : gives (.cgetl 6#5 4#5) (withC core0 4 d2) 6#5 = 1008 ∧
    ((after (.cinc 6#5 4#5 5#5) (withC core0 4 d1)).rc 6#5).tag = true := by decide +kernel

/-- LOOP with a counter of 0, and of 1 (R236). -/
theorem test_loop : gives (.loop .t 0x1FF#9 4#5) (ab 0 0) 4#5 = 2 ^ 64 - 1 ∧ (after (.loop .t 0x1FF#9 4#5) (ab 0 0)).pcNow = core0.pcNow - 4 ∧
    (after (.loop .t 0x1FF#9 4#5) (ab 1 0)).pcNow = core0.pcNow + 4 := by decide +kernel

/-- CALLR c31 jumps to the old c31 and saves the next address (R235). -/
theorem test_callr : let t := after (.callr 31#5) (withX core0 31 0x1000)
    t.pcNow = 0x1000 ∧ (t.rd 31#5).toNat = core0.pcNow + 4 := by decide +kernel

/-! The worked stores of R126, on core 0 with a capability in c4: the trail after the steps. -/

noncomputable def stores : State :=
  let s := withX cap0 2 0x1122334455667788
  let s := withC s 5 (mkCap (2 ^ 55) (2 ^ 55) 64 6 15)
  after (.st8 2#5 4#5 9#11) (after (.st64 2#5 4#5 0#11) s)
noncomputable def afterStc : State := after (.st8 0#5 4#5 16#11) (after (.stc 5#5 4#5 16#11) stores)

theorem test_stores_merge : stores.my.trail.map (fun e => (e.g % 16, e.mask, e.tag)) = [(0, 0x02FF#16, false)] ∧
    (stores.my.forward (2 ^ 55 + 0x10009) = some 0x88#8) ∧ stores.my.forward (2 ^ 55 + 0x10008) = none := by decide +kernel

theorem test_store_clears_tag : afterStc.my.trail.map (fun e => (e.g % 16, e.mask, e.tag)) = [(0, 0x02FF#16, false), (1, 0xFFFF#16, false)] ∧
    ((after (.stc 5#5 4#5 16#11) stores).my.trail.map (·.tag)) = [false, true] := by decide +kernel

/-! Formats (R239 to R252). -/

/-- The sixteen E2M1 codes, as FP32 (R240). -/
theorem test_e2m1_codes : (List.range 16).map (fun c => (roundTo fp32 .rne false 0 (decodeFloat e2m1 c)).1) =
    [0, 0x3F000000, 0x3F800000, 0x3FC00000, 0x40000000, 0x40400000, 0x40800000, 0x40C00000,
     0x80000000, 0xBF000000, 0xBF800000, 0xBFC00000, 0xC0000000, 0xC0400000, 0xC0800000, 0xC0C00000] := by decide +kernel

/-- R249: 500.0 into E4M3 with and without saturation, 7.0 into E2M1. -/
theorem test_overflow : let x := decodeFloat fp32 0x43FA0000
    roundTo e4m3 .rne false 0 x = (0x7F, flOF ||| flNX ||| flNV) ∧ roundTo e4m3 .rne true 0 x = (0x7E, flOF ||| flNX ||| flSAT) ∧
    roundTo e2m1 .rne false 0 (decodeFloat fp32 0x40E00000) = (7, flOF ||| flNX ||| flSAT) := by decide +kernel

/-- The largest finite and canonical NaN codes of R240, and the descriptor of R244. -/
theorem test_limits : [fp64, fp32, bf16, fp16, e4m3, e5m2, e2m1].map Fmt.nanCode =
      [some 0x7FF8000000000000, some 0x7FC00000, some 0x7FC0, some 0x7E00, some 0x7F, some 0x7E, none] ∧
    [fp16, e4m3, e5m2, e2m1].map Fmt.maxMag = [0x7BFF, 0x7E, 0x7B, 7] ∧
    customFmt 0x0E030136#64 = some ⟨6, 3, 1, 3, 2, true, true⟩ := by decide +kernel

/-- The worked draw of R252. -/
theorem test_draw : nextSR 0x8000000000000000#64 0x4000000000000000#64 =
      (0x4000000000000000#64, 0xC000401000000000#64, 0x0000401000000000#64) ∧
    nextSR 0x4000000000000000#64 0xC000401000000000#64 = (0xC000401000000000#64, 0x8000602000100400#64, 0x4000A03000100400#64) ∧
    (roundTo e2m1 .sr false 0x4010 (decodeFloat fp32 0x40300000)).1 = 4 ∧
    (roundTo e2m1 .sr false 0x4000A030 (decodeFloat fp32 0x40300000)).1 = 5 := by decide +kernel

/-! The worked run of the vector chapter. -/

/-- v8 of 3.0, -1.0, 0.5, 8.0, v9 of 2.0 and v12 of 10.0, in FP32. -/
def run0 : State :=
  core0.modCtx x0 fun c =>
    { c with v := [(8, { bits := 0x410000003F000000BF80000040400000#1024, tag := 1#8 }),
                   (9, { bits := 0x40000000400000004000000040000000#1024, tag := 1#8 }), (12, { bits := 0x41200000#1024, tag := 1#8 })] }
noncomputable def run1 : State := after (.vcmplt none 1#5 8#5 9#5) run0
noncomputable def run2 : State := after (.vmul (some ⟨true, 1#2⟩) 10#5 8#5 9#5) run1
noncomputable def run3 : State := after (.vredadd (some 1#2) 11#5 10#5 12#5) run2

theorem test_run_compare : run1.vr 1#5 = { bits := 6#1024, tag := 0x40#8 } := by decide +kernel

theorem test_run_product : (run2.vr 10#5).tag = 1#8 ∧ (List.range 5).map (elemOf (run2.vbits 10#5) 32) =
    [0xFFFFFFFF, 0xC0000000, 0x3F800000, 0xFFFFFFFF, 0xFFFFFFFF] := by decide +kernel

theorem test_run_sum : run3.vr 11#5 = { bits := 0x41100000#1024, tag := 1#8 } ∧ (run3.ctx x0).flags = 0#6 ∧
    gives (.vext 5#5 11#5 0#5) run3 5#5 = 0x41100000 := by decide +kernel

/-- Without the mask the sum meets the agnostic NaN patterns: element 0 is the canonical NaN and NV is set. -/
theorem test_run_unmasked : let t := after (.vredadd none 11#5 10#5 12#5) run2
    t.vbits 11#5 = 0x7FC00000 ∧ (t.ctx x0).flags = flNV := by decide +kernel

/-! Places, stamps and addresses. -/

/-- The site of R13: upper tier, x = 45, y = 17. -/
theorem test_site : siteTier 9285 = 1 ∧ siteX 9285 = 45 ∧ siteY 9285 = 17 ∧ twin 9285 = 1541 ∧ clusterOf 9285 = 27 ∧
    clusterBit 9285 = 77 ∧ clusterBit 1541 = 13 := by decide +kernel

/-- The home of R61's address in a partition of clusters 33 to 37 and 44 to 48: cluster 47, slice 3. -/
def team : Partition := { clusters := [33, 34, 35, 36, 37, 44, 45, 46, 47, 48] }
theorem test_home : pageHash 0x800C00A0251230 = 0x800800E023 ∧ team.home 0x800C00A0251230 = 4 * 47 + 3 := by decide +kernel

/-- Team 0's pseudo-channels and the place of 0x1_2340_1230 (R76): channel 4,362 at offset 4,846,128. -/
def rim0 : Partition :=
  { rimEn := true, pccount := 1008, pclist := (List.range 1008).map fun k => k % 48 * 256 + k / 48 }
theorem test_rim_place : rim0.place 0x123401230 = (4362, 4846128) := by decide +kernel

/-- The worked walk of R65, over tables in rim memory. -/
def walked : State × Partition :=
  let p : Partition := { rim0 with ptroot := 0x100000#64, key := 0x2A#8, rimEn := true }
  let s := State.reset
  let s := s.rimWrite p 0x100018 8 0x2A00000000200001
  let s := s.rimWrite p 0x200028 8 0x2A00000000300001
  (s.rimWrite p 0x300128 8 0x2A00000123400017, p)
theorem test_walk : (match walk walked.1 walked.2 0x800C00A0251230 with
    | .ok l => some (pteFrame l.pte, l.pteAt)
    | .error _ => none) = some (0x123400000, 0x300128) := by decide +kernel

/-- Frontiers and stamps (R90, R97): the origin of slot 2's compute core at site 9285, the cap at tick 1,000,000 and Pred of a stamp. -/
theorem test_stamp : ((State.reset.modCtx 0 fun c => { c with site := 9285, slot := 2 }).originOf 1) = 0x1222E ∧
    ({ State.reset with tick := 1000000 } : State).cap = mkStamp 989197 0x1FFFF ∧
    mkStamp 989150 0x1222E - 1 = mkStamp 989150 0x1222D := by decide +kernel

/-- The translation-table entry of R380's worked run, a 3 × 3 grid with F = 4, after the swap-in of gang 4: vt 5 on site 7,784 in slot 0. -/
theorem test_table_entry :
    ((State.reset.modRegion 1 fun g => { g with pool := 4, blk := { g.blk with width := 3, height := 3 } }).modCtx (ctxKey 1 5) fun c =>
      { c with st := 1, site := 7784, slot := 0 }).tableEntry 1 5 = (0x0000000400023CD1, 0) := by decide +kernel

/-! A step (R24, R219): the word of ADD c3, c4, c5 where core 0 fetches. -/

noncomputable def stepped : State :=
  match step (State.reset.withFetchWord 32 0x00148304) with
  | .next t => t
  | _ => State.reset

theorem test_step_runs : stepped.pcNow = loadVa + 4 ∧ (stepped.rd 3#5) = 0#64 := by decide +kernel

end Sys2Proof.Tests
end

