-- ==== Sys2Proof/Tests/WitnessData.lean ====
section
/-! SUPPORT. Witnesses: a concrete state and operands that meet the hypotheses of each clause of the statements about handles, copies,
barriers, semaphores, vectors and matrix commands. -/

namespace Sys2Proof.Tests

open Sys2Proof Sys2Proof.Machine

set_option Elab.async false

/-- The same handle at TILE level. -/
def private1 : State := core0.modHandle x0 1 fun _ => { h1 with level := .tile }

noncomputable def hallocI : Instr := .halloc 1#5 8#16 32#16 1#8 .cluster false false

theorem witness_HallocAllocates :
    (let s := core0
     Starts hallocI s (begun s) false ∧ checkHandle s 1 false = none ∧ (s.handle s.me 1).st = 0 ∧ (s.kind 1#8).isSome = true ∧
       s.fits s.me h1.size .cluster = true ∧
       ((((begun s).modHandle s.me 1 fun _ => { h1 with granules := (s.granulesFree (s.ctx s.me).site).take h1.size }).modCtx s.me fun c =>
         { c with used := c.used + h1.size }).addEntry { ctx := s.me, h := 1, lo := 0, hi := h1.image, writes := true, kind := 1 }).isSome = true) ∧
    (let s := handled
     let old := s.handle s.me 1
     Starts hallocI s (begun s) false ∧ checkHandle s 1 false = none ∧ old.st ≠ 0 ∧ old.rows = 8 ∧ old.cols = 32 ∧ old.tag = 1#8 ∧
       old.level = .cluster ∧ old.retain = false ∧ old.shatom = false) ∧
    let s := private1
    Starts hallocI s (begun s) false ∧ checkHandle s 1 false = none ∧ (s.handle s.me 1).st ≠ 0 ∧ (s.handle s.me 1).level ≠ .cluster ∧
      s.pendingReqs = false :=
  ⟨⟨starts _ (by decide +kernel), by decide +kernel⟩, ⟨starts _ (by decide +kernel), by decide +kernel⟩,
   starts _ (by decide +kernel), by decide +kernel⟩

theorem witness_HandlesAreManaged :
    (Starts (.hfree 1#5) core0 (begun core0) false ∧ checkHandle core0 1 false = none ∧ (core0.handle core0.me 1).st = 0) ∧
    (Starts (.hfree 1#5) exported (begun exported) false ∧ checkHandle exported 1 false = none ∧ (exported.handle exported.me 1).st = 2 ∧
      exported.pendingReqs = false) ∧
    (Starts (.hfree 1#5) handled (begun handled) false ∧ Starts (.hretain 1#5 true) handled (begun handled) false ∧
      Starts (.hexport 1#5) handled (begun handled) false ∧ Starts (.hzero 1#5) handled (begun handled) false ∧
      Starts (.hwait 1#5) handled (begun handled) false ∧
      checkHandle handled 1 false = none ∧ checkHandle handled 1 true = none ∧ (handled.handle handled.me 1).st = 1 ∧
      handled.covering handled.me 1 = [] ∧ handled.touching (coreKey handled.me false) 1 = false ∧ handled.remoteReaders handled.me 1 = false ∧
      ((begun handled).addEntry { ctx := handled.me, h := 1, lo := 0, hi := h1.image, writes := true, kind := 1 }).isSome = true) ∧
    (Starts (.hfree 1#5) covered (begun covered) false ∧ Starts (.hwait 1#5) covered (begun covered) false ∧
      (covered.handle covered.me 1).st = 1 ∧ covered.covering covered.me 1 ≠ []) ∧
    (let s := handled.modCore ks fun c => { c with stall := .scratch { h := 1, off := 0, n := 4, op := .load 3#5 } }
     Starts (.hfree 1#5) s (begun s) false ∧ checkHandle s 1 false = none ∧ (s.handle s.me 1).st = 1 ∧
       s.touching (coreKey s.me (!s.focus.compute)) 1 = true) ∧
    (Starts (.hexport 1#5) private1 (begun private1) false ∧ checkHandle private1 1 true = none ∧
      (private1.handle private1.me 1).st ≠ 2 ∧ (private1.handle private1.me 1).level ≠ .cluster ∧ private1.pendingReqs = false) ∧
    Starts (.hunexport 1#5) exported (begun exported) false ∧ checkHandle exported 1 true = none ∧ exported.remoteReaders exported.me 1 = false :=
  ⟨⟨starts _ (by decide +kernel), by decide +kernel⟩, ⟨starts _ (by decide +kernel), by decide +kernel⟩,
   ⟨starts _ (by decide +kernel), starts _ (by decide +kernel), starts _ (by decide +kernel), starts _ (by decide +kernel),
    starts _ (by decide +kernel), by decide +kernel⟩,
   ⟨starts _ (by decide +kernel), starts _ (by decide +kernel), by decide +kernel⟩, ⟨starts _ (by decide +kernel), by decide +kernel⟩,
   ⟨starts _ (by decide +kernel), by decide +kernel⟩, starts _ (by decide +kernel), by decide +kernel⟩

/-- The last word of h1's image, and one past it. -/
def scrAt (b : Nat) : Scr := { h := 1, off := b * 4, n := 4, op := .load 3#5 }

theorem witness_HandleAccessesTakeEffect :
    (let s := withX handled 5 255
     Starts (.ldh32 3#5 1#5 5#5) s (begun s) false ∧ (scrForm (.ldh32 3#5 1#5 5#5) s).isSome = true ∧ s.my.prog.step = 0 ∧
       scrFault s (scrAt 255) true true false = none ∧ s.overlaps s.me 1 1020 1024 = []) ∧
    (let s := withX (withMy handled fun c => { c with prog := { c.prog with rel := some 7 } }) 5 255
     Starts (.hatom .ar true .add 3#5 1#5 5#5) s (begun s) false ∧ s.my.prog.step = 0 ∧ s.my.prog.rel ≠ none ∧
       scrFault s (scrAt 255) true true true = none ∧ s.overlaps s.me 1 1020 1024 = []) ∧
    (let s := withX handled 5 256
     Starts (.ldh32 3#5 1#5 5#5) s (begun s) false ∧ scrFault s (scrAt 256) true true false = some (.handleBounds, 0) ∧ s.pendingReqs = false ∧
       s.my.prog.rel = none) ∧
    (let s := withX covered 5 255
     Starts (.ldh32 3#5 1#5 5#5) s (begun s) false ∧ scrFault s (scrAt 255) true true false = none ∧ s.overlaps s.me 1 1020 1024 ≠ []) ∧
    (let s := withX handled 5 0
     Starts (.ldhv 3#5 1#5 5#5) s (begun s) false ∧ (scrForm (.ldhv 3#5 1#5 5#5) s).any (fun r => (scrFault s r.2.1 r.2.2.1 r.2.2.2.1 r.2.2.2.2).isNone &&
       (s.overlaps s.me r.2.1.h r.2.1.off (r.2.1.off + r.2.1.n)).isEmpty) = true ∧ (decl (.ldhv 3#5 1#5 5#5)).vr ≠ [] ∧ s.vecRests = false) ∧
    let s := ((withX handled 5 0).modTile 0 fun t => { t with vecAsleep := true }).modCluster 0 fun c => { c with vec := true }
    Starts (.ldhv 3#5 1#5 5#5) s (begun s) false ∧ (scrForm (.ldhv 3#5 1#5 5#5) s).any
      (fun r => (scrFault s r.2.1 r.2.2.1 r.2.2.2.1 r.2.2.2.2).isNone) = true ∧ s.my.prog.step = 0 ∧ s.vecRests = true :=
  ⟨⟨starts _ (by decide +kernel), by decide +kernel⟩, ⟨starts _ (by decide +kernel), by decide +kernel⟩,
   ⟨starts _ (by decide +kernel), by decide +kernel⟩, ⟨starts _ (by decide +kernel), by decide +kernel⟩,
   ⟨starts _ (by decide +kernel), by decide +kernel⟩, starts _ (by decide +kernel), by decide +kernel⟩

def hcasxReq : Req := { kind := .hcasx 3#5 8 0 1 0 0 1, v := 0, va := 0, want := [] }

theorem witness_HcasxActsAtItsTarget :
    (let s := handled
     Starts (.hcasx .plain false 3#5 1#5 5#5 6#5 7#5) s (begun s) false ∧ s.my.prog.step = 0 ∧ s.freeSlot = some 0 ∧
       (s.rd 7#5).toNat % 2 ^ 24 < s.gridSize s.myRegion) ∧
    (let s := withX handled 7 1
     Starts (.hcasx .plain false 3#5 1#5 5#5 6#5 7#5) s (begun s) false ∧ s.my.prog.step = 0 ∧ s.freeSlot = some 0 ∧ s.pendingReqs = false ∧
       s.gridSize s.myRegion ≤ (s.rd 7#5).toNat % 2 ^ 24) ∧
    (let s := (core0.modHandle x0 1 fun _ => { h1 with shatom := true }).modCore kc fun c => { c with reqs := [(0, some hcasxReq)] }
     let x := ctxKey (ctxRegion (coreCtx kc)) 0
     let g := s.handle x 1
     tget none (s.core kc).reqs 0 = some hcasxReq ∧ (s.ctx x).st = 1 ∧ g.st = 1 ∧ g.shatom = true ∧ 0 + 8 ≤ g.image ∧
       s.overlaps x 1 0 8 = [] ∧ badIn g 0 8 = false) ∧
    (let asked (s : State) : State := s.modCore kc fun c => { c with reqs := [(0, some hcasxReq)] }
     let a := asked (core0.modCtx x0 fun c => { c with st := 2 })
     let f := asked core0
     let b := asked (core0.modHandle x0 1 fun _ => { h1 with shatom := true, rows := 0 })
     let e := asked (core0.modHandle x0 1 fun _ => { h1 with shatom := true, st := 2 })
     let w := asked (covered.modHandle x0 1 fun g => { g with shatom := true })
     (a.ctx x0).st ≠ 1 ∧ ((f.ctx x0).st = 1 ∧ (f.handle x0 1).st = 0) ∧
       ((b.ctx x0).st = 1 ∧ (b.handle x0 1).st ≠ 0 ∧ (b.handle x0 1).shatom = true ∧ (b.handle x0 1).image < 0 + 8) ∧
       ((e.ctx x0).st = 1 ∧ (e.handle x0 1).st = 2 ∧ (e.handle x0 1).shatom = true ∧ 0 + 8 ≤ (e.handle x0 1).image) ∧
       (w.handle x0 1).st = 1 ∧ (w.handle x0 1).shatom = true ∧ 0 + 8 ≤ (w.handle x0 1).image ∧ w.overlaps x0 1 0 8 ≠ []) ∧
    let done (e : ReqEnd) : State := core0.modCore kc fun c => { c with reqs := [(0, some { hcasxReq with done := some e })] }
    tget none ((done (.value 0 false 0)).core kc).reqs 0 = some { hcasxReq with done := some (.value 0 false 0) } ∧
      tget none ((done .absent).core kc).reqs 0 = some { hcasxReq with done := some .absent } ∧
      tget none ((done (.refused 5 0 0)).core kc).reqs 0 = some { hcasxReq with done := some (.refused 5 0 0) } :=
  ⟨⟨starts _ (by decide +kernel), by decide +kernel⟩, ⟨starts _ (by decide +kernel), by decide +kernel⟩, by decide +kernel, by decide +kernel,
   by decide +kernel⟩

def tags0 : CopyTags := ⟨1#2, 0#6, false, 0#4, false, 0#4, false⟩
def mtags0 : MTags := ⟨5#6, 63#6, 63#6, 0#4, false, 0#4, false⟩
/-- h1 and a capability of as many bytes as its image in c5. -/
def copying : State := withX (withC handled 4 capAt) 5 1024
noncomputable def cpyI : Instr := .cpy tags0 false 1#5 4#5 5#5
noncomputable def cpubI : Instr := .cpub tags0 4#5
def anyCopy : CopyCmd := { kind := .cpy false, q := 1, compute := true, h := 1 }
def fullQueue (s : State) : State := s.modCtx x0 fun c => { c with copyq := [(1, { cmds := List.replicate 8 anyCopy })] }

theorem witness_CopiesJoinTheirQueue :
    (let s := withC core0 4 (mkCap (2 ^ 55 + 0x10000) (2 ^ 55 + 0x10000) 64 6 15)
     Starts cpubI s (begun s) false ∧ (copyForm cpubI (begun s)).any (fun r => decide (r.1.kind = .cpub ∧
       (tget {} (r.2.ctx r.2.me).copyq r.1.q).cmds.length < 8)) = true ∧ s.my.prog.step ≠ 1) ∧
    (let s := copying
     Starts cpyI s (begun s) false ∧ (copyForm cpyI (begun s)).any (fun r => decide (r.1.kind ≠ .cpub) &&
       (r.2.addEntry (r.1.boardEntry r.2)).isSome && decide ((tget {} (r.2.ctx r.2.me).copyq r.1.q).cmds.length < 8)) = true) ∧
    (let s := fullQueue copying
     Starts cpyI s (begun s) false ∧ (copyForm cpyI (begun s)).any (fun r => decide (8 ≤ (tget {} (r.2.ctx r.2.me).copyq r.1.q).cmds.length)) = true) ∧
    (let s := copying
     let i : Instr := .cpy ⟨1#2, 0#6, false, 3#4, true, 0#4, false⟩ false 1#5 4#5 5#5
     Starts i s (begun s) false ∧ s.pendingReqs = false ∧ s.declaredHandles ≠ 0 ∧ s.semOk 3 = false) ∧
    (let s := withMy copying fun c => { c with act := some { loadAct with handles := 1 } }
     Starts cpyI s (begun s) false ∧ s.declaredHandles ≤ 1 ∧ s.declaredHandles ≠ 0) ∧
    (Starts cpyI core0 (begun core0) false ∧ 1 < core0.declaredHandles ∧ (core0.handle core0.me 1).st = 0) ∧
    (let s := withMy copying fun c => { c with act := some { loadAct with handles := 0 } }
     Starts cpyI s (begun s) false ∧ s.declaredHandles = 0 ∧ copyNames cpyI = some (tags0, some (1#5, true))) ∧
    (let t : CopyTags := ⟨1#2, 0#6, false, 3#4, true, 0#4, false⟩
     Starts (.cpub t 4#5) copying (begun copying) false ∧ copyNames (.cpub t 4#5) = some (t, none) ∧ copying.pendingReqs = false ∧
       copying.semOk 3 = false) ∧
    (Starts cpyI exported (begun exported) false ∧ 1 < exported.declaredHandles ∧ (exported.handle exported.me 1).st = 2) ∧
    (Starts (.cwait 15#4) core0 (begun core0) false ∧ (core0.ctx core0.me).copyq = []) ∧
    (Starts (.cwait 2#4) (fullQueue copying) (begun (fullQueue copying)) false ∧ bitAt 2#4 1 = true ∧
      (tget {} ((fullQueue copying).ctx x0).copyq 1).cmds ≠ [] ∧ (tget {} ((fullQueue copying).ctx x0).copyq 1).faulted = false) ∧
    Starts (.ccancel 2#4) (fullQueue copying) (begun (fullQueue copying)) false :=
  ⟨⟨starts _ (by decide +kernel), by decide +kernel⟩, ⟨starts _ (by decide +kernel), by decide +kernel⟩,
   ⟨starts _ (by decide +kernel), by decide +kernel⟩, ⟨starts _ (by decide +kernel), by decide +kernel⟩,
   ⟨starts _ (by decide +kernel), by decide +kernel⟩, ⟨starts _ (by decide +kernel), by decide +kernel⟩,
   ⟨starts _ (by decide +kernel), by decide +kernel⟩, ⟨starts _ (by decide +kernel), by decide +kernel⟩,
   ⟨starts _ (by decide +kernel), by decide +kernel⟩, ⟨starts _ (by decide +kernel), by decide +kernel⟩,
   ⟨starts _ (by decide +kernel), by decide +kernel⟩, starts _ (by decide +kernel)⟩

/-- Slot 0's own semaphore 3, at 1. -/
def sem0 (n : Nat) : State := core0.modTile 0 fun t => { t with semmap := 0x4000#64, sem := if n = 0 then [] else [(3, n)] }

theorem witness_BarriersAndSemaphores :
    (let s := withX core0 5 (2 ^ 40 - 1)
     Starts (.barx tags0 5#5) s (begun s) false ∧ s.my.prog.step ≠ 1 ∧ (s.rd 5#5).toNat < 2 ^ 40 ∧
       (tget {} (s.ctx s.me).copyq 1).cmds.length < 8) ∧
    (let s := withX core0 5 65535
     Starts (.barinit 2#6 5#5) s (begun s) false ∧ (s.rd 5#5).toNat ≤ 65535) ∧
    (let s := withX core0 5 65536
     Starts (.barinit 2#6 5#5) s (begun s) false ∧ 65535 < (s.rd 5#5).toNat ∧ s.pendingReqs = false) ∧
    (Starts (.bararr 2#6 0#5) core0 (begun core0) false ∧ Starts (.barwait 2#6) core0 (begun core0) false ∧ core0.my.prog.step = 0 ∧
      (core0.bar core0.me 2).armed = false ∧ (core0.bar core0.me 2).aarm = false) ∧
    (let s := core0.modBar x0 2 fun b => { b with armed := true }
     Starts (.barwait 2#6) s (begun s) false ∧ s.my.prog.step = 0 ∧ (s.bar s.me 2).armed = true) ∧
    (let s (v : Nat) : State := withMy (core0.modBar x0 2 fun b => { b with fires := 4, arrFires := 3 }) fun c =>
       { c with prog := { c.prog with step := barStep, value := v } }
     let bytes := s (3 + 3 * 2 ^ 64)
     let arrival := s (3 + 2 * 2 ^ 64)
     Starts (.barwait 2#6) (s 4) (begun (s 4)) false ∧ Starts (.barwait 2#6) bytes (begun bytes) false ∧
       Starts (.barwait 2#6) arrival (begun arrival) false ∧ (s 4).my.prog.step = barStep ∧ ((s 4).bar (s 4).me 2).fires = 4 % 2 ^ 64 ∧
       (bytes.bar bytes.me 2).fires ≠ bytes.my.prog.value % 2 ^ 64 ∧ (bytes.bar bytes.me 2).arrFires = bytes.my.prog.value / 2 ^ 64 ∧
       (arrival.bar arrival.me 2).fires ≠ arrival.my.prog.value % 2 ^ 64 ∧ (arrival.bar arrival.me 2).arrFires ≠ arrival.my.prog.value / 2 ^ 64) ∧
    (Starts (.semup 4#4) (sem0 1) (begun (sem0 1)) false ∧ (sem0 1).semOk 4 = false ∧ (sem0 1).pendingReqs = false) ∧
    (Starts (.semup 3#4) (sem0 1) (begun (sem0 1)) false ∧ Starts (.semdn 3#4) (sem0 1) (begun (sem0 1)) false ∧
      Starts (.semtry 5#5 3#4) (sem0 1) (begun (sem0 1)) false ∧ (sem0 1).semOk 3 = true ∧ tget 0 ((sem0 1).tile 0).sem 3 ≠ 0) ∧
    Starts (.semdn 3#4) (sem0 0) (begun (sem0 0)) false ∧ Starts (.semtry 5#5 3#4) (sem0 0) (begun (sem0 0)) false ∧
      (sem0 0).semOk 3 = true ∧ tget 0 ((sem0 0).tile 0).sem 3 = 0 :=
  ⟨⟨starts _ (by decide +kernel), by decide +kernel⟩, ⟨starts _ (by decide +kernel), by decide +kernel⟩,
   ⟨starts _ (by decide +kernel), by decide +kernel⟩, ⟨starts _ (by decide +kernel), starts _ (by decide +kernel), by decide +kernel⟩,
   ⟨starts _ (by decide +kernel), by decide +kernel⟩,
   ⟨starts _ (by decide +kernel), starts _ (by decide +kernel), starts _ (by decide +kernel), by decide +kernel⟩,
   ⟨starts _ (by decide +kernel), by decide +kernel⟩,
   ⟨starts _ (by decide +kernel), starts _ (by decide +kernel), starts _ (by decide +kernel), by decide +kernel⟩,
   starts _ (by decide +kernel), starts _ (by decide +kernel), by decide +kernel⟩

theorem witness_VectorResults :
    (Starts (.vadd none 3#5 4#5 5#5) vec0 (begun vec0) false ∧ (vecForm (.vadd none 3#5 4#5 5#5) vec0).any (·.ok) = true ∧ vec0.vecReady = true) ∧
    Starts (.vadd none 3#5 4#5 6#5) vec0 (begun vec0) false ∧ (vecForm (.vadd none 3#5 4#5 6#5) vec0).any (!·.ok) = true ∧
      vec0.pendingReqs = false :=
  ⟨⟨starts _ (by decide +kernel), by decide +kernel⟩, starts _ (by decide +kernel), by decide +kernel⟩

/-- Core 0's slot holds the pair's licence. -/
def licensed (s : State) : State := s.modLic 0 fun l => { l with st := 1, owner := requester 0 0, holder := some (requester 0 0) }
noncomputable def mzeroI (a : BitVec 2) : Instr := .mzero mtags0 a
def anyMat (id : Nat) : MatCmd := { id := id, p0 := 63, p1 := 63, acc := some 0, kind := .mzero, sem := none, ev := none }

theorem witness_MatrixCommandsEnterTheTable :
    (let s := licensed core0
     Starts (mzeroI 3#2) s (begun s) false ∧ (matForm (mzeroI 3#2) s).isSome = true ∧ matChecks s mtags0 .mzero = true ∧ s.my.prog.step ≠ 1 ∧
       (s.ctx s.me).cmds = [] ∧ s.conflicts (MatKind.mzero.entries s s.me) = false ∧
       ((begun s).addEntries (MatKind.mzero.entries s s.me)).any (fun r => !(r.2.tile 0).matGlide) = true ∧
       (s.pair (pairOf 0)).lic.holder = some (requester 0 (s.ctx s.me).slot) ∧ accValid (s.tile 0).accown 3 = false ∧ 3 ∉ (s.ctx s.me).saved) ∧
    (let s := (licensed core0).modTile 0 fun t => { t with accown := accClaim 0#64 3 1 }
     Starts (mzeroI 3#2) s (begun s) false ∧ s.pendingReqs = false ∧ (s.ctx s.me).cmds = [] ∧ accValid (s.tile 0).accown 3 = true ∧
       accSlot (s.tile 0).accown 3 ≠ (s.ctx s.me).slot ∧ ((begun s).addEntries (MatKind.mzero.entries s s.me)).isSome = true) ∧
    (let s := (licensed core0).modCtx x0 fun c => { c with saved := [3] }
     Starts (mzeroI 3#2) s (begun s) false ∧ s.pendingReqs = false ∧ (s.ctx s.me).cmds = [] ∧ 3 ∈ (s.ctx s.me).saved ∧
       ((begun s).addEntries (MatKind.mzero.entries s s.me)).isSome = true) ∧
    let s := (licensed core0).modCtx x0 fun c => { c with cmds := [anyMat 5] }
    Starts (mzeroI 3#2) s (begun s) false ∧ matChecks s mtags0 .mzero = true ∧ s.pendingReqs = false ∧
      ((s.ctx s.me).cmds.any fun d => d.id == 5) = true :=
  ⟨⟨starts _ (by decide +kernel), by decide +kernel⟩, ⟨starts _ (by decide +kernel), by decide +kernel⟩, ⟨starts _ (by decide +kernel), by decide +kernel⟩,
   starts _ (by decide +kernel), by decide +kernel⟩

/-- Both twins of pair 0 in the pool. -/
def twins (s : State) : State :=
  { s with clusters := tput {} (clusterOf 7744) { s.cluster (clusterOf 7744) with ready := 1, part := some 0, pool := BitVec.allOnes 128 } s.clusters }

theorem witness_MatrixWaitsLicenceAndSpills :
    (Starts (.mwait 63#6) core0 (begun core0) false ∧ Starts (.mcons 63#6) core0 (begun core0) false ∧ (core0.ctx core0.me).cmds = []) ∧
    (let s := core0.modCtx x0 fun c => { c with cmds := [anyMat 5] }
     Starts (.mwait 63#6) s (begun s) false ∧ Starts (.mcons 5#6) s (begun s) false ∧ (s.ctx s.me).cmds = [anyMat 5] ∧ (anyMat 5).consumed = false) ∧
    (Starts .licreq core0 (begun core0) false ∧ Starts .licrel core0 (begun core0) false ∧ core0.sole (pairOf 0) = true) ∧
    (let s := twins (licensed core0)
     Starts .licreq s (begun s) false ∧ Starts .licrel s (begun s) false ∧ s.sole (pairOf 0) = false ∧ (s.ctx s.me).cmds = [] ∧
       (s.pair (pairOf 0)).lic.holder = some (requester 0 s.mySlot) ∧ (s.pair (pairOf 0)).lic.owner = requester 0 s.mySlot ∧
       (s.pair (pairOf 0)).lic.moving ≠ some (requester 0 s.mySlot) ∧ (s.pair (pairOf 0)).lic.st = 1) ∧
    (let s := (twins core0).modLic 0 fun l => { l with st := 3, owner := requester 0 0, holder := some 4 }
     Starts .licrel s (begun s) false ∧ s.sole (pairOf 0) = false ∧ (s.pair (pairOf 0)).lic.owner = requester 0 s.mySlot ∧
       (s.pair (pairOf 0)).lic.st = 3) ∧
    (Starts (.fmtset 2#3 0#5) core0 (begun core0) false ∧ core0.rd 0#5 = 0#64) ∧
    (let s := withX core0 4 (2 ^ 63)
     Starts (.fmtset 2#3 4#5) s (begun s) false ∧ s.rd 4#5 ≠ 0#64 ∧ (customFmt (s.rd 4#5)).isSome = false ∧ s.pendingReqs = false) ∧
    mon0.monitor = true ∧ mon0.focus.compute = true ∧ tget none (mon0.tile 0).slots 0 = some x0 ∧ mon0.accBusy 0 3 = false ∧
      mon0.my.killLater = none ∧ 3 ∉ (mon0.ctx x0).saveBad :=
  ⟨⟨starts _ (by decide +kernel), starts _ (by decide +kernel), by decide +kernel⟩,
   ⟨starts _ (by decide +kernel), starts _ (by decide +kernel), by decide +kernel⟩,
   ⟨starts _ (by decide +kernel), starts _ (by decide +kernel), by decide +kernel⟩,
   ⟨starts _ (by decide +kernel), starts _ (by decide +kernel), by decide +kernel⟩,
   ⟨starts _ (by decide +kernel), by decide +kernel⟩, ⟨starts _ (by decide +kernel), by decide +kernel⟩,
   ⟨starts _ (by decide +kernel), by decide +kernel⟩, by decide +kernel⟩

end Sys2Proof.Tests
end

