-- ==== Sys2Proof/Tests/WitnessEngines.lean ====
section
/-! SUPPORT. Witnesses: a concrete state and operands that meet the hypotheses of each clause of the statements about requests,
publications, folds and the engines of a tile. -/

namespace Sys2Proof.Tests

open Sys2Proof Sys2Proof.Machine

set_option Elab.async false

/-- A load of c5, and one whose value is there, and an atomic. -/
def loadReq : Req := { kind := .scalar 5#5 8 false, v := 0, va := 2 ^ 55 + 0x10000, want := placesAt (2 ^ 55 + 0x10000) 8 }
def doneReq : Req := { loadReq with want := [], done := some (.value 7 false 0) }
def atomReq : Req := { kind := .atomic 5#5 0 8 1 0 0, v := 0, va := 2 ^ 55 + 0x10000, want := [] }
def asks (q : Req) : State := core0.modCore kc fun c => { c with reqs := [(0, some q)] }
def engReq : EngReq := { who := kc, id := 0, line := (2 ^ 55 + 0x10000) / 64, arrival := 0, src := 0, org := 0 }
def atEngine : State := (asks atomReq).modCluster 0 fun c => { c with engQ := [engReq] }
def storeScr : Scr := { h := 1, off := 0, n := 8, op := .store 5 }
def loadScr : Scr := { h := 1, off := 0, n := 8, op := .load 5#5 }

theorem witness_RequestsCompleteAtTheirCore :
    (let s := asks loadReq
     tget none (s.core kc).reqs 0 = some loadReq ∧ loadReq.done = none ∧
       gatherOk (gather s (s.corePart kc) (ctxRegion (coreCtx kc)) loadReq.v (.request kc 0) loadReq.got false loadReq.want).1 = true) ∧
    (tget none ((asks doneReq).core kc).reqs 0 = some doneReq ∧ doneReq.kind = .scalar 5#5 8 false ∧ doneReq.done = some (.value 7 false 0)) ∧
    (let c : Req := { doneReq with kind := .cap 5#5 true }
     let v : Req := { doneReq with kind := .vector 5#5 1#8 0 0 }
     let p : Req := { doneReq with kind := .atomic 6#5 10 16 1 0 0 }
     tget none ((asks c).core kc).reqs 0 = some c ∧ tget none ((asks v).core kc).reqs 0 = some v ∧ tget none ((asks p).core kc).reqs 0 = some p ∧
       ((asks p).core kc).killLater = none) ∧
    (let s := atEngine
     (s.cluster 0).engQ = [engReq] ∧ engReq.cxl = none ∧ engReq.copy = none ∧ tget none (s.core kc).reqs 0 = some atomReq ∧ atomReq.done = none ∧
       (s.cluster 0).engTick ≠ some s.tick ∧
       (engineAct (s.modCluster 0 fun c => { c with engTick := some s.tick, engQ := [], engPtr := c.engPtr }) 0 (s.corePart kc) (ctxRegion (coreCtx kc)) atomReq.va 8
         (fun old => atomNew 0 8 old 1 0) 0 (.request kc 0)).1.isSome = true) ∧
    (let s := atEngine.modCluster 0 fun c => { c with engTick := some 0 }
     (s.cluster 0).engQ ≠ [] ∧ (s.cluster 0).engTick = some s.tick) ∧
    (let q : Req := { atomReq with done := some (.value 7 false 9) }
     let s := (asks q).modCore kc fun c => { c with stall := .reply 0 }
     tget none (s.core kc).reqs 0 = some q ∧ (s.core kc).killLater = none ∧ (s.core kc).stall = .reply 0 ∧ (asks q).my.stall ≠ .reply 0) ∧
    (devHalf (2 ^ 55 + 0x10000) = true ∧
      (translate core0 (core0.corePart kc) (2 ^ 55 + 0x10000) .load (ctxRegion (coreCtx kc)) (core0.core kc).view .device).1 = .ok 0x10000 ∧
      ((translate core0 (core0.corePart kc) (2 ^ 55 + 0x10000) .load (ctxRegion (coreCtx kc)) (core0.core kc).view .device).2.slice
        (core0.homeOf (core0.corePart kc) (2 ^ 55 + 0x10000))).chains.length + 1 ≤ lineRoom) ∧
    (let q : Req := { loadReq with refills := [1024] }
     let s := (asks q).modCtx x0 fun c => { c with trailFrames := [3] }
     (s.ctx (coreCtx kc)).trailFrames ≠ [] ∧ tget none (s.core kc).reqs 0 = some q ∧ ∀ i ∈ q.refills, i / 2 = 512) ∧
    (let es : List TrailEntry := [{ g := 1, mask := 1#16, data := 0#128, tag := false }]
     let s := core0.modCore kc fun c => { c with stall := .trail es }
     (s.core kc).stall = .trail es ∧ newGranules (s.core kc).trail es ≤ s.trailRoom kc) ∧
    (let es : List TrailEntry := [{ g := 1, mask := 1#16, data := 0#128, tag := false }]
     let s := core0.modCore kc fun c =>
       { c with stall := .trail es, sealedSegs := [{ pub := 0, stamp := mkStamp 1 0, entries := List.replicate 512 { g := 0, mask := 1#16, data := 0#128, tag := false } }] }
     (s.core kc).stall = .trail es ∧ s.trailRoom kc < newGranules (s.core kc).trail es) ∧
    (let s := handled.modCore kc fun c => { c with stall := .scratch storeScr }
     let t := handled.modCore kc fun c => { c with stall := .scratch loadScr }
     let u := handled.modCore kc fun c => { c with stall := .scratch { loadScr with op := .loadV 5#5 1#8 } }
     (u.core kc).stall = .scratch { loadScr with op := .loadV 5#5 1#8 } ∧ (u.handle x0 1).st = 1 ∧
       (s.core kc).stall = .scratch storeScr ∧ (t.core kc).stall = .scratch loadScr ∧ s.overlaps x0 1 0 8 = [] ∧ (s.handle x0 1).st = 1 ∧
       badIn (s.handle x0 1) 0 8 = false) ∧
    (let s := covered.modCore kc fun c => { c with stall := .scratch loadScr }
     (s.core kc).stall = .scratch loadScr ∧ s.overlaps x0 1 0 8 ≠ []) ∧
    (tget none (covered.tile 0).board 0).any (fun e => e.kind == 1) = true := by
  decide +kernel

theorem witness_SegmentsArePublished :
    (let s := publishing (pubOf .sent 20000)
     (s.pub 0) = some (pubOf .sent 20000) ∧ (tget none (pubOf .sent 20000).shares 0).any (fun h => h.st == .sent) = true ∧
       ¬ (pubOf .sent 20000).stamp ≤ s.frontier 0) ∧
    (let s := publishing (pubOf .sent 1)
     (s.pub 0) = some (pubOf .sent 1) ∧ (pubOf .sent 1).stamp ≤ s.frontier 0) ∧
    ((publishing (pubOf .delayed 20000)).shareAt 0 0 = some .delayed ∧ (pubOf .delayed 20000).withdrawn = false) ∧
    (((pubOf .accepted 20000).allShares fun x => x == .accepted) = true ∧ (pubOf .accepted 20000).committed = false) ∧
    (((pubOf .rejected 20000).allShares fun x => x == .rejected) = true ∧ (publishing (pubOf .rejected 20000)).mayStamp kc = true) ∧
    (publishing (pubOf .accepted 20000)).shareAt 0 0 = some .accepted ∧
    (let p : Pub := { pubOf .committed 20000 with committed := true }
     let s := publishing p
     s.pub 0 = some p ∧ p.published = false ∧ (p.allShares fun x => x == .committed || x == .folded) = true ∧ p.after = .again ∧
       (s.core p.core).stall = .release 0 ∧ (s.core p.core).killed = .no ∧ (s.core p.core).held = []) := by
  decide +kernel

/-- As many versions of a line as a store has room for. -/
def fullChain : Chain :=
  { base := 0#512, tags := 0#4, writes := List.replicate versionRoom { stamp := 7, mask := 1#64, data := 0#512, tags := 0#4, region := 1 } }

/-- Slice 0's store is full of versions. -/
def fullStore (s : State) : State := s.modSlice 0 fun l =>
  { l with chains := [(0, some fullChain)] }

theorem fullStore_kept (s : State) : versionRoom ≤ ((fullStore s).slice 0).kept := by
  have h : ((fullStore s).slice 0).chains = [(0, some fullChain)] := by
    unfold fullStore; rw [State.modSlice_slice]; simp
  simp [Slice.kept, h, fullChain]

def staged (f : Stamp) : State :=
  let s := core0.modSlice 0 fun l => { l with staging := [(0, some { old := 0, new := 65536, pteAt := 0x10000, flip := some f })] }
  s.modPart 0 fun q => { q with floor := mkStamp 50 0 }

theorem witness_FoldsAndFrontierAdvance :
    (let p : Pub := { pubOf .committed 900 with committed := true }
     let s := publishing p
     s.foldable 0 = some 0 ∧ s.pub 0 = some p ∧ ((s.slice 0).kept + 1 ≤ versionRoom) ∧ Tbl.wf none (s.slice 0).chains = true ∧
       (tget none p.shares 0).any (fun h => !h.begun && !h.writes.isEmpty && h.pages.isEmpty && !h.writes.any (·.tag) &&
         h.writes.all fun e => e.g / 4 == (2 ^ 55 + 0x10000) / 64) = true ∧
       (translateClean (s.readHeld p.part 0 0) p.part (64 * ((2 ^ 55 + 0x10000) / 64)) .store p.region p.stamp .device).1 = .ok 0x10000) ∧
    (let s := fullStore (publishing { pubOf .committed 900 with committed := true })
     s.foldable 0 = some 0 ∧ versionRoom ≤ (s.slice 0).kept ∧ (s.part 0).pressure = none) ∧
    (core0.part 0).enabled = true ∧
    (let s := staged (mkStamp 50 0)
     (tget none (s.slice 0).staging 0).any (fun g => g.flip == some (mkStamp 50 0)) = true ∧
       mkStamp 50 0 ≤ (s.part (((s.cluster 0).part).getD 0)).floor) ∧
    (let s := staged (mkStamp 51 0)
     (tget none (s.slice 0).staging 0).any (fun g => g.flip == some (mkStamp 51 0)) = true ∧
       (s.part (((s.cluster 0).part).getD 0)).floor < mkStamp 51 0) ∧
    core0.horizonDue kc = false ∧ core0.pressureDue kc = false ∧
    (let s := core0.modPart 0 fun q => { q with fp := mkStamp (2 ^ 32 + 1) 0 }
     s.horizonDue kc = true) ∧
    (let s := core0.modPart 0 fun q => { q with fp := mkStamp 3 0, pressure := some (mkStamp 2 0) }
     s.pressureDue kc = true) :=
  ⟨by decide +kernel, ⟨by decide +kernel, fullStore_kept _, by decide +kernel⟩, by decide +kernel, by decide +kernel, by decide +kernel,
   by decide +kernel, by decide +kernel, by decide +kernel, by decide +kernel⟩

end Sys2Proof.Tests
end

