-- ==== Sys2Proof/Tests/WitnessMemory.lean ====
section
/-! SUPPORT. Witnesses: a concrete state and operands that meet the hypotheses of each clause of the statements about loads, stores,
atomics, releases and acquires. -/

namespace Sys2Proof.Tests

open Sys2Proof Sys2Proof.Machine

set_option Elab.async false

/-- Entries of granules far from the capability's. -/
def farEntries (n : Nat) : List TrailEntry := (List.range n).map fun i => { g := i, mask := 1#16, data := 0#128, tag := false }

/-- The store of stored0 with 1,024 newer entries, so that it is spilled. -/
def spilled0 : State := withMy cap0 fun c =>
  { c with
    trail := farEntries 1024
    sealedSegs := [{ pub := 0, stamp := mkStamp 1 0, entries := trailAddAll [] (granuleWrites (2 ^ 55 + 0x10FF8) 8 5 false) }] }

theorem witness_LoadsReadTheirVersion :
    (let s := cap0
     loadForm (.ld64Literal 3#5 4#5 4088#64) s = some (4#5, 4088, 8, .scalar 3#5 8 false, false, false) ∧
       Starts (.ld64Literal 3#5 4#5 4088#64) s (begun s) false ∧
       checkCap (s.rc 4#5) ((s.rc 4#5).addr + 4088) 8 8 { l := true } = none ∧ s.freeSlot = some 0 ∧
       wantedBytes s.my (placesAt ((s.rc 4#5).addr + 4088) 8) ≠ []) ∧
    (let s := stored0
     loadForm (.ld64Literal 3#5 4#5 4088#64) s = some (4#5, 4088, 8, .scalar 3#5 8 false, false, false) ∧
       Starts (.ld64Literal 3#5 4#5 4088#64) s (begun s) false ∧
       checkCap (s.rc 4#5) ((s.rc 4#5).addr + 4088) 8 8 { l := true } = none ∧ s.freeSlot = some 0 ∧ s.monitor = false ∧
       wantedBytes s.my (placesAt ((s.rc 4#5).addr + 4088) 8) = [] ∧
       s.my.refills ((placesAt ((s.rc 4#5).addr + 4088) 8).map (·.2)) = []) ∧
    let s := spilled0
    Starts (.ld64Literal 3#5 4#5 4088#64) s (begun s) false ∧ s.freeSlot = some 0 ∧
      s.my.refills ((placesAt ((s.rc 4#5).addr + 4088) 8).map (·.2)) = [1024] :=
  ⟨⟨by decide +kernel, starts _ (by decide +kernel), by decide +kernel⟩, ⟨by decide +kernel, starts _ (by decide +kernel), by decide +kernel⟩,
   starts _ (by decide +kernel), by decide +kernel⟩

theorem witness_StoresAppendToTheTrail :
    let s := cap0
    let es := granuleWrites ((s.rc 4#5).addr + 4088) 8 0 false
    storeForm (.st64Literal 3#5 4#5 4088#64) s = some (4#5, 4088, 8, 0, false, { s := true }) ∧
      Starts (.st64Literal 3#5 4#5 4088#64) s (begun s) false ∧ s.monitor = false ∧ s.my.prog.step = 0 ∧ s.my.prog.rel = none ∧
      checkCap (s.rc 4#5) ((s.rc 4#5).addr + 4088) 8 8 { s := true } = none ∧
      newGranules s.my.trail es ≤ s.segRoom s.myKey ∧ newGranules s.my.trail es ≤ s.trailRoom s.myKey :=
  ⟨by decide +kernel, starts _ (by decide +kernel), by decide +kernel⟩

theorem witness_StoredBytesAreForwarded : 1 ≤ 16 ∧ 16 ≤ 16 ∧ 0 < 16 := by decide

theorem witness_ScalarAccessesTrapOrStall :
    (let s := core0
     loadForm (.ld64 3#5 4#5 0#11) s = some (4#5, 0, 8, .scalar 3#5 8 false, false, false) ∧
       Starts (.ld64 3#5 4#5 0#11) s (begun s) false ∧ s.monitor = false ∧ s.pendingReqs = false ∧
       (checkCap (s.rc 4#5) (s.rc 4#5).addr 8 8 { l := true }).isSome = true) ∧
    (let s := cap0
     storeForm (.st64Literal 3#5 4#5 4089#64) s = some (4#5, 4089, 8, 0, false, { s := true }) ∧
       Starts (.st64Literal 3#5 4#5 4089#64) s (begun s) false ∧
       (checkCap (s.rc 4#5) ((s.rc 4#5).addr + 4089) 8 8 { s := true }).isSome = true) ∧
    (let s := withC core0 4 (mkCap 0x10000 0x10000 64 6 15)
     (storeForm (.stc 4#5 4#5 0#11) s).any (fun r => r.2.2.2.2.1) = true ∧ Starts (.stc 4#5 4#5 0#11) s (begun s) false ∧
       checkCap (s.rc 4#5) (s.rc 4#5).addr 16 16 { s := true, k := true } = none ∧ devHalf (s.rc 4#5).addr = false) ∧
    (let s := withMy cap0 fun c => { c with trail := farEntries 256 }
     let es := granuleWrites (s.rc 4#5).addr 8 0 false
     Starts (.st64 3#5 4#5 0#11) s (begun s) false ∧ s.pendingReqs = false ∧ s.my.prog.step = 0 ∧ s.my.prog.rel = none ∧
       checkCap (s.rc 4#5) (s.rc 4#5).addr 8 8 { s := true } = none ∧ s.autorel s.myRegion = false ∧
       s.segRoom s.myKey < newGranules s.my.trail es) ∧
    let s := withMy cap0 fun c => { c with sealedSegs := [{ pub := 0, stamp := mkStamp 1 0, entries := farEntries 512 }] }
    let es := granuleWrites (s.rc 4#5).addr 8 0 false
    Starts (.st64 3#5 4#5 0#11) s (begun s) false ∧ s.my.prog.step = 0 ∧ s.my.prog.rel = none ∧
      newGranules s.my.trail es ≤ s.segRoom s.myKey ∧ s.trailRoom s.myKey < newGranules s.my.trail es :=
  ⟨⟨by decide +kernel, starts _ (by decide +kernel), by decide +kernel⟩, ⟨by decide +kernel, starts _ (by decide +kernel), by decide +kernel⟩,
   ⟨by decide +kernel, starts _ (by decide +kernel), by decide +kernel⟩, ⟨starts _ (by decide +kernel), by decide +kernel⟩,
   starts _ (by decide +kernel), by decide +kernel⟩

/-- The vector that ldv reads lies in the own trail; and the unit asleep in a cluster that reserves for it. -/
def vecStored : State := withMy (withC vec0 4 capAt) fun c => { c with trail := (List.range 8).map fun i =>
  { g := (2 ^ 55 + 0x10F80) / 16 + i, mask := 0xFFFF#16, data := 5#128, tag := false } }
def vecRested : State := ((withC vec0 4 capAt).modTile 0 fun t => { t with vecAsleep := true }).modCluster 0 fun c => { c with vec := true }

theorem witness_VectorAccessesReachMemory :
    (let s := withC vec0 4 capAt
     Starts (.ldv 3#5 4#5 3968#32 1#8 none) s (begun s) false ∧ s.freeSlot = some 0 ∧ s.vecRests = false ∧
       (vloadForm (.ldv 3#5 4#5 3968#32 1#8 none) s).any (fun r => r.2.2.2.2.1 && r.2.2.2.2.2.isNone &&
         !(wantedBytes s.my (vplaces r.2.2.1 (r.2.2.1.live s r.2.2.2.1))).isEmpty) = true) ∧
    (let s := vecStored
     Starts (.ldv 3#5 4#5 3968#32 1#8 none) s (begun s) false ∧ s.freeSlot = some 0 ∧ s.vecRests = false ∧
       (vloadForm (.ldv 3#5 4#5 3968#32 1#8 none) s).any (fun r => r.2.2.2.2.1 && r.2.2.2.2.2.isNone &&
         (wantedBytes s.my (vplaces r.2.2.1 (r.2.2.1.live s r.2.2.2.1))).isEmpty &&
         (s.my.refills ((vplaces r.2.2.1 (r.2.2.1.live s r.2.2.2.1)).map (·.2))).isEmpty) = true) ∧
    (let s := vecRested
     Starts (.ldv 3#5 4#5 3968#32 1#8 none) s (begun s) false ∧ s.vecRests = true ∧
       (vloadForm (.ldv 3#5 4#5 3968#32 1#8 none) s).any (fun r => r.2.2.2.2.1 && r.2.2.2.2.2.isNone) = true) ∧
    let s := withC vec0 4 capAt
    Starts (.stv 4#5 4#5 3968#32 none) s (begun s) false ∧ s.my.prog.step = 0 ∧ s.my.prog.rel = none ∧ s.vecRests = false ∧
      (vstoreForm (.stv 4#5 4#5 3968#32 none) s).any (fun r => r.2.1 && r.2.2.isNone && decide (newGranules s.my.trail r.1 ≤ s.segRoom s.myKey) &&
        decide (newGranules s.my.trail r.1 ≤ s.trailRoom s.myKey)) = true :=
  ⟨⟨starts _ (by decide +kernel), by decide +kernel⟩, ⟨starts _ (by decide +kernel), by decide +kernel⟩,
   ⟨starts _ (by decide +kernel), by decide +kernel⟩, starts _ (by decide +kernel), by decide +kernel⟩

theorem witness_AtomicsStandBeforeTheirEngine :
    (let s := cap0
     Starts (.atomAdd .acq false 3#5 4#5 5#5) s (begun s) false ∧ Starts (.atomAdd .plain false 3#5 4#5 5#5) s (begun s) false ∧
       (atomForm (.atomAdd .acq false 3#5 4#5 5#5) s).isSome = true ∧ s.monitor = false ∧ s.my.prog.step = 0 ∧
       checkCap (s.rc 4#5) (s.rc 4#5).addr 8 8 { l := true, s := true } = none ∧ s.freeSlot = some 0 ∧ s.duplex s.myRegion = false) ∧
    (let s := withMy cap0 fun c => { c with prog := { c.prog with rel := some 7 } }
     Starts (.atomAdd .ar false 3#5 4#5 5#5) s (begun s) false ∧ Starts (.atomAdd .rel false 3#5 4#5 5#5) s (begun s) false ∧
       s.my.prog.step = 0 ∧ s.freeSlot = some 0 ∧ s.my.prog.rel = some 7) ∧
    (let s := withMy cap0 fun c => { c with prog := { c.prog with step := 2 } }
     Starts (.atomAdd .acq false 3#5 4#5 5#5) s (begun s) false ∧ s.monitor = false ∧ s.my.prog.step = 2) ∧
    let s := withMy cap0 fun c => { c with prog := { c.prog with step := 1 } }
    Starts (.atomAdd .acq false 3#5 4#5 5#5) s (begun s) false ∧ s.monitor = false ∧ s.my.prog.step = 1 :=
  ⟨⟨starts _ (by decide +kernel), starts _ (by decide +kernel), by decide +kernel⟩,
   ⟨starts _ (by decide +kernel), starts _ (by decide +kernel), by decide +kernel⟩,
   ⟨starts _ (by decide +kernel), by decide +kernel⟩, starts _ (by decide +kernel), by decide +kernel⟩

theorem witness_EnginesActOnTheNewestVersion :
    let q := translate core0 0 (2 ^ 55 + 0x10FF8) .atomic 1 (mkStamp (core0.tick + 1) 0) .device
    q.1 = .ok 0x10FF8 ∧ devHalf (2 ^ 55 + 0x10FF8) = true ∧ q.2.poisoned (q.2.part 0) 0x10FF8 = false ∧
      q.2.privateAt 0 0x10FF8 = false := by
  decide +kernel

theorem witness_FiguresAreRead :
    (Starts (.tstamp 3#5) core0 (begun core0) false ∧ (readResult (.tstamp 3#5) core0).isSome = true ∧ core0.my.prog.step ≠ 1) ∧
    (Starts (.licq 3#5) mon0 (begun mon0) false ∧ (readResult (.licq 3#5) mon0).isSome = true ∧ mon0.monitor = true) ∧
    Starts .nop core0 (begun core0) false ∧ Starts .sigchk core0 (begun core0) false :=
  ⟨⟨starts _ (by decide +kernel), by decide +kernel⟩, ⟨starts _ (by decide +kernel), by decide +kernel⟩,
   starts _ (by decide +kernel), starts _ (by decide +kernel)⟩

theorem witness_GethdlReadsTheNewestEntry :
    let s := withX tabled 4 0xFFFF
    Starts (.gethdl 3#5 4#5) s (begun s) false ∧
      ((readNewest (begun s) (s.region s.myRegion).part s.myRegion (.core s.myKey) ((s.region s.myRegion).blk.htab + 16 * ((s.rd 4#5).toNat % 256)) 8).1 |> readOk) = true :=
  ⟨starts _ (by decide +kernel), by decide +kernel⟩

theorem witness_ReleasesEndOrSeal :
    (let s := core0
     Starts (.rel 0#5) s (begun s) false ∧ s.my.prog.rel = none ∧ s.releaseReady s.myKey = true ∧ s.duplex s.myRegion = false ∧
       s.heldOf s.myKey = [] ∧ s.my.trail = [] ∧ s.my.held = [] ∧ s.my.leaving = []) ∧
    let s := stored0
    Starts (.rel 0#5) s (begun s) false ∧ s.my.prog.rel = none ∧ s.releaseReady s.myKey = true ∧ s.duplex s.myRegion = false ∧
      s.heldOf s.myKey = [] ∧ s.my.trail ≠ [] ∧ s.mayStamp s.myKey = true ∧
      (translatePages (begun s) (s.corePart s.myKey) s.myRegion (mkStamp s.tick (s.originOf s.myKey)) (.core s.myKey) s.my.trail (pagesOf s.my.trail)).1 = none :=
  ⟨⟨starts _ (by decide +kernel), by decide +kernel⟩, starts _ (by decide +kernel), by decide +kernel⟩

theorem witness_AcquiresAdvanceTheView :
    (Starts .acqa core0 (begun core0) false ∧ core0.my.prog.step ≠ 1) ∧
    (Starts (.acq 4#5 5#5) cap0 (begun cap0) false ∧ cap0.my.prog.step ≠ 1 ∧ (cap0.rd 5#5).toNat = 0) ∧
    (let s := withX cap0 5 64
     Starts (.acq 4#5 5#5) s (begun s) false ∧ s.my.prog.step ≠ 1 ∧ (s.rd 5#5).toNat = 64 ∧
       checkCap (s.rc 4#5) (s.rc 4#5).addr (4 * 64) 4 { l := true } = none ∧
       gatherOk (readOwn (begun s) (s.rc 4#5).addr (4 * 64)).1 = true) ∧
    (let s := withMy core0 fun c => { c with prog := { c.prog with step := 1, rel := some 7 } }
     Starts (.acq 4#5 5#5) s (begun s) false ∧ Starts .acqa s (begun s) false ∧ Starts (.phase 0#5) s (begun s) false ∧
       s.my.prog.step = 1 ∧ s.my.prog.rel ≠ none) ∧
    (let s := withMy core0 fun c => { c with prog := { c.prog with rel := some 7 } }
     Starts (.phase 0#5) s (begun s) false ∧ s.my.prog.step ≠ 1 ∧ s.my.prog.rel ≠ none) ∧
    (let s := withMy core0 fun c => { c with stall := .fp 0 .retire }
     (s.core kc).due = none ∧ (s.core kc).stall = .fp 0 .retire ∧ 0 ≤ s.fpOf kc) ∧
    let s := withMy core0 fun c => { c with stall := .fp 1 .retire }
    (s.core kc).due = none ∧ (s.core kc).stall = .fp 1 .retire ∧ s.fpOf kc < 1 :=
  ⟨⟨starts _ (by decide +kernel), by decide +kernel⟩, ⟨starts _ (by decide +kernel), by decide +kernel⟩,
   ⟨starts _ (by decide +kernel), by decide +kernel⟩,
   ⟨starts _ (by decide +kernel), starts _ (by decide +kernel), starts _ (by decide +kernel), by decide +kernel⟩,
   ⟨starts _ (by decide +kernel), by decide +kernel⟩, by decide +kernel, by decide +kernel⟩

theorem witness_PrefAsksAndNeverTraps :
    (let c := cap0.rc 4#5
     Starts (.pref 4#5 0#5) cap0 (begun cap0) false ∧ devHalf c.addr = true ∧ checkCap c c.addr 64 1 { l := true } = none) ∧
    Starts (.pref 4#5 0#5) core0 (begun core0) false ∧ devHalf (core0.rc 4#5).addr = false :=
  ⟨⟨starts _ (by decide +kernel), by decide +kernel⟩, starts _ (by decide +kernel), by decide +kernel⟩

end Sys2Proof.Tests
end

