-- ==== Sys2Proof/Tests/WitnessModule.lean ====
section
/-! SUPPORT. Witnesses: a concrete state and operands that meet the hypotheses of each clause of the statements about faults,
translations, stacks, partitions, clocks, windows and attestation. -/

namespace Sys2Proof.Tests

open Sys2Proof Sys2Proof.Machine

set_option Elab.async false

/-- Core 0 with one deferred trap pending. -/
def pend0 : Pending := { cause := Cause.copyFault.code, va := 0, info := 0 }
def digests (d e : W64) : State := core0.modCore kc fun c => { c with stall := .duplex, digests := [d, e] }
/-- A message of core 0 to its own tile. -/
def msgTo0 : Msg := { region := 1, target := 0, hdl := 0#8, kind := .send, source := kc, sender := 0, payload := [] }
/-- A kill in every cluster within 256 ticks. -/
def killed121 : State := { core0 with killTicks := (List.range 121).map fun cl => (0, (clusterSites cl).headD 0) }

/-- The third run's digest beside two that differ. -/
def third (f : W64) : State := (digests 1#64 2#64).modCore kc fun c => { c with digests := [1#64, 2#64, f] }

theorem witness_FaultsAreHandled :
    (let s := { core0.modRegion 1 fun g => { g with blk := { g.blk with watchdog := 5 } } with tick := 5 }
     s.watchdogDue 1 = true ∧ (s.region 1).parent = none ∧ (s.region 1).launched = true ∧ core0.watchdogDue 1 = false) ∧
    (let s := core0.modCore kc fun c => { c with pend := [pend0] }
     s.running 0 = some x0 ∧ (s.ctx x0).site = 0 ∧ lowestPending (s.core (coreKey x0 true)).pend = some pend0 ∧ (s.mcore ⟨0, true⟩).mode = false ∧
       (s.core (coreKey x0 true)).stall = .none ∧ ((s.core (coreKey x0 true)).reqs.all fun e => e.2.isNone) = true) ∧
    (let s := mon0.modCluster 0 fun c => { c with edges := 2 ^ 20 }
     (s.mcore ⟨0, true⟩).mode = true ∧ (s.mcore ⟨0, true⟩).entered + 2 ^ 20 ≤ s.edgesAt 0 ∧ mon0.edgesAt 0 < (mon0.mcore ⟨0, true⟩).entered + 2 ^ 20) ∧
    ((core0.core kc).act = some loadAct ∧ core0.inAct kc = false ∧ (core0.ctx x0).st ≠ 2 ∧ (core0.ctx x0).coming = false ∧
      (core0.core kc).stall = .none) ∧
    (let s := (publishing { pubOf .committed 1 with committed := true }).modCore kc
       fun c => { c with held := [msgTo0] }
     (s.core kc).stall = .release 0 ∧ ((s.pub 0).any fun p => p.committed) = true ∧ s.inAct kc = false ∧ (s.core kc).act = some loadAct) ∧
    (let s := core0.modCtx x0 fun c => { c with st := 2 }
     (s.ctx (coreCtx kc)).st = 2) ∧
    (let s := core0.modCore kc fun c => { c with prog := { c.prog with act := true, rel := some 7 } }
     s.inAct kc = true) ∧
    ((digests 1#64 1#64).core kc).stall = .duplex ∧ ((digests 1#64 1#64).core ks).stall = .none ∧ ((digests 1#64 2#64).core kc).digests = [1#64, 2#64] ∧
      (digests 1#64 2#64).inAct kc = false ∧ ((digests 1#64 2#64).core kc).act = some loadAct ∧ ((digests 1#64 2#64).ctx x0).st ≠ 2 ∧
      ((digests 1#64 2#64).ctx x0).coming = false ∧
    ((third 2#64).core kc).digests = [1#64, 2#64, 2#64] ∧ (third 3#64).inAct kc = false ∧ ((third 3#64).core ks).stall = .none ∧
      ((third 3#64).region 1).st = 0 ∧
    (let s := { core0 with drains := [(0, some (.ctx x0 0 0)), (1, some .checkpoint)] }
     tget none s.drains 0 = some (.ctx x0 0 0) ∧ s.drainReady (.ctx x0 0 0) = true ∧ s.drainReady .checkpoint = false) ∧
    (let s := core0.modCtx x0 fun c => { c with st := 2 }
     s.drainReady .checkpoint = true ∧ s.drainReady (.disable 0) = true ∧ (s.part 0).enabled = true ∧ s.allEnded 0 = false ∧
       (s.modRegion 1 fun g => { g with st := 3 }).allEnded 0 = true) ∧
    (let s := (core0.modCtx x0 fun c => { c with st := 2 }).modCluster 1 fun c => { c with ready := 1 }
     let d : State := { s with drains := [(0, some (.cluMove 0 1 true))] }
     d.drainReady (.cluMove 0 1 true) = true ∧ (d.part 0).enabled = true ∧ ({ d with drains := [] } : State).clusterTaken 121 1 = false ∧
       (d.cluster 1).ready = 1 ∧ d.clusterTaken 121 1 = true ∧ (d.cluster 2).ready ≠ 1) ∧
    (let s := { core0.modCore kc fun c => { c with reqs := [(0, some { kind := .scalar 5#5 8 false, v := 0, va := 0, want := [] })] }
                with drains := [(0, some (.ctx x0 0 0))] }
     s.drainReady (.ctx x0 0 0) = false) ∧
    (let s := core0.modCluster 3 fun c => { c with viral := true }
     (s.cluster 3).viral = true ∧ (core0.cluster 3).viral = false) ∧
    (let s := (core0.modRegion 1 fun g => { g with st := 2 }).modCore kc fun c => { c with killed := .held }
     (s.region 1).launched = true ∧ (s.region 1).st = 2 ∧ ctxRegion (coreCtx kc) = 1 ∧ (s.core kc).killed = .held ∧ (core0.region 1).st ≠ 2) ∧
    killed121.glideDue = true ∧ core0.glideDue = false ∧
    (let s := { core0.modTile 0 fun t => { t with matHeld := some 0 } with tick := 256 }
     s.glideDue = false ∧ (s.tile 0).matHeld = some 0 ∧ 0 + 256 ≤ s.tick ∧ core0.tick < 0 + 256) ∧
    (let s := { core0 with glide := some (7, 0), tick := 6750 }
     s.glide = some (7, 0) ∧ 0 + 6750 ≤ s.tick ∧ core0.tick < 0 + 6750) ∧
    (let s := core0.modCore kc fun c => { c with killed := .ready, ckpt := some { pc := 64, regs := [], sig := {} } }
     (s.core kc).killed = .ready ∧ s.mayRestart kc = true ∧ (s.core kc).act = some loadAct ∧ (s.core kc).ckpt.isSome = true) := by
  repeat' refine And.intro (by decide +kernel) ?_
  decide +kernel

/-- A host page of region 1 under way, and one the host was asked to make resident. -/
noncomputable def hostReq (pri : Bool) : HostReq :=
  { part := 0, slice := 0, page := 5, access := .load, vf := some 0, waiting := [.request kc 0], pri := pri }
/-- A load of the core, and core 0's segment waiting for the page of an address, its region bound to VF 0. -/
def loadReq0 : Req := { kind := .scalar 5#5 8 false, v := 0, va := 0, want := [] }
def reqIn (q : Req) : State := core0.modCore kc fun c => { c with reqs := [(0, some q)] }
def waitAt (va : Nat) : State :=
  (core0.modVf 0 fun v => { v with port := 0, part := 0, root := (core0.region 1).blk.va, en := true }).modCore kc
    fun c => { c with waitPage := some ⟨va, .load⟩ }
def inval0 (d : Bool) : Inval := { part := 0, lo := 0, hi := 2 ^ 56, host := false, dropped := d }
def rowReq (w : Bool) : RimReq := { row := 3, write := w, region := some 1 }
def rows (o : Option OpenRow) (last : Option Bool) : State :=
  { core0.modChan 0 fun c => { c with rows := [(3, o)], queue := [rowReq true], lastWrite := last } with tick := 148 }

theorem witness_TranslationsAndStacksTakeTheirSteps :
    (let s := { core0 with hostReqs := [(0, some (hostReq false)), (1, some (hostReq true))] }
     tget none s.hostReqs 0 = some (hostReq false) ∧ (hostReq false).pri = false ∧ (hostReq false).queued = false ∧ (hostReq false).denied = [] ∧
       (hostReq false).access = .load ∧ tget none s.hostReqs 1 = some (hostReq true) ∧ (hostReq true).pri = true ∧ (hostReq true).vf.isSome = true ∧ (hostReq false).stale = false ∧
       (s.hostReqs.all fun e => e.2.all fun g => !g.queued) = true ∧
       (s.hostReqs.filter fun e => e.2.any fun g => g.part == 0 && g.pri).length < 256 ∧
       256 ≤ (({ core0 with hostReqs := List.replicate 256 (1, some (hostReq true)) } : State).hostReqs.filter
         fun e => e.2.any fun g => g.part == 0 && g.pri).length) ∧
    ((reqIn loadReq0).core kc).reqs = [(0, some loadReq0)] ∧
    (let s := waitAt (5 * 4096)
     let c : CopyCmd := { kind := .cpy false, q := 1, compute := true, h := 1, waitPage := some (5 * 4096) }
     let t := s.modCtx x0 fun x => { x with copyq := [(1, { cmds := [c] })] }
     (s.core kc).waitPage = some ⟨5 * 4096, .load⟩ ∧ s.corePart kc = 0 ∧ s.vfOf (ctxRegion (coreCtx kc)) = some 0 ∧
       devHalf (5 * 4096) = false ∧ (tget {} (t.ctx x0).copyq 1).cmds = [c] ∧ t.ctxPart x0 = 0) ∧
    (devHalf (2 ^ 55 + 5) = true ∧ ((waitAt (2 ^ 55 + 5)).core kc).waitPage = some ⟨2 ^ 55 + 5, .load⟩) ∧
    (let s := { core0 with invals := [(0, some (inval0 false)), (1, some (inval0 true))] }
     tget none s.invals 0 = some (inval0 false) ∧ s.noticeUnder (inval0 false) = false ∧ tget none s.invals 1 = some (inval0 true) ∧
       (inval0 false).covers ((hostReq false).page * 4096) 4096 false = true) ∧
    (publishing (pubOf .accepted 1)).noticeUnder (inval0 false) = true ∧
    ((core0.part 0).enabled = true ∧ 0xFFFFFF8 % 8 = 0 ∧ (core0.part 0).inside 0xFFFFFF8 (0xFFFFFF8 + 8) = true ∧
      (core0.part 0).inside 0x10000000 0x10000008 = false) ∧
    (let s := { core0.modCtx x0 fun c => { c with st := 2 } with hbm := [(47, 1)] }
     s.allStopped 0 = true ∧ s.failed = false ∧ (s.part 0).enabled = true ∧ core0.allStopped 0 = false ∧
       (((s.part 0).swap ++ (s.part 0).shadow).all fun f => frameOk { base := 0, pccount := 1, rimEn := true, pclist := [12287] } f) = true ∧
       (([0x20000000] : List Nat).all
         fun f => frameOk { base := 0, pccount := 1, rimEn := true, pclist := [12287] } f) = false ∧ s.rimpartOk 0 (BitVec.ofNat 64 (2 ^ 63 + 2 ^ 48)) [12287] = true ∧
       s.rimpartOk 0 (BitVec.ofNat 64 (2 ^ 63 + 2 ^ 48)) [12288] = false ∧ (s.part 0).inside 0xFFFFFFF (0xFFFFFFF + 1) = true) ∧
    core0.chanTaken 121 12287 = false ∧ core0.chanTaken 121 0 = true ∧
    (let s := rows none none
     (s.region 1).part = 0 ∧ (s.chan 0).queue = [rowReq true] ∧ tget none (s.chan 0).rows (bankOf 3) = none) ∧
    (let s := rows (some { row := 19, region := some 1, last := 0 }) none
     tget none (s.chan 0).rows (bankOf 3) = some { row := 19, region := some 1, last := 0 } ∧ s.rowIdle 0 3 = true) ∧
    (let s := rows (some { row := 3, region := some 1, last := 1 }) (some false)
     tget none (s.chan 0).rows (bankOf 3) = some { row := 3, region := some 1, last := 1 } ∧ (s.chan 0).lastWrite = some (!true) ∧ s.rowIdle 0 3 = false) ∧
    (let s := rows (some { row := 3, region := some 1, last := 1 }) (some true)
     (s.chan 0).lastWrite ≠ some (!true)) ∧
    (core0.chan 0).queue = [] := by
  repeat' refine And.intro (by decide +kernel) ?_
  decide +kernel

/-- A second cluster ready, and a disabled partition 1 that may take it with one channel. -/
def spare : State :=
  { (core0.modCluster 1 fun c => { c with ready := 1 }).modCtx x0 fun c => { c with st := 2 } with hbm := [(0, 1)] }
def rimpart1 : W64 := BitVec.ofNat 64 (2 ^ 63 + 2 ^ 48)
def twoClusters : State := spare.modPart 0 fun q => { q with clusters := [0, 1] }
def ended : State := core0.modRegion 1 fun g => { g with st := 3 }
def bound0 : State := core0.modVf 0 fun v => { v with port := 0, part := 0, root := (core0.region 1).blk.va, en := true }
/-- A root region's block, with its capability for code, weight, refill period and trail capacity, stands at the end of the page of the
table. -/
def rooted (x : Nat) : State :=
  { core0 with rim := rimPut (core0.part 0) core0.rim 0x40000 256 x, rimTags := [(0x4006, true)] }
def rootImage : Nat := loadCap.bits.toNat * 256 ^ 96 + 256 ^ 12 + 2700 * 256 ^ 48 + 16 * 256 ^ 56
def rootMeets (x : Nat) : Option Nat :=
  let s := rooted x
  (rootBlock (s.modRegion s.seq fun g => { g with part := 0 }) 0 s.seq (2 ^ 55 + 0x40000)).map fun b => refusedBlock b 0

theorem witness_PartitionManagerActs :
    (spare.configOk 1 [1] 7#8 rimpart1 [12] 270000 [0xFFF0000] [0] = true ∧ spare.configOk 1 [0] 7#8 rimpart1 [12] 270000 [] [] = false) ∧
    (spare.failed = false ∧ (spare.part 0).enabled = true ∧ spare.allStopped 0 = true ∧ spare.clusterTaken 121 1 = false ∧
      (spare.cluster 1).ready = 1 ∧ spare.clusterTaken 121 0 = true ∧ 1 ∈ (twoClusters.part 0).clusters ∧
      2 ≤ (twoClusters.part 0).clusters.length ∧ twoClusters.allStopped 0 = true ∧ 2 ∉ (spare.part 0).clusters) ∧
    ((ended.part 0).enabled = true ∧ ended.allEnded 0 = true ∧ core0.allEnded 0 = false ∧ ([0xFFF0000].all fun f => frameOk (core0.part 0) f) = true ∧
      ([0x10000000].all fun f => frameOk (core0.part 0) f) = false) ∧
    (core0.boundLive 1023 = false ∧ core0.regionAt 0 0 = none ∧ (core0.regionAt 0 (core0.region 1).blk.va).isSome = true ∧ bound0.boundLive 0 = true) ∧
    (let s := ended.modVf 0 fun v => { v with en := true, root := 1 }
     s.boundLive 0 = false ∧ (s.vf 0).en = true) ∧
    ((core0.part 0).failed = false ∧ core0.failed = false ∧ devHalf (2 ^ 55 + 0x40000) = true ∧ core0.regionAt 0 (2 ^ 55 + 0x40000) = none ∧
      rootMeets rootImage = some 0 ∧ rootMeets (rootImage + 1) = some 1) ∧
    (let s : State := { core0 with failed := true }
     s.failed = true ∧ s.configOk 1 [1] 7#8 rimpart1 [12] 270000 [] [] = false) ∧
    ((core0.vf 5).en = false ∧ (bound0.vf 0).en = true) ∧
    (let s := { core0 with tick := 2700000 }
     s.snapshotDue 0 = true ∧ core0.snapshotDue 0 = false) ∧
    (let s := core0.modCtx x0 fun c => { c with st := 2 }
     (s.part 0).clusters = [0] ∧ (s.cluster 0).cycles = [] ∧ (s.residents fun i => clusterOf i == 0) = []) ∧
    (let s := { bound0.modPart 0 fun q => { q with enperiod := 2700 } with tick := 2700 }
     (s.part 0).enFrom + (s.part 0).enperiod ≤ s.tick ∧ s.vfOf 1 = some 0 ∧ core0.tick < 0 + 2700) ∧
    (spare.framesInUse 1 = [] ∧ spare.held = [] ∧ spare.slices = []) := by
  decide +kernel

def image0 : Image := { rim := [], tags := [], ctxs := [], cores := [], regions := [], rings := [], slices := [(0, [], [65536], 0)] }

theorem witness_BringUpAndClocks :
    perCluster ≤ 128 ∧
    (128 = goodTiles (if (State.reset.cluster 120).ready = 0 then BitVec.allOnes 128 else (State.reset.cluster 120).pool &&& BitVec.allOnes 128) ∧
      (State.reset.cluster 120).ready = 0) ∧
    (let s := State.reset.modCluster 120 fun c => { c with ready := 3, pool := BitVec.allOnes 128 }
     128 = goodTiles (if (s.cluster 120).ready = 0 then BitVec.allOnes 128 else (s.cluster 120).pool &&& BitVec.allOnes 128) ∧
       (s.cluster 120).ready = 3) ∧
    tget 0 State.reset.hbm 47 = 0 ∧
    (let s := { State.reset with image := some image0 }
     s.image = some image0 ∧ (image0.slices.map (·.1)).Nodup ∧ image0.slices ≠ [] ∧ s.failed = false ∧ (s.ctxs.all fun e => e.2.st != 1 && e.2.st != 3) = true) ∧
    (core0.ctxs.all fun e => e.2.st != 1 && e.2.st != 3) = false ∧
    (let s := core0.modCtx x0 fun c => { c with st := 2 }
     63 / 4 = powerRegion 120 ∧ 3 / 4 = powerRegion 0 ∧ (s.ctxs.all fun e => (clusterOf e.2.site != 0 && e.2.shadow.all fun n => clusterOf (n / 4) != 0) || s.stopped e.1) = true ∧
       (core0.ctxs.all fun e => (clusterOf e.2.site != 0 && e.2.shadow.all fun n => clusterOf (n / 4) != 0) || core0.stopped e.1) = false) ∧
    0 < (core0.cluster 0).th ∧ (core0.cluster 0).th ≤ 40 ∧ 39 < (core0.cluster 0).th ∧
    (let s := core0.modCluster 0 fun c => { c with stretch := 1, halved := 1 }
     (s.cluster 0).stretch = 1 ∧ (s.cluster 0).halved = 1 ∧ (core0.cluster 0).stretch ≠ 1 ∧ (core0.cluster 0).halved ≠ 1) := by
  refine ⟨?_, by decide +kernel⟩
  unfold perCluster
  split <;> decide

/-- The window of a VF bound to region 1, with an entry of its host queue. -/
def window (x : Nat) : State :=
  let s := core0.modVf 0 fun v =>
    { v with port := 0, part := 0, root := (core0.region 1).blk.va, en := true, hqbase := 0x1004#64, hqhead := 15, hqtail := 0
             hdmva := 2 ^ 55 + 0x40000, hdmsize := 4096, hview := 0 }
  { s with host := twrite s.host (0x1000 + 128 * 15) 128 x }
def cxlReads (s : State) : Bool :=
  let q := translate s 0 (2 ^ 55 + 0x40FC0) .load 1 (mkStamp 0 0x1FFFF) .device
  match q.1 with
  | .ok pa => (q.2.readPa 0 (q.2.homeOf 0 (2 ^ 55 + 0x40FC0)) pa 64 true 1 (some (mkStamp 0 0x1FFFF))).1.isSome
  | _ => false

theorem witness_HostWindowsAct :
    ((bound0.vf 0).en = true ∧ (core0.vf 0).en = false) ∧
    (let s := window 0
     let f := s.vf 0
     let x := tread s.host (ringAt f.hqbase 15) 128
     s.rootLive 0 = some 1 ∧ ringOn f.hqbase = true ∧ s.inFlight (windowSource 0) = false ∧ f.hqhead % ringSize f.hqbase = 15 ∧
       15 ≠ f.hqtail % ringSize f.hqbase ∧ f.linkIn = [] ∧ f.route = none ∧ hqReserved x = false ∧ x / 2 ^ 40 % 2 = 0 ∧ x % 2 ^ 24 < s.gridSize 1) ∧
    (let s := window (2 ^ 40)
     let x := tread s.host (ringAt (s.vf 0).hqbase 15) 128
     hqReserved x = false ∧ x / 2 ^ 40 % 2 = 1) ∧
    (let s := window 1
     let x := tread s.host (ringAt (s.vf 0).hqbase 15) 128
     s.gridSize 1 ≤ x % 2 ^ 24) ∧
    (let s := (window 0).modVf 0 fun v => { v with linkIn := [List.replicate 128 0#8], route := some (15, 7) }
     s.rootLive 0 = some 1 ∧ s.inFlight (windowSource 0) = false ∧ leNat (List.replicate 128 0#8) % 2 ^ 24 < s.gridSize 1 ∧ s.failed = false ∧
       (s.vf 0).en = true ∧ (s.vf 0).route = some (15, 7)) ∧
    (let m : Msg := { msgTo0 with target := 0xFFFFFF, source := noCore, toHost := true }
     let s (k : Kwe) : State := { (window 0).modVf 0 fun v => { v with route := some (15, 7) } with flight := [(0, some m)], kwe := [(15, k)] }
     tget none (s {}).flight 0 = some m ∧ (s {}).windowOf m = some 0 ∧ ((s {}).kport 15).retrain = none ∧ ((s {}).kport 15).held = [] ∧
       ((s {}).kport 15).down = false ∧ ((s { retrain := some 0 }).kport 15).retrain.isSome = true ∧
       65536 < 128 * (((s { retrain := some 0, held := List.replicate 512 (0, []) }).kport 15).held.length + 1)) ∧
    core0.rootLive 0 = none ∧
    (let s := (window 0).modVf 0 fun v => { v with fences := [(9, 3, 1)] }
     (s.vf 0).fences = [(9, 3, 1)] ∧ (s.vf 0).fenceReady = true ∧ bitAt (s.vf 0).mask 2 = true ∧
       bitAt ((s.modVf 0 fun v => { v with mask := 0#4 }).vf 0).mask 2 = false) ∧
    (let t := (window 0).modVf 0 fun v => { v with hacq := [0] }
     let s := t.modPart 0 fun q => { q with fp := mkStamp 0 0x1FFFF }
     s.hacqDue 0 = true ∧ core0.hacqDue 0 = false) ∧
    ((window 0).rootLive 0 = some 1 ∧ 4095 < ((window 0).vf 0).hdmsize ∧ cxlReads (window 0) = true) ∧
    (let s := { core0 with kwe := [(15, { ready := 1, retrain := some 0 })], tick := 2 ^ 40 }
     (s.kport 15).ready = 1 ∧ (s.kport 14).ready ≠ 1 ∧ s.linkLate 15 = true ∧ core0.linkLate 15 = false) ∧
    (let s := core0.modVf 1023 fun v => { v with route := some (15, 7) }
     (s.vf 1023).route = some (15, 7) ∧ (core0.vf 1023).route = none) := by
  decide +kernel

theorem witness_SpdmRequestsAreAnswered :
    ([0x12#8].head? ≠ some 0x13#8 ∧ [0x13#8].head? = some 0x13#8) ∧ (0x12 : Nat) ≠ 0x13 ∧ (true && false) = false ∧ core0.measurement 0 0x12 = none ∧
    (let s := bound0.modPart 0 fun q => { q with records := [[1#8]] }
     (s.vf 0).en = true ∧ (s.part (s.vf 0).part).records ≠ [] ∧ (0 : Nat) < 1024) := by
  decide +kernel

end Sys2Proof.Tests
end

