-- ==== Sys2Proof/Tests/WitnessScalar.lean ====
section
/-! SUPPORT. Witnesses: a concrete state and operands that meet the hypotheses of each clause of the statements about fetch, decode
and the instructions of the scalar core. -/

namespace Sys2Proof.Tests

open Sys2Proof Sys2Proof.Machine

set_option Elab.async false

theorem witness_IntegerResults :
    (Starts (.add 3#5 0#5 0#5) core0 (begun core0) false ∧ (intResult (.add 3#5 0#5 0#5) core0).isSome = true ∧ core0.monitor = false) ∧
    Starts (.add 3#5 0#5 0#5) mon0 (begun mon0) false ∧ (intResult (.add 3#5 0#5 0#5) mon0).isSome = true ∧ mon0.monitor = true :=
  ⟨⟨starts _ (by decide +kernel), by decide +kernel⟩, starts _ (by decide +kernel), by decide +kernel⟩

theorem witness_FloatResults :
    Starts (.fadd true .rne 3#5 4#5 5#5) core0 (begun core0) false ∧ (floatResult (.fadd true .rne 3#5 4#5 5#5) core0).isSome = true :=
  ⟨starts _ (by decide +kernel), by decide +kernel⟩

theorem witness_CapabilityResults :
    let s := withC core0 4 capAt
    Starts (.cinc 3#5 4#5 5#5) s (begun s) false ∧ (capResult (.cinc 3#5 4#5 5#5) s).isSome = true :=
  ⟨starts _ (by decide +kernel), by decide +kernel⟩

theorem witness_BranchesGoWhereTheySay :
    (branchResult (.beq .t 0x1FF#9 0#5 0#5) core0 = some (true, -1, 0#5, 0#64) ∧
      Starts (.beq .t 0x1FF#9 0#5 0#5) core0 (begun core0) true) ∧
    branchResult (.bne .t 0x1FF#9 0#5 0#5) core0 = some (false, -1, 0#5, 0#64) ∧
      Starts (.bne .t 0x1FF#9 0#5 0#5) core0 (begun core0) false :=
  ⟨⟨by decide +kernel, starts _ (by decide +kernel)⟩, by decide +kernel, starts _ (by decide +kernel)⟩

theorem witness_JumpsGoToTheirRegister :
    (let s := withX core0 7 (2 ^ 56 - 1)
     jumpResult (.callr 7#5) = some (7#5, true) ∧ Starts (.callr 7#5) s (begun s) true ∧ (s.rd 7#5).toNat < 2 ^ 56) ∧
    let s := withX core0 7 (2 ^ 56)
    jumpResult (.jr 7#5) = some (7#5, false) ∧ Starts (.jr 7#5) s (begun s) false ∧ s.monitor = false ∧ s.pendingReqs = false ∧
      2 ^ 56 ≤ (s.rd 7#5).toNat :=
  ⟨⟨by decide +kernel, starts _ (by decide +kernel), by decide +kernel⟩, by decide +kernel, starts _ (by decide +kernel), by decide +kernel⟩

/-- The word of ADD c3, c4, c5 (R39) where a core fetches: in the monitor's store, and in the code of region 1. -/
def monAt : State :=
  { mon0.modTile 0 fun t => { t with store := twrite t.store 0 4 0x00148304, loaded := true } with agenda := [.core ⟨0, true⟩] }
def actAt : State := State.reset.placeInstr 32 0x00148304

theorem witness_StepRunsTheDecodedInstruction :
    (let s0 : State := { monAt with agenda := [], focus := ⟨0, true⟩ }
     monAt.agenda = [.core ⟨0, true⟩] ∧ (monAt.cluster (clusterOf 0)).viral = false ∧ decodeWords [0x00148304#32] = .ok (.add 3#5 4#5 5#5) ∧
       s0.monitor = true ∧ fetchMon s0 = .words [0x00148304#32]) ∧
    (let s0 : State := { actAt with agenda := [], focus := ⟨0, true⟩ }
     actAt.agenda = [.core ⟨0, true⟩] ∧ (actAt.cluster (clusterOf 0)).viral = false ∧ s0.monitor = false ∧ s0.running 0 = some x0 ∧
       s0.beforeFetch ⟨0, true⟩ x0 = none ∧ s0.my.prog.words = [] ∧ (fetchAct s0).1 = .words [0x00148304#32]) ∧
    let s : State := { (actAt.modCore kc fun c => { c with prog := { c.prog with words := [0x00148304#32] } }) with agenda := [.core ⟨0, true⟩] }
    let s0 : State := { s with agenda := [], focus := ⟨0, true⟩ }
    s0.monitor = false ∧ s0.running 0 = some x0 ∧ s0.beforeFetch ⟨0, true⟩ x0 = none ∧ s0.my.prog.words = [0x00148304#32] := by
  decide +kernel

theorem witness_StepFollowsTheAgenda :
    (let s : State := { core0 with agenda := [.core ⟨0, true⟩] }
     let v : State := s.modCluster 0 fun c => { c with viral := true }
     let t : State := s.modCore kc fun c => { c with pend := [{ cause := 0, va := 0, info := 0 }] }
     (v.cluster (clusterOf 0)).viral = true ∧ (t.cluster (clusterOf 0)).viral = false ∧
       ({ t with agenda := [], focus := ⟨0, true⟩ } : State).monitor = false ∧
       ({ t with agenda := [], focus := ⟨0, true⟩ } : State).running 0 = some x0 ∧
       ({ t with agenda := [], focus := ⟨0, true⟩ } : State).beforeFetch ⟨0, true⟩ x0 = some (some (.deferredTrap ⟨0, true⟩))) ∧
    (fetchAct { actAt with focus := ⟨0, true⟩ }).1 = .words [0x00148304#32] ∧
    (fetchAct (withMy core0 fun c => { c with pc := c.pc + 2 })).1 = .trap .misaligned (loadVa + 2) none ∧
    (fetchAct (withMy core0 fun c => { c with pc := loadVa - 0x40 + 0x10000 })).1 = .trap .capBounds (loadVa - 0x40 + 0x10000) none ∧
    (fetchAct (core0.modRegion 1 fun g => { g with blk := { g.blk with code := mkCap loadVa loadVa 64 10 1 } })).1 = .trap .capPerm loadVa none ∧
    fetchMon monAt = .words [0x00148304#32] := by
  decide +kernel

theorem witness_DecodeOfEncode : (toFields (.add 3#5 4#5 5#5)).isSome = true ∧ (Instr.add 3#5 4#5 5#5).wf = true := by decide +kernel

theorem witness_DecodedInstructionsAreWellFormed : decodeWords [0x00148304#32] = .ok (.add 3#5 4#5 5#5) := by decide +kernel

theorem witness_DecodeChecksTrapInTheirOrder :
    (let s : State := { mon0 with agenda := [.core ⟨0, true⟩] }
     let s0 : State := { s with agenda := [], focus := ⟨0, true⟩ }
     (s.cluster (clusterOf 0)).viral = false ∧ (decodeWords [0#32]).toOption = none ∧ s0.monitor = true ∧ fetchMon s0 = .words [0#32]) ∧
    (let s0 : State := { State.reset.placeInstr 32 0 with agenda := [], focus := ⟨0, true⟩ }
     let q := fetchAct s0
     s0.monitor = false ∧ s0.running 0 = some x0 ∧ s0.beforeFetch ⟨0, true⟩ x0 = none ∧ s0.my.prog.words = [] ∧ q.1 = .words [0#32] ∧
       q.2.focus = ⟨0, true⟩ ∧ q.2.monitor = false ∧ q.2.pendingReqs = false) ∧
    ((toFields .halt).isSome = true ∧ mon0.monitor = true ∧ (decl .halt).mon = false ∧ (decl .halt).monOnly = false) ∧
    (let s : State := { core0 with focus := ⟨0, false⟩ }
     let s := s.modMy fun c => { c with act := some loadAct }
     s.monitor = false ∧ s.my.act.isSome = true ∧ s.pendingReqs = false ∧ (decl .licreq).computeOnly = true ∧ s.focus.compute = false) ∧
    (core0.monitor = false ∧ core0.my.act.isSome = true ∧ core0.pendingReqs = false ∧ (decl .rft).monOnly = true ∧ (decl .rft).computeOnly = false) ∧
    (let s := withMy core0 fun c => { c with f := tput 0#64 0 0x148#64 c.f }
     s.monitor = false ∧ s.my.act.isSome = true ∧ s.pendingReqs = false ∧ (s.declared (.ldvs 3#5 4#5 5#5 0#32 0x20#8 .e32 none)).illegal = true) ∧
    let s := withMy core0 fun c => { c with act := some { loadAct with vregs := 8 } }
    s.monitor = false ∧ s.my.act.isSome = true ∧ s.pendingReqs = false ∧ (toFields (.vadd none 8#5 0#5 7#5)).isSome = true ∧
      (decl (.vadd none 8#5 0#5 7#5)).monOnly = false ∧ s.focus.compute = true ∧ s.regRange (decl (.vadd none 8#5 0#5 7#5)) = some 8 ∧
      (s.declared (.vadd none 8#5 0#5 7#5)).illegal = false := by
  decide +kernel

/-- A request outstanding on register c5. -/
def asking : State := withMy core0 fun c =>
  { c with reqs := [(0, some { kind := .scalar 5#5 8 false, v := 0, va := 0, want := [] })] }

theorem witness_HazardsAndCurrentAreWaitedFor :
    ((toFields (.add 3#5 5#5 4#5)).isSome = true ∧ asking.monitor = false ∧ asking.my.act.isSome = true ∧
      (decl (.add 3#5 5#5 4#5)).monOnly = false ∧ (decl (.add 3#5 5#5 4#5)).computeOnly = false ∧ asking.regRange (decl (.add 3#5 5#5 4#5)) = none ∧
      (asking.declared (.add 3#5 5#5 4#5)).illegal = false ∧ asking.hazard (decl (.add 3#5 5#5 4#5)) = true) ∧
    let s := vec0.modCluster 0 fun c => { c with vec := true }
    Starts (.vadd none 3#5 4#5 5#5) s (begun s) false ∧ (vecForm (.vadd none 3#5 4#5 5#5) s).any (·.ok) = true ∧ s.vecReady = false ∧
      ((s.cluster (clusterOf s.focus.site)).waiting.any fun q => q.site == s.focus.site && q.unit == 1) = false :=
  ⟨by decide +kernel, starts _ (by decide +kernel), by decide +kernel⟩

/-- The activation's handler has one signature entry, for the block at its entry. -/
def signed : State :=
  let s := withMy core0 fun c => { c with act := some { loadAct with sigOff := 64, sigCount := 1 } }
  { s with rim := rimPut (s.part 0) s.rim 0x20040 8 (0x1D0F * 2 ^ 32) }

theorem witness_SignaturesAreComparedAtTheEndOfABlock :
    let s := signed.sigTable.2
    signed.monitor = false ∧ s.monitor = false ∧ s.my.act = some { loadAct with sigOff := 64, sigCount := 1 } ∧
      s.sigTable = (.ok [(0, 0x1D0F, 0)], s) ∧ sigReach s { loadAct with sigOff := 64, sigCount := 1 } (codeOffset loadAct s.my.pc) [(0, 0x1D0F, 0)] =
        .ok s.my.sig ∧ s.pendingReqs = false ∧ s.regRange (decl .sigchk) = none ∧ s.hazard (decl .sigchk) = false ∧ s.my.killLater = none := by
  decide +kernel

/-- The state with the word placed, and the machine after reset, are canonical, and both take a step. -/
theorem witness_MemoryStaysCanonical :
    actAt.memWf = true ∧ (match step actAt with | .next _ => true | _ => false) = true ∧
      State.reset.memWf = true ∧ (match step State.reset with | .next _ => true | _ => false) = true := by
  decide +kernel

end Sys2Proof.Tests
end

