-- ==== Sys2Proof/Tests/WitnessSystem.lean ====
section
/-! SUPPORT. Witnesses: a concrete state and operands that meet the hypotheses of each clause of the statements about messages,
activations, regions, system registers, the event crossbar and the monitor. -/

namespace Sys2Proof.Tests

open Sys2Proof Sys2Proof.Machine

set_option Elab.async false

/-- Core 0 at a step of an instruction that has come so far. -/
def atStep (s : State) (n : Nat) : State := withMy s fun c => { c with prog := { c.prog with step := n } }
/-- Core 0 whose instruction has released. -/
def released (s : State) : State := withMy s fun c => { c with prog := { c.prog with rel := some 7 } }

noncomputable def sendI (rel : Bool) : Instr := .send rel 4#5 5#5 9#8 0#3

theorem witness_MessagesAreHeld :
    (Starts (sendI false) core0 (begun core0) false ∧ Starts (sendI true) core0 (begun core0) false ∧
      (msgForm (sendI false) core0).isSome = true ∧ core0.my.prog.step = 0 ∧ core0.my.held.length < 16 ∧
      core0.releaseReady core0.myKey = true ∧ core0.duplex core0.myRegion = false ∧ core0.heldOf core0.myKey = [] ∧ core0.my.trail = []) ∧
    (let s := released (atStep core0 sendHeldStep)
     Starts (sendI true) s (begun s) false ∧ (msgForm (sendI true) s).isSome = true ∧ s.my.prog.step = sendHeldStep ∧ s.my.prog.rel ≠ none) ∧
    (let s := withX core0 4 1
     Starts (.spawn 4#5 5#5 9#8 0#6) s (begun s) false ∧ s.pendingReqs = false ∧ s.my.prog.step = 0 ∧ s.gridSize s.myRegion ≤ (s.rd 4#5).toNat % 2 ^ 24) ∧
    (let s := withX core0 4 1
     Starts (sendI true) s (begun s) false ∧ msgTarget (sendI true) s = some (1, true) ∧ s.gridSize s.myRegion ≤ 1 ∧
       Starts (.bararr 2#6 4#5) s (begun s) false ∧ msgTarget (.bararr 2#6 4#5) s = some (1, false) ∧ s.my.prog.step ≠ sendHeldStep) ∧
    let s := withX core0 4 0xFFFFFF
    Starts (.spawn 4#5 5#5 9#8 0#6) s (begun s) false ∧ msgTarget (.spawn 4#5 5#5 9#8 0#6) s = some (0xFFFFFF, false) :=
  ⟨⟨starts _ (by decide +kernel), starts _ (by decide +kernel), by decide +kernel⟩, ⟨starts _ (by decide +kernel), by decide +kernel⟩,
   ⟨starts _ (by decide +kernel), by decide +kernel⟩, ⟨starts _ (by decide +kernel), by decide +kernel, by decide +kernel,
   starts _ (by decide +kernel), by decide +kernel⟩, starts _ (by decide +kernel), by decide +kernel⟩

theorem witness_ForkPushesAndJoinCounts :
    (let s := released core0
     Starts (.fork 0#5 1#5 15#32 0#3) s (begun s) false ∧ s.my.act = some loadAct ∧ s.my.prog.rel ≠ none ∧ s.my.prog.step ≠ spillStep ∧
       (s.ctx s.me).deque.length < 512 ∧
       firstOf loadAct.mask.toNat = 1 ∧ loadAct.code ≤ branchTo s.my.pc 15#32 ∧ branchTo s.my.pc 15#32 < loadAct.code + loadAct.codeLen) ∧
    (let s := released cap0
     Starts (.join 4#5 5#5) s (begun s) false ∧ s.my.prog.step = 0 ∧ s.my.prog.rel = some 7 ∧ s.freeSlot = some 0 ∧
       s.duplex s.myRegion = false ∧ checkCap (s.rc 4#5) (s.rc 4#5).addr 8 8 { l := true, s := true } = none) ∧
    (Starts (.join 4#5 5#5) (atStep core0 joinZero) (begun (atStep core0 joinZero)) false ∧ (atStep core0 joinZero).my.prog.step = joinZero ∧
      (atStep core0 joinZero).pendingReqs = false) ∧
    (let s := withMy (atStep core0 joinLast) fun c => { c with ckpt := some { pc := 0, regs := [], sig := {} } }
     Starts (.join 4#5 5#5) s (begun s) false ∧ s.my.prog.step = joinLast ∧ s.my.ckpt = some { pc := 0, regs := [], sig := {} }) ∧
    (let s := atStep core0 joinMore
     Starts (.join 4#5 5#5) s (begun s) false ∧ s.my.prog.step = joinMore ∧ ((s.ctx s.me).queues.all fun q => q.cmds.isEmpty) = true ∧
       (s.core (coreKey s.me (!s.focus.compute))).over = true ∧ s.my.aside = none) ∧
    (let s := (atStep core0 joinMore).modCore ks fun c => { c with act := some loadAct }
     Starts (.join 4#5 5#5) s (begun s) false ∧ s.my.prog.step = joinMore ∧ ((s.ctx s.me).queues.all fun q => q.cmds.isEmpty) = true ∧
       (s.core (coreKey s.me (!s.focus.compute))).over = false) ∧
    (let q (x : Nat) : Req := { kind := .atomic 0#5 12 8 0 0 7, v := 0, va := 0, want := [], done := some (.value x false 9) }
     let s (x : Nat) : State := core0.modCore kc fun c => { c with reqs := [(0, some (q x))], stall := .reply 0 }
     tget none ((s 2).core kc).reqs 0 = some (q 2) ∧ ((s 0).core kc).stall = .reply 0 ∧ ((s 1).core kc).killLater = none) ∧
    Starts (.join 4#5 5#5) (atStep core0 1) (begun (atStep core0 1)) false ∧ (atStep core0 1).my.prog.step = 1 :=
  ⟨⟨starts _ (by decide +kernel), by decide +kernel⟩, ⟨starts _ (by decide +kernel), by decide +kernel⟩,
   ⟨starts _ (by decide +kernel), by decide +kernel⟩, ⟨starts _ (by decide +kernel), by decide +kernel⟩,
   ⟨starts _ (by decide +kernel), by decide +kernel⟩, ⟨starts _ (by decide +kernel), by decide +kernel⟩, by decide +kernel,
   starts _ (by decide +kernel), by decide +kernel⟩

/-- A template for LAUNCH with the capability to it in c4: its code capability tagged, its handler table mapped, its entry 0 valid. -/
def template (x : Nat) : State :=
  let s := released (withC core0 4 (mkCap (2 ^ 55 + 0x40000) (2 ^ 55 + 0x40000) 64 6 15))
  { s with rim := rimPut (s.part 0) (rimPut (s.part 0) s.rim 0x40000 256 x) 0x8000 16 (2 ^ 32), rimTags := [(0x4006, true)] }
def templateX (cap : Nat) : Nat := loadCap.bits.toNat * 256 ^ 96 + (2 ^ 55 + 0x8000) * 256 ^ 112 + (2 ^ 55 + 0x50000) * 256 ^ 120 + cap * 256 ^ 128

/-- What a LAUNCH at c4 meets: the refusal, whether the run queue has room, whether the child is made. -/
noncomputable def launchMeets (s : State) : Option (Nat × Bool × Bool) :=
  match readTemplate (begun s) (s.rc 4#5).addr 0#8 (s.ancestors s.myRegion).length with
  | (.ok t, u) =>
    some (refusedBlock t (u.ancestors u.myRegion).length, u.ringRoom (u.corePart u.myKey) (blkField t.x 120 8) (blkField t.x 128 4),
      match childHeader u t with
      | (.ok h, w) =>
        match (launchChild w (s.rc 4#5).addr t h ((regRange 5#5 6).map s.rc) (w.sigNext (decl (.launch 4#5 5#5 0#8)) (w.my.pc + 12))).2 with
        | .retire => true
        | _ => false
      | _ => false)
  | _ => none

theorem witness_LaunchMakesARegion :
    (let s := template (templateX 1)
     Starts (.launch 4#5 5#5 0#8) s (begun s) false ∧ s.my.prog.rel ≠ none ∧
       checkCap (s.rc 4#5) (s.rc 4#5).addr 256 256 { l := true, s := true } = none ∧ launchMeets s = some (0, true, true)) ∧
    (let s := template (templateX 0)
     Starts (.launch 4#5 5#5 0#8) s (begun s) false ∧ launchMeets s = some (0, false, true)) ∧
    let s := template (templateX 1 + 1)
    Starts (.launch 4#5 5#5 0#8) s (begun s) false ∧ s.pendingReqs = false ∧ launchMeets s = some (1, true, true) :=
  ⟨⟨starts _ (by decide +kernel), by decide +kernel⟩, ⟨starts _ (by decide +kernel), by decide +kernel⟩,
   starts _ (by decide +kernel), by decide +kernel⟩

theorem witness_HaltAndYield :
    (let s := (atStep core0 5).modCore ks fun c => { c with act := some loadAct }
     Starts .halt s (begun s) false ∧ s.my.prog.step = 5 ∧ ((s.ctx s.me).queues.all fun q => q.cmds.isEmpty) = true ∧
       (s.core (coreKey s.me (!s.focus.compute))).over = false) ∧
    Starts .yield core0 (begun core0) false :=
  ⟨⟨starts _ (by decide +kernel), by decide +kernel⟩, starts _ (by decide +kernel)⟩

/-- A header in c4 that SETHDL accepts, and its settings in c5. -/
def headed (settings : Nat) : State :=
  let s := withX (withC tabled 4 (mkCap (2 ^ 55 + 0x20000) (2 ^ 55 + 0x20000) 64 10 4)) 5 settings
  { s with rim := rimPut (s.part 0) s.rim 0x20000 4 0x01014B48 }
/-- The status of the header that c4 names, and whether the write of an entry there answers. -/
def sethdlMeets (s : State) (entry : Nat) : Option Nat × Bool :=
  let q := readMem (begun s) (s.region s.myRegion).part s.myRegion .fetch (some s.my.view) .device 2 (s.rc 4#5).addr 64
  let st := match q.1 with
    | .ok x => some (headerStatus (parseHeader x) q.2.codeCap (s.rc 4#5).addr)
    | _ => none
  let r := s.region s.myRegion
  let va := r.blk.htab + 16 * ((s.rd 5#5).toNat % 256)
  (st, match (engineAct q.2 (q.2.engineOf r.part va) r.part s.myRegion va 16 (fun _ => some entry) 0 (.core s.myKey)).1 with
    | some (.value _ _ _) => true
    | _ => false)

theorem witness_HandlerTableAndHints :
    (let s := headed (2 ^ 11)
     Starts (.sethdl 3#5 4#5 5#5) s (begun s) false ∧ 2 ^ 11 ≤ (s.rd 5#5).toNat) ∧
    (let s := { headed (2 ^ 10) with rim := core0.rim }
     Starts (.sethdl 3#5 4#5 5#5) s (begun s) false ∧ (s.rd 5#5).toNat < 2 ^ 11 ∧ 2 ^ 10 ≤ (s.rd 5#5).toNat ∧
       checkCap (s.rc 4#5) (s.rc 4#5).addr 64 64 { x := true } = none ∧ (sethdlMeets s 0).1 = some 1) ∧
    (let s := headed (2 ^ 10 - 1)
     Starts (.sethdl 3#5 4#5 5#5) s (begun s) false ∧ (s.rd 5#5).toNat < 2 ^ 10 ∧ (s.ctxs.all fun e => e.2.lodge.isEmpty) = true ∧
       (sethdlMeets s 0).2 = true) ∧
    (let s := headed (2 ^ 11 - 1)
     Starts (.sethdl 3#5 4#5 5#5) s (begun s) false ∧ (s.rd 5#5).toNat < 2 ^ 11 ∧ 2 ^ 10 ≤ (s.rd 5#5).toNat ∧
       checkCap (s.rc 4#5) (s.rc 4#5).addr 64 64 { x := true } = none ∧ sethdlMeets s (2 ^ 32 + 2 ^ 33 + 3 * 2 ^ 34) = (some 0, true)) ∧
    (Starts (.ganghint 0#5) core0 (begun core0) false ∧ core0.monitor = false ∧ (core0.rd 0#5).toNat % 2 ^ 24 < core0.gridSize core0.myRegion) ∧
    (let s := withX core0 4 1
     Starts (.ganghint 4#5) s (begun s) false ∧ s.gridSize s.myRegion ≤ (s.rd 4#5).toNat % 2 ^ 24) ∧
    Starts (.ganghint 0#5) mon0 (begun mon0) false ∧ mon0.monitor = true :=
  ⟨⟨starts _ (by decide +kernel), by decide +kernel⟩, ⟨starts _ (by decide +kernel), by decide +kernel⟩,
   ⟨starts _ (by decide +kernel), by decide +kernel⟩, ⟨starts _ (by decide +kernel), by decide +kernel⟩,
   ⟨starts _ (by decide +kernel), by decide +kernel⟩, ⟨starts _ (by decide +kernel), by decide +kernel⟩,
   starts _ (by decide +kernel), by decide +kernel⟩

/-- A register that f holds of is in the map. -/
def srdMeets (f : SysReg → Bool) : Bool := (List.range 1024).any fun n => (sysReg n).any f

theorem witness_SystemRegistersAreWritten :
    (Starts (.swr 0x3FF#10 4#5) core0 (begun core0) false ∧ sysReg 0x3FF = none ∧ core0.monitor = false ∧ core0.pendingReqs = false ∧
      core0.my.prog.step ≠ 1) ∧
    (Starts (.swr 0x020#10 4#5) core0 (begun core0) false ∧ sysReg 0x020 = some .spquota ∧ SysReg.spquota.monWrite = true) ∧
    (Starts (.srd 3#5 0x3FF#10) core0 (begun core0) false ∧ core0.monitor = false) ∧
    (srdMeets fun r => r.monRead) ∧ (srdMeets fun r => !r.monRead && r.refused true false) ∧
    (let s := withX core0 4 5
     Starts (.swr 0x030#10 4#5) s (begun s) false ∧ sysReg 0x030 = some .vctl ∧ SysReg.vctl.monWrite = false ∧
       SysReg.vctl.refused s.focus.compute true = false ∧ sysBad .vctl (s.rd 4#5) = true ∧ s.pendingReqs = false) ∧
    (let s := withX core0 4 4
     Starts (.swr 0x030#10 4#5) s (begun s) false ∧ sysBad .vctl (s.rd 4#5) = false) ∧
    (let s := mon0
     Starts (.swr 0x020#10 0#5) s (begun s) false ∧ s.monitor = true ∧ sysBad .spquota (s.rd 0#5) = false ∧
       SysReg.spquota.refused s.focus.compute true = false) ∧
    (let s := core0.modCtx x0 fun c => { c with q := [(4, [1#64, 2#64, 3#64, 4#64, 5#64, 6#64, 7#64])] }
     Starts (.swr 0x064#10 4#5) s (begun s) false ∧ sysReg 0x064 = some (.queue 4) ∧ (SysReg.queue 4).refused s.focus.compute true = false ∧
       (tget [] (s.ctx s.me).q 4).length < 8) ∧
    (let s := core0.modCtx x0 fun c => { c with q := [(4, [1#64, 2#64, 3#64, 4#64, 5#64, 6#64, 7#64, 8#64])] }
     Starts (.swr 0x064#10 4#5) s (begun s) false ∧ 8 ≤ (tget [] (s.ctx s.me).q 4).length) ∧
    (let s := core0.modCtx x0 fun c => { c with q := [(0, [9#64])] }
     Starts (.srd 4#5 0x060#10) s (begun s) false ∧ sysReg 0x060 = some (.queue 0) ∧ (SysReg.queue 0).refused s.focus.compute false = false ∧
       tget [] (s.ctx s.me).q 0 = 9#64 :: []) ∧
    Starts (.srd 4#5 0x060#10) core0 (begun core0) false ∧ tget [] (core0.ctx core0.me).q 0 = [] :=
  ⟨⟨starts _ (by decide +kernel), by decide +kernel⟩, ⟨starts _ (by decide +kernel), by decide +kernel⟩,
   ⟨starts _ (by decide +kernel), by decide +kernel⟩, by decide +kernel, by decide +kernel,
   ⟨starts _ (by decide +kernel), by decide +kernel⟩, ⟨starts _ (by decide +kernel), by decide +kernel⟩,
   ⟨starts _ (by decide +kernel), by decide +kernel⟩, ⟨starts _ (by decide +kernel), by decide +kernel⟩,
   ⟨starts _ (by decide +kernel), by decide +kernel⟩, ⟨starts _ (by decide +kernel), by decide +kernel⟩,
   starts _ (by decide +kernel), by decide +kernel⟩

/-- Event counter 2 is slot 0's. -/
def evented : State := core0.modTile 0 fun t => { t with evmap := 0x400#64 }

theorem witness_EventCrossbarIsConfigured :
    (Starts (.evcfg 7#3 0#5) mon0 (begun mon0) false ∧ mon0.monitor = true ∧ termKind (mon0.rd 0#5) < 5 ∧
      (mon0.rd 0#5).toNat / 2 ^ 42 % 2 ^ 21 = 0) ∧
    (let s := withX evented 4 4
     Starts (.evcfg 7#3 4#5) s (begun s) false ∧ termKind (s.rd 4#5) < 5 ∧ s.termOk (s.rd 4#5) = true ∧
       (s.rd 4#5).toNat / 2 ^ 42 % 2 ^ 21 = 0) ∧
    (let s := withX evented 4 8
     Starts (.evcfg 7#3 4#5) s (begun s) false ∧ termKind (s.rd 4#5) < 5 ∧ s.termOk (s.rd 4#5) = false ∧ s.pendingReqs = false ∧
       (s.rd 4#5).toNat / 2 ^ 42 % 2 ^ 21 = 0) ∧
    (let s := withX evented 4 (2 ^ 42)
     Starts (.evcfg 7#3 4#5) s (begun s) false ∧ (s.rd 4#5).toNat / 2 ^ 42 % 2 ^ 21 ≠ 0 ∧ s.monitor = false ∧ s.pendingReqs = false) ∧
    (Starts (.evpulse 2#4) evented (begun evented) false ∧ evented.evOk 2 = true) ∧
    Starts (.evpulse 3#4) evented (begun evented) false ∧ evented.evOk 3 = false ∧ evented.monitor = false ∧ evented.pendingReqs = false :=
  ⟨⟨starts _ (by decide +kernel), by decide +kernel⟩, ⟨starts _ (by decide +kernel), by decide +kernel⟩,
   ⟨starts _ (by decide +kernel), by decide +kernel⟩, ⟨starts _ (by decide +kernel), by decide +kernel⟩,
   ⟨starts _ (by decide +kernel), by decide +kernel⟩, starts _ (by decide +kernel), by decide +kernel⟩

/-- Core 0's monitor with a cause and an ACT. -/
def rftAt (cause act : Nat) : State := mon0.modMcore ⟨0, true⟩ fun m => { m with cause := cause, act := act }

theorem witness_TrapsEnterTheMonitor :
    (Starts (.trap 0x3FF#10) core0 (begun core0) false ∧ Starts (.brk 0x3FF#10) core0 (begun core0) false ∧ core0.pendingReqs = false) ∧
    (let s := rftAt 0 0
     let m := s.mcore s.focus
     s.monitor = true ∧ s.my.killLater = none ∧ rftAct m = 0 ∧ m.cause ≠ Cause.trailFull.code ∧ m.cause ≠ Cause.copyFault.code ∧
       m.defer = false ∧ m.aborted = false) ∧
    (let s := rftAt 0 1
     s.monitor = true ∧ rftAct (s.mcore s.focus) = 1 ∧ s.my.killed = .no) ∧
    let s := rftAt 0 2
    s.monitor = true ∧ 2 ≤ rftAct (s.mcore s.focus) :=
  ⟨⟨starts _ (by decide +kernel), starts _ (by decide +kernel), by decide +kernel⟩, by decide +kernel, by decide +kernel, by decide +kernel⟩

end Sys2Proof.Tests
end

