-- ==== Sys2Proof/Tests/WitnessTiles.lean ====
section
/-! SUPPORT. Witnesses: a concrete state and operands that meet the hypotheses of each clause of the statements about the engines
and small units of a tile, messages, scheduling and the chairlift. -/

namespace Sys2Proof.Tests

open Sys2Proof Sys2Proof.Machine

set_option Elab.async false

/-- A copy of the last two bytes of a page into h1, in two chunks, at the head of queue 1. -/
def twoChunks : CopyCmd :=
  { kind := .cpy false, q := 1, compute := true, h := 1, started := true
    chunks := [[{ va := 2 ^ 55 + 0xFFFE, off := 0, len := 1 }], [{ va := 2 ^ 55 + 0xFFFF, off := 1, len := 1 }]] }
def queued (c : CopyCmd) : State := handled.modCtx x0 fun t => { t with copyq := [(1, { cmds := [c], credits := 1 })] }
def heldChunk (n : Nat) : Held := { core := kc, slice := 0, order := 0, writes := [], size := n, region := 1, q := 1 }
def flyingAt (held n : Nat) : State :=
  let s := core0.modSlice 0 fun l => { l with held := held }
  { s with flying := [(0, some { ctx := x0, q := 1, h := heldChunk n, bytes := n })] }
def flip0 : CopyCmd := { kind := .cpub, q := 1, compute := true, h := 0, started := true, lo := 0, hi := 65536 }

def readsRuns (s : State) (rs : List Run) : Bool :=
  match (readRuns (s.modTile 0 fun t => { t with copyTurn := 2 }) (s.ctxPart x0) (ctxRegion x0) 0 (.copy x0 1) rs).1 with
  | .ok _ => true
  | _ => false

/-- A reduction of two FP32 elements, el of which are done, whose next is alone at the engine of cluster 0, and whether that translates and
acts. -/
def reducing (el : Nat) : State :=
  (queued { twoChunks with chunks := [[{ va := 2 ^ 55 + 0x10000, off := 0, len := 8 }]], el := el }).modCluster 0 fun c =>
    { c with engQ := [{ who := kc, id := 0, line := (2 ^ 55 + 0x10000) / 64, arrival := 0, src := 0, org := 0, copy := some (x0, 1) }] }
def credMeets (el : Nat) : Bool :=
  let s := reducing el
  let u := s.modCluster 0 fun d => { d with engTick := some s.tick, engQ := [] }
  let va := 2 ^ 55 + 0x10000 + el * 4
  let q := translate u 0 va .atomic 1 (s.part 0).fp (.copy x0 1)
  (credKind (s.handle x0 1).tag).any (fun k => k.1 == 4) && s.pickCopy 0 != some (x0, 9) && (match q.1 with | .ok _ => true | _ => false) &&
    (engineAct q.2 0 0 1 va 4 (fun x => some x) 0 (.copy x0 1)).1.any fun r => match r with | .value _ _ _ => true | _ => false

theorem witness_CopyEnginesMoveChunks :
    (let s := handled.modCore kc fun c => { c with stall := .copy twoChunks }
     (s.core kc).stall = .copy twoChunks ∧ (acceptCopy s kc twoChunks).isSome = true) ∧
    (let t := handled.modCore kc fun c => { c with stall := .copy twoChunks }
     let s := t.modCtx x0 fun c => { c with copyq := [(1, { cmds := List.replicate 8 twoChunks })] }
     (s.core kc).stall = .copy twoChunks ∧ acceptCopy s kc twoChunks = none) ∧
    (let s := queued twoChunks
     s.oddCycle 0 = false ∧ s.pickCopy 0 = some (x0, 1) ∧ (s.tile 0).copyGrant = false ∧ (s.cluster (clusterOf 0)).waiting = [] ∧
       (s.cluster (clusterOf 0)).grants 1 = true ∧ s.headCopy x0 1 = some twoChunks ∧ twoChunks.bar = none ∧
       twoChunks.cancelled = false ∧ readsRuns s [{ va := 2 ^ 55 + 0xFFFE, off := 0, len := 1 }] = true) ∧
    (core0.pickCopy 0 = none ∧ core0.oddCycle 0 = false ∧ (core0.tile 0).copyGrant = false ∧
      ((core0.modTile 0 fun t => { t with copyGrant := true }).tile 0).copyGrant = true) ∧
    (let s := (queued twoChunks).modCluster 0 fun c => { c with inuse := 896 }
     s.pickCopy 0 = some (x0, 1) ∧ s.oddCycle 0 = false ∧ (s.tile 0).copyGrant = false ∧ (s.cluster (clusterOf 0)).grants 1 = false) ∧
    credMeets 0 = true ∧ credMeets 1 = true ∧
    (let s := flyingAt 524287 1
     (s.headCopy x0 1).any (fun c => c.cancelled) = false ∧ (s.slice 0).held + 1 ≤ 524288) ∧
    (let s := flyingAt 524288 1
     let t := s.modPart 0 fun q => { q with swap := [65536] }
     524288 < (s.slice 0).held + 1 ∧ (s.overflowRoom (s.ctxPart x0) 0 1).isNone = true ∧
       524288 < (t.slice 0).held + 1 ∧ (t.overflowRoom (t.ctxPart x0) 0 1).isSome = true) ∧
    (let s := queued flip0
     s.headCopy x0 1 = some flip0 ∧ flip0.pub = none ∧ s.stagedPages (s.ctxPart x0) 0 65536 = []) ∧
    let s := (queued flip0).modSlice 0 fun l => { l with staging := [(0, some { old := 0, new := 65536, pteAt := 0x10000 })] }
    s.headCopy x0 1 = some flip0 ∧ s.stagedPages (s.ctxPart x0) 0 65536 ≠ [] ∧ s.mayStamp kc = true := by
  decide +kernel

/-- An MMA of 32 products on local handles, started and granted; and one whose first operand is another tile's. -/
def mmaCmd : MatCmd :=
  { id := 5, p0 := 63, p1 := 63, acc := some 3, kind := .mma { h := 1 } { h := 2 } 32 false, sem := none, ev := none, started := true, granted := true }
def remoteMma : MatCmd :=
  { mmaCmd with kind := .mma { h := 1, vt := some 0 } { h := 2 } 32 false, granted := false, requested := true }
def withLic (s : State) : State := s.modLic 0 fun l => { l with st := 1, owner := requester 0 0, holder := some (requester 0 0) }
def mating (c : MatCmd) : State :=
  let s := core0.modHandle x0 1 fun _ => { h1 with st := 2, rows := 32, cols := 32, tag := 3#8, ebits := 16 }
  withLic (s.modCtx x0 fun t => { t with cmds := [c] })
def resReq (u : Nat) : ResReq := { site := 0, unit := 1, units := u, prio := 0, arrival := 0 }

def accepted : Accept → Bool
  | .ok _ => true
  | _ => false

theorem witness_MatrixUnitsStep :
    (let s := withLic (core0.modCore kc fun c => { c with stall := .matrix { mmaCmd with kind := .mzero } })
     (s.core kc).stall = .matrix { mmaCmd with kind := .mzero } ∧
       ((acceptMatrix (s.licStep (pairOf (s.ctx (coreCtx kc)).site)) kc { mmaCmd with kind := .mzero }) |> accepted) = true) ∧
    (let u := (mating mmaCmd).licStep (pairOf 0)
     u.matCtx 0 = some x0 ∧ (u.ctx x0).cmds = [mmaCmd] ∧ (u.ctx x0).site = 0 ∧ u.regionRuns (ctxRegion x0) = true ∧
       badStep u x0 mmaCmd 0 (min 32 32) = none ∧ mmaCmd.kind.remotes = [] ∧ mmaCmd.stopped = false ∧ u.oddCycle 0 = false) ∧
    (let c (k : MatKind) : MatCmd := { mmaCmd with kind := k }
     let ok (k : MatKind) : Bool := k.remotes.isEmpty && (badStep ((mating (c k)).licStep (pairOf 0)) x0 (c k) 0 (min k.stepLen.2 k.stepLen.1)).isNone
     (ok .mzero && ok (.mlda 1) && ok (.msta 1) && ok (.mtrn 2 1) && ok (.mcvt 1 .rne false 0#64)) = true) ∧
    (let c : MatCmd := { mmaCmd with kind := .mma { h := 1, vt := some 0 } { h := 2 } 32 false }
     let u (c : MatCmd) : State := (mating c).licStep (pairOf 0)
     (u c).matCtx 0 = some x0 ∧ c.kind.remotes ≠ [] ∧ c.served = false ∧ c.requested = false ∧ (u c).oddCycle 0 = false ∧
       badStep (u { c with served := true, requested := true }) x0 { c with served := true, requested := true } 0 32 = none) ∧
    (core0.licStep (pairOf 0)).matCtx 0 = none ∧
    (((List.range 4).findSome? fun i => (tget none ((mating { mmaCmd with consumed := true }).tile 0).slots i).bind fun x =>
      (((mating { mmaCmd with consumed := true }).ctx x).cmds.find? fun d => d.consumed).map fun d => (x, d)) =
        some (x0, { mmaCmd with consumed := true })) ∧
    (let s := mating remoteMma
     s.matCtx 0 = some x0 ∧ (s.ctx x0).cmds = [remoteMma] ∧ remoteMma.kind.remotes ≠ [] ∧ remoteMma.requested = true ∧
       remoteMma.served = false ∧ (remoteMma.kind.remotes.all fun o => !refusesRemote s x0 true o.1 o.2.1 o.2.2 0 32 (o.2.1 == 32 && o.2.2 == 32)) = true) ∧
    (let s := core0.modCluster 0 fun c => { c with waiting := [resReq 2], inuse := 894 }
     (s.cluster 0).waiting = [resReq 2] ∧ (s.cluster 0).inuse + 2 ≤ (s.cluster 0).budget) ∧
    (let s := core0.modCluster 0 fun c => { c with waiting := [resReq 2], inuse := 895 }
     (s.cluster 0).waiting = [resReq 2] ∧ (s.cluster 0).budget < (s.cluster 0).inuse + 2) ∧
    let s := core0.modLic 0 fun l => { l with moving := some 0 }
    (s.pair 0).lic.moving = some 0 ∧ s.requesterCtx 0 0 = some x0 := by
  decide +kernel

theorem witness_TileUnitsTakeTheirSteps :
    (let s := core0.modCore kc fun c => { c with stall := .push 4 5#64 }
     (s.core kc).stall = .push 4 5#64 ∧ (s.ctx (coreCtx kc)).depth 4 < 8) ∧
    (let t := core0.modCore kc fun c => { c with stall := .pop 0 5#5 }
     let s := t.modCtx x0 fun c => { c with q := [(0, [9#64])] }
     (s.core kc).stall = .pop 0 5#5 ∧ (s.ctx (coreCtx kc)).queue 0 = [9#64]) ∧
    (let t := core0.modTile 0 fun t => { t with vbanks := [(0, { powered := true })] }
     let s := t.modCluster 0 fun c => { c with edges := 4096 }
     s.bankIdle 0 0 0 = true ∧ t.bankIdle 0 0 0 = false) ∧
    core0.declaredV 0 0 31#5 = some x0 ∧ core0.declaredV 0 1 0#5 = none ∧ definedTag 0x40#8 = true ∧ definedTag 0x0F#8 = false ∧
    (let t := core0.modTile 0 fun t => { t with vecAsleep := false, rampEnd := some 64 }
     let s := t.modCluster 0 fun c => { c with edges := 64 }
     s.vecIdle 0 = true ∧ core0.vecIdle 0 = false ∧ (s.tile 0).rampEnd = some 64 ∧ 64 ≤ s.edgesAt 0) ∧
    (let s := core0.modTile 0 fun t => { t with terms := [(7, BitVec.ofNat 64 (2 ^ 63 + 3 * 2 ^ 32 + 5 * 2 ^ 36 + 4))], ev := [(2, 1)] }
     (s.tile 0).trueProduct (tget 0#64 (s.tile 0).terms 7) = some 4 ∧ termKind (tget 0#64 (s.tile 0).terms 7) = 3) ∧
    (core0.tile 0).trueProduct (tget 0#64 (core0.tile 0).terms 7) = none := by
  decide +kernel

/-- A message of core 0 to its own tile, the last of its release, on its way. -/
def msgTo (t : Nat) (k : MsgKind) : Msg := { region := 1, target := t, hdl := 0#8, kind := k, source := kc, sender := 0, payload := [] }
def sending (s : State) (m : Msg) : State :=
  { s.modCore kc fun c => { c with leaving := [m], stall := .refused } with flight := [(0, some m)] }
/-- Region 1 with a valid first entry of its handler table, whose header stands in code. -/
def entered : State :=
  { tabled with rim := rimPut (tabled.part 0) (rimPut (tabled.part 0) tabled.rim 0x8000 16 (2 ^ 32 + 2 ^ 33)) 0x20000 4 0x01014B48 }
/-- Its context is away, with its records parked. -/
def awayWith (n : Nat) : State := sending (core0.modCtx x0 fun c => { c with st := 2, lodge := List.replicate n (msgTo 0 .send) }) (msgTo 0 .send)
def bound (s : State) : State := s.modVf 0 fun v => { v with port := 0, part := 0, root := s.region 1 |>.blk.va, en := true, dqbase := 0x1004#64 }

theorem witness_MessagesReachTheirPlace :
    (let m := msgTo 0 (.arrive 3)
     let s := sending core0 m
     tget none s.flight 0 = some m ∧ m.toHost = false ∧ m.source < noCore ∧ (s.core m.source).leaving = [m] ∧
       (s.core m.source).stall = .refused ∧ ctxRegion (ctxKey m.region m.target) = m.region ∧ (s.region m.region).launched = true ∧
       (s.region m.region).st ≠ 3 ∧ (s.ctx (ctxKey m.region m.target)).st = 1 ∧ (s.ctx (ctxKey m.region m.target)).lodge = []) ∧
    (let m := msgTo 0 .send
     let s := sending entered m
     (s.ctx x0).st = 1 ∧ (s.ctx x0).lodge = [] ∧ (s.ctx x0).places.length < 32 ∧
       ((s.cacheEntry (coreCtx m.source) x0).classOf m.region { m with arrival := s.tick }).1 = some (0, true)) ∧
    ((awayWith 511).ctx x0).st = 2 ∧ ((awayWith 511).ctx x0).lodge.length < 512 ∧ 512 ≤ ((awayWith 512).ctx x0).lodge.length ∧
    (let m : Msg := { msgTo 0xFFFFFF .send with toHost := true }
     let s := bound (sending core0 m)
     tget none s.flight 0 = some m ∧ (s.core m.source).leaving = [m] ∧ s.windowOf { m with arrival := s.tick } = some 0 ∧ (s.vf 0).route = none ∧
       ringOn (s.vf 0).dqbase = true ∧ (s.vf 0).dqFull = false) ∧
    (let s := { sending core0 (msgTo 0 .send) with flight := [] }
     (s.core kc).leaving = [msgTo 0 .send] ∧ s.inFlight kc = false ∧ (s.ctx (coreCtx kc)).st = 1 ∧
       (s.cluster (clusterOf (s.ctx (coreCtx kc)).site)).viral = false) ∧
    (let s := core0.modCtx x0 fun c => { c with lodge := [msgTo 0 (.arrive 3)] }
     (s.ctx x0).st = 1 ∧ (s.ctx x0).lodge = [msgTo 0 (.arrive 3)]) := by
  decide +kernel

/-- Core 0 idle, and idle with a message for the first entry. -/
def idle0 (s : State) : State := s.modCore kc fun c => { c with act := none }
def place0 : Place := { msg := msgTo 0 .send, cls := 0, since := 0, compute := true }
def placed0 : State := idle0 (entered.modCtx x0 fun c => { c with places := [place0] })
/-- What the message's entry reads as. -/
def dispatchMeets (s : State) : Bool :=
  match (readEntry (s.modCtx x0 fun t => { t with places := t.places.erase place0 }) 1 (s.region 1).blk.htab (.core kc) 0).1 with
  | .ok e => e.valid
  | _ => false
/-- Core 0 in the starting acquire of an activation from its header at offset 0, and what that reads as. -/
def starting : State := entered.modCore kc fun c => { c with act := some (heldAct (.message place0.msg)), stall := .fp 0 (.start 0 none) }
def startMeets (s : State) : Bool :=
  match (readHeader (s.setView kc (s.fpOf kc)) 1 (s.region 1).blk.code 0 (s.fpOf kc)).1 with
  | .ok h => h.compute
  | _ => false

/-- A record for the compute core, and a run queue that holds one, and whether its head reads as such a record. -/
def contRec : ContRec := { hdr := 0, pcw := 0, join := none, regs := [], tailTick := 0, compute := true }
def ringed : State :=
  let s := (idle0 core0).modRegion 1 fun g => { g with blk := { g.blk with rqcap := 1, runq := 2 ^ 55 + 0x50000 } }
  { s.modRing 0 (2 ^ 55 + 0x50000) fun _ => { head := 0, count := 1 } with rim := rimPut (s.part 0) s.rim 0x50000 128 (2 ^ 63) }
def ringMeets (s : State) : Bool :=
  match (s.ringHead 1).1 with
  | .ok e => e.compute
  | _ => false

theorem witness_CoresFindWork :
    (let s := placed0
     s.running 0 = some x0 ∧ (s.ctx x0).site = 0 ∧ s.idle ⟨0, true⟩ = true ∧ (s.core kc).helping = false ∧ (s.ctx x0).nextPlace true = some place0 ∧
       (s.ctx x0).lodge = [] ∧ dispatchMeets s = true) ∧
    (let s := idle0 core0
     s.idle ⟨0, true⟩ = true ∧ (s.ctx x0).nextPlace true = none ∧ (s.ctx x0).deque = [] ∧ (s.ring (ctxRegion x0)).count = 0 ∧ s.victims x0 = []) ∧
    (let s := idle0 (core0.modCtx x0 fun c => { c with deque := [contRec] })
     s.idle ⟨0, true⟩ = true ∧ (s.ctx x0).nextPlace true = none ∧ (s.ctx x0).deque.getLast? = some contRec ∧ contRec.compute = true) ∧
    (let s := ringed
     s.idle ⟨0, true⟩ = true ∧ (s.ctx x0).nextPlace true = none ∧ (s.ctx x0).deque = [] ∧ (s.ring 1).count ≠ 0 ∧ ringMeets s = true) ∧
    (let s (l : List ContRec) : State := { idle0 core0 with ctxs := (idle0 core0).ctxs ++ [(ctxKey 1 1, { (core0.ctx x0) with slot := 1, deque := l })] }
     (s []).idle ⟨0, true⟩ = true ∧ ((s []).ring 1).count = 0 ∧ (s []).victims x0 = [ctxKey 1 1] ∧
       victimOf ((s []).nearVictims x0) ((s []).victims x0) 1 (nextSteal ((s []).stealState ⟨0, true⟩)) = ctxKey 1 1 ∧
       ((s []).ctx (ctxKey 1 1)).deque = [] ∧ ((s [contRec]).ctx (ctxKey 1 1)).deque = contRec :: []) ∧
    ((starting.core kc).due = none ∧ (starting.core kc).stall = .fp 0 (.start 0 none) ∧ (starting.core kc).act = some (heldAct (.message place0.msg)) ∧
      0 ≤ starting.fpOf kc ∧ startMeets starting = true) ∧
    (let s := core0.modMcore ⟨0, true⟩ fun m => { m with backoff := some 0 }
     (s.mcore ⟨0, true⟩).backoff = some 0 ∧ 0 ≤ s.edgesAt 0) ∧
    (let s := core0.modMcore ⟨0, true⟩ fun m => { m with backoff := some 1 }
     s.edgesAt 0 < 1) ∧
    (let s := { core0.modRegion 1 fun g => { g with blk := { g.blk with ovr := 0x30, refill := 2700, opsRate := 5, occRate := 7 } } with tick := 2700 }
     s.refillDue 1 = true ∧ core0.refillDue 1 = false) ∧
    (let t := { core0.modTile 0 fun t => { t with slots := [(0, some x0), (3, some (ctxKey 1 1))] } with tick := 270000 }
     let s := (t.modCtx (ctxKey 1 1) fun c => { c with st := 1, slot := 3 }).modCore (coreKey (ctxKey 1 1) true) fun c => { c with act := some loadAct }
     s.sliceDue 0 = true ∧ s.pinnedTile 0 = false ∧ s.nextReady 0 (s.tile 0).run = some 3) ∧
    (let s := { core0 with tick := 270000 }
     s.sliceDue 0 = true ∧ s.pinnedTile 0 = false ∧ s.nextReady 0 (s.tile 0).run = none) ∧
    core0.sliceDue 0 = false ∧ mon0.pinnedTile 0 = true ∧
    (let s := core0.modCore kc fun c => { c with stall := .launch 0 1 7 }
     (s.core kc).stall = .launch 0 1 7 ∧ s.ringRoom (s.corePart kc) 7 1 = true) ∧
    (let t := core0.modCore kc fun c => { c with stall := .launch 0 0 7 }
     let s := t.modCluster 0 fun c => { c with edges := 256 }
     s.ringRoom (s.corePart kc) 7 0 = false ∧ 0 + 256 ≤ s.edgesAt (s.ctx (coreCtx kc)).site ∧ (s.core kc).aside = none ∧ (s.core kc).assists = false ∧
       (s.core kc).act = some loadAct ∧ (s.core kc).held = [] ∧ (s.core kc).leaving = []) ∧
    (let d (cap : Nat) : Aside := { act := loadAct, ckpt := { pc := 0, regs := [], sig := {} }, cap := cap, ring := 7 }
     let s (cap : Nat) := (idle0 core0).modCore kc fun c => { c with aside := some (d cap) }
     ((s 1).core kc).aside = some (d 1) ∧ ((s 1).core kc).act = none ∧ (s 1).ringRoom ((s 1).corePart kc) 7 1 = true ∧
       (s 0).ringRoom ((s 0).corePart kc) 7 0 = false) := by
  decide +kernel

/-- A record of the host's, and a push that ended in a value. -/
def rec0 : RecImage := { w0 := 1#64, w1 := 0#64, join := 0#128, regs := [] }
def placed (r : Option ReqEnd) : Bool :=
  match r with
  | some (.value _ _ _) => true
  | _ => false

/-- A region of two tiles, the first away with a parked record in its lodge, or coming. -/
def comingHome : State := core0.modCtx x0 fun c => { c with st := 3, coming := true }

theorem witness_GangsAreSwapped :
    (let s := core0.modRegion 1 fun g => { g with pool := 1, hints := [0], blk := { g.blk with quota := 1 } }
     let s := (s.modTile 0 fun t => { t with slots := [] }).modCtx x0 fun c => { c with st := 0 }
     let s := (s.modCore kc fun c => { c with act := none }).modPart 0 fun q => { q with swap := (List.range 80).map fun i => (i + 16) * 65536 }
     (s.regions.all fun e => !e.2.remap) = true ∧ (s.ctxs.all fun e => e.2.lodge.isEmpty) = true ∧ (s.cores.all fun e => e.2.leaving.isEmpty) = true ∧
       s.flight = [] ∧ s.drains = [] ∧ s.dueGangs 0 = [(1, 0)] ∧ s.framesShort 1 (s.gangAway 1 0) = false ∧ (s.makeResident 1 0).isSome = true) ∧
    (let s := core0
     s.placed 1 0 = [x0] ∧ (s.ctx x0).coming = false ∧ (s.cluster (clusterOf (s.ctx x0).site)).viral = false ∧ s.quiet x0 = true ∧
       (s.ctx x0).cmds = [] ∧ (s.core ks).stall = .none ∧ (s.core kc).stall = .none) ∧
    core0.placed 2 0 = [] ∧
    (let s := comingHome
     ((s.modCtx x0 fun c => { c with savedBytes := 65536 }).ctx x0).savedBytes ≠ 0 ∧ ((s.placed 1 0).filter fun x => (s.ctx x).coming) = [x0] ∧ s.swapConflict x0 = false ∧ (s.ctx x0).entries = [] ∧ (s.ctx x0).lodge = [] ∧
       (s.cluster (clusterOf (s.ctx x0).site)).viral = false ∧ (s.core ks).leaving = [] ∧ (s.core kc).leaving = [] ∧
       (s.core ks).killLater = none ∧ (s.core kc).killLater = none ∧ (s.core kc).act.isSome = true) ∧
    core0.failed = false ∧ (core0.region 1).launched = true ∧ (core0.region 1).st ≠ 3 ∧ (∀ c ∈ [0], c ∈ (core0.part (core0.region 1).part).clusters) ∧
      (∃ c ∈ [1], c ∉ (core0.part (core0.region 1).part).clusters) ∧ (core0.region 1).blk.rqcap ≤ (core0.ring 1).count ∧
    (let s (va : Nat) := core0.modRegion 1 fun g => { g with blk := { g.blk with rqcap := 1, runq := va } }
     ((s (2 ^ 55 + 0x50000)).ring 1).count < ((s (2 ^ 55 + 0x50000)).region 1).blk.rqcap ∧
       placed ((s (2 ^ 55 + 0x50000)).ringPush 1 (imageNat rec0)).1 = true ∧ placed ((s 0).ringPush 1 (imageNat rec0)).1 = false) ∧
    ({ core0 with failed := true } : State).failed = true := by
  decide +kernel

end Sys2Proof.Tests
end

/-! PROOFS. What module reset leaves (O58). Every table of the reset state lists nothing, so that each of its units reads as the value
its structure gives for reset; the statement then reads the fields of these values. -/

namespace Sys2Proof.Machine

open Sys2Proof

/-! The units of the reset state, by their numbers. -/

theorem reset_rimByte (a : Nat) : State.reset.rimByte a = 0#8 := rfl
theorem reset_hostByte (a : Nat) : State.reset.hostByte a = 0#8 := rfl
theorem reset_part (p : Nat) : State.reset.part p = {} := rfl
theorem reset_vf (v : Nat) : State.reset.vf v = {} := rfl
theorem reset_port (i : Nat) : State.reset.port i = {} := rfl
theorem reset_kport (i : Nat) : State.reset.kport i = {} := rfl
theorem reset_hbm : State.reset.hbm = [] := rfl
theorem reset_cluster (cl : Nat) : State.reset.cluster cl = {} := rfl
theorem reset_rail (i : Nat) : State.reset.rail i = {} := rfl
theorem reset_tile (site : Nat) : State.reset.tile site = {} := rfl
theorem reset_pair (i : Nat) : State.reset.pair i = {} := rfl
theorem reset_core (k : Nat) : State.reset.core k = {} := rfl
theorem reset_ctx (x : Nat) : State.reset.ctx x = {} := rfl

/-- Both cores of a tile read as the same monitor core. -/
theorem reset_mcore (c : CoreId) : State.reset.mcore c = {} := by
  rw [State.mcore, reset_tile]
  cases h : c.compute
  · rfl
  · rfl

/-! What is read off these units through a default: a cluster's rail (R418), a slice's length (R324), a generator's seed (R329). -/

/-- No cluster names a rail at reset, so that it hangs on rail 0 of its power region. -/
theorem reset_railOf (cl : Nat) : State.reset.railOf cl = powerRegion cl * 4 := by
  rw [State.railOf, reset_cluster, Option.getD_none]

/-- A tile whose slices nobody has set gives every slot 270,000 ticks. -/
theorem sliceOf_unset (j : Nat) : ({} : Tile).sliceOf j = 270000 := by
  rw [Tile.sliceOf, tget_nil]

/-- No generator has drawn at reset, so that it holds its seed. -/
theorem reset_stealState (c : CoreId) : State.reset.stealState c = BitVec.ofNat 32 (c.site * 2 + bit01 c.compute + 1) := by
  rw [State.stealState, reset_mcore, Option.getD_none]

end Sys2Proof.Machine

namespace Sys2Proof.Proofs

open Sys2Proof Sys2Proof.Machine

/-- Settles O58: the units of the reset state read as their structures' values, and the fields of these are the values of R6 to R435. -/
theorem resetLeavesWhatTheSpecSays : Obligations.ResetLeavesWhatTheSpecSays := by
  unfold Obligations.ResetLeavesWhatTheSpecSays
  refine ⟨rfl, rfl, rfl, rfl, reset_memWf, fun a => ⟨reset_rimByte a, reset_hostByte a⟩, fun p => ?units, fun cl => ?cluster,
    fun site => ?tile, fun pair => ?licence, fun c => ?monitor, fun k => ?activation⟩
  case units => simp [reset_part, reset_vf, reset_port, reset_hbm, reset_kport]
  case cluster => simp [reset_cluster, reset_railOf, reset_rail]
  case tile => simp [reset_tile, sliceOf_unset]
  case licence => simp [reset_pair]
  case monitor => simp [reset_mcore, reset_stealState]
  case activation => simp [reset_core, reset_ctx]

end Sys2Proof.Proofs

/-! PROOFS. Bring-up, module reset, the lid, checkpoint and restore, rails and droop (O55). Each event is stated once by what it answers;
the one that reaches far is a self-test whose report finds the module below its guarantee (R18), which kills what runs, and all that it
does leaves memory and every cluster's report and pool as they are. -/

namespace Sys2Proof.Machine

open Sys2Proof

/-! What leaves memory and the pool as they are (R18, R19). -/

/-- Memory, and what each cluster has reported and lists in the pool, are the same. -/
structure PoolKept (s t : State) : Prop where
  mem : SameMemory s t
  ready (cl : Nat) : (t.cluster cl).ready = (s.cluster cl).ready
  pool (cl : Nat) : (t.cluster cl).pool = (s.cluster cl).pool

section
variable {s t u : State}

theorem PoolKept.refl (s : State) : PoolKept s s := ⟨⟨rfl, rfl, rfl⟩, fun _ => rfl, fun _ => rfl⟩

theorem PoolKept.trans (h : PoolKept s t) (k : PoolKept t u) : PoolKept s u where
  mem := by
    obtain ⟨hrim, htags, hhost⟩ := h.mem
    obtain ⟨krim, ktags, khost⟩ := k.mem
    exact ⟨krim.trans hrim, ktags.trans htags, khost.trans hhost⟩
  ready cl := (k.ready cl).trans (h.ready cl)
  pool cl := (k.pool cl).trans (h.pool cl)

/-- What changes neither memory nor a cluster. -/
theorem PoolKept.aside (h : PoolKept s t) (hm : SameMemory t u) (hc : u.clusters = t.clusters) : PoolKept s u :=
  h.trans ⟨hm, fun _ => by rw [State.cluster, hc, State.cluster], fun _ => by rw [State.cluster, hc, State.cluster]⟩

theorem PoolKept.ite {c : Prop} [Decidable c] (h : PoolKept s t) (k : PoolKept s u) : PoolKept s (if c then t else u) := by
  split
  · exact h
  · exact k

theorem PoolKept.withRegions (h : PoolKept s t) (l : Tbl Region) : PoolKept s { t with regions := l } := h.aside ⟨rfl, rfl, rfl⟩ rfl
theorem PoolKept.withKillTicks (h : PoolKept s t) (l : List (Nat × Nat)) : PoolKept s { t with killTicks := l } :=
  h.aside ⟨rfl, rfl, rfl⟩ rfl
theorem PoolKept.modTile (h : PoolKept s t) (i : Nat) (f : Tile → Tile) : PoolKept s (t.modTile i f) := h.aside ⟨rfl, rfl, rfl⟩ rfl
theorem PoolKept.modPair (h : PoolKept s t) (i : Nat) (f : Pair → Pair) : PoolKept s (t.modPair i f) := h.aside ⟨rfl, rfl, rfl⟩ rfl
theorem PoolKept.modSlice (h : PoolKept s t) (i : Nat) (f : Slice → Slice) : PoolKept s (t.modSlice i f) := h.aside ⟨rfl, rfl, rfl⟩ rfl
theorem PoolKept.modCtx (h : PoolKept s t) (x : Nat) (f : Ctx → Ctx) : PoolKept s (t.modCtx x f) := h.aside ⟨rfl, rfl, rfl⟩ rfl
theorem PoolKept.modCore (h : PoolKept s t) (k : Nat) (f : Core → Core) : PoolKept s (t.modCore k f) := h.aside ⟨rfl, rfl, rfl⟩ rfl
theorem PoolKept.modPart (h : PoolKept s t) (p : Nat) (f : Partition → Partition) : PoolKept s (t.modPart p f) :=
  h.aside ⟨rfl, rfl, rfl⟩ rfl
theorem PoolKept.modPub (h : PoolKept s t) (i : Nat) (f : Pub → Pub) : PoolKept s (t.modPub i f) := h.aside ⟨rfl, rfl, rfl⟩ rfl
theorem PoolKept.setPub (h : PoolKept s t) (i : Nat) (p : Option Pub) : PoolKept s (t.setPub i p) := h.aside ⟨rfl, rfl, rfl⟩ rfl
theorem PoolKept.post (h : PoolKept s t) (e : Instr) : PoolKept s (t.post e) := h.aside ⟨rfl, rfl, rfl⟩ rfl
theorem PoolKept.emit (h : PoolKept s t) (o : Out) : PoolKept s (t.emit o) := h.aside ⟨rfl, rfl, rfl⟩ rfl
theorem PoolKept.forget (h : PoolKept s t) (f : Asker → Bool) : PoolKept s (t.forget f) := h.aside ⟨rfl, rfl, rfl⟩ rfl
theorem PoolKept.askDrain (h : PoolKept s t) (d : DrainFor) : PoolKept s (t.askDrain d) := h.aside ⟨rfl, rfl, rfl⟩ rfl

theorem PoolKept.modCluster (h : PoolKept s t) (cl : Nat) {f : Cluster → Cluster} (hr : ∀ c, (f c).ready = c.ready)
    (hp : ∀ c, (f c).pool = c.pool) : PoolKept s (t.modCluster cl f) := by
  have same {α : Type} (g : Cluster → α) (hg : ∀ c, g (f c) = g c) (j : Nat) : g ((t.modCluster cl f).cluster j) = g (t.cluster j) := by
    rw [State.modCluster_cluster]
    split
    · subst ‹cl = j›; exact hg _
    · rfl
  exact h.trans ⟨⟨rfl, rfl, rfl⟩, same _ hr, same _ hp⟩

/-- A fold of steps that keep memory and the pool keeps them. -/
theorem PoolKept.foldl {α : Type} {f : State → α → State} (hf : ∀ v x, PoolKept v (f v x)) (l : List α) (h : PoolKept s t) :
    PoolKept s (l.foldl f t) := by
  induction l generalizing t with
  | nil => exact h
  | cons x l ih => exact ih (h.trans (hf t x))

/-! Kills (R388): publications withdrawn, chunks dropped, commands discarded. -/

theorem PoolKept.trimOverflow (h : PoolKept s t) (p sl : Nat) : PoolKept s (t.trimOverflow p sl) := h.ite ((h.modSlice _ _).modPart _ _)

theorem PoolKept.dropHeld (h : PoolKept s t) (p : Nat) (f : Held → Bool) : PoolKept s (t.dropHeld p f) := by
  unfold State.dropHeld
  refine PoolKept.foldl (fun v d => ?_) _ (h.aside ⟨rfl, rfl, rfl⟩ rfl)
  have hv := PoolKept.refl v
  exact (hv.ite (hv.modSlice _ _)).trimOverflow p _

theorem PoolKept.withdrawPub (h : PoolKept s t) (id : Nat) : PoolKept s (t.withdrawPub id) := by
  have dropped {v : State} (hv : PoolKept s v) : PoolKept s (v.dropIfGone id) := by
    unfold State.dropIfGone
    split
    · exact (hv.setPub id none).ite hv
    · exact hv
  unfold State.withdrawPub
  split
  · refine h.ite (dropped (PoolKept.foldl (fun v e => ?_) _ (h.modPub _ _)))
    have hv := PoolKept.refl v
    exact ((hv.modSlice _ _).post _).ite (hv.modSlice _ _)
  · exact h

theorem PoolKept.freeEntries (h : PoolKept s t) (es : List (Nat × Nat)) : PoolKept s (t.freeEntries es) :=
  PoolKept.foldl (f := State.freeEntry) (fun v _ => (PoolKept.refl v).modTile _ _) es h

theorem PoolKept.cancelCopies (h : PoolKept s t) (x q : Nat) (f : CopyCmd → Bool) : PoolKept s (t.cancelCopies x q f) := by
  unfold State.cancelCopies
  refine PoolKept.ite (PoolKept.foldl (fun v r => PoolKept.modCore (.refl v) _ _) _ (PoolKept.modCtx (PoolKept.forget ?discarded _) _ _))
    (PoolKept.modCtx ?discarded _ _)
  refine PoolKept.foldl (fun v c => PoolKept.dropHeld ?_ _ _) _ h
  have freed := (PoolKept.refl v).freeEntries (c.entry.toList ++ c.dests.filterMap (·.entry))
  split
  · exact freed.withdrawPub _
  · exact freed

theorem PoolKept.releaseUnits (h : PoolKept s t) (cl n : Nat) : PoolKept s (t.releaseUnits cl n) :=
  have given := h.modCluster cl (f := fun c => { c with inuse := c.inuse - n }) (fun _ => rfl) fun _ => rfl
  given.ite (given.post _)

theorem PoolKept.discardMats (h : PoolKept s t) (x : Nat) (f : MatCmd → Bool) (keep : Bool) : PoolKept s (t.discardMats x f keep) := by
  unfold State.discardMats
  refine PoolKept.ite (PoolKept.releaseUnits ?discarded _ _) ?discarded
  exact PoolKept.modCtx (PoolKept.foldl (fun v c => (PoolKept.refl v).freeEntries _) _ h) _ _

theorem PoolKept.killNow (h : PoolKept s t) (k : Nat) (how : Killed) : PoolKept s (t.killNow k how) := by
  unfold State.killNow
  refine PoolKept.modCore (PoolKept.forget (PoolKept.discardMats
    (PoolKept.ite (PoolKept.modTile (PoolKept.withKillTicks ?cancelled _) _ _) ?cancelled) _ _ _) _) k _
  refine PoolKept.foldl (fun v q => PoolKept.cancelCopies (.refl v) _ q _) _ (PoolKept.ite ?withdrawn (PoolKept.dropHeld ?withdrawn _ _))
  split
  · exact h.ite (h.withdrawPub _)
  · exact h

theorem PoolKept.kill (h : PoolKept s t) (k : Nat) (how : Killed) : PoolKept s (t.kill k how) :=
  h.ite ((h.modCore k _).ite (PoolKept.killNow (PoolKept.ite (h.modTile _ _) h) k how))

theorem PoolKept.killDead (h : PoolKept s t) (k : Nat) : PoolKept s (t.killDead k) :=
  have killed : PoolKept s (if (t.core k).act.isNone then t else t.kill k .dead) := h.ite (h.kill k .dead)
  killed.ite (killed.modCore k _)

theorem PoolKept.killAll (h : PoolKept s t) (xs : List Nat) : PoolKept s (t.killAll xs) := by
  refine PoolKept.foldl (fun v x => ?_) xs h
  exact ((PoolKept.refl v).killDead _).killDead _

/-! A site leaves the pool (R379, R21), and the module fails (R18). -/

theorem PoolKept.stopMats (h : PoolKept s t) (x : Nat) : PoolKept s (t.stopMats x) :=
  ((h.modCtx x _).releaseUnits _ _).ite (h.modCtx x _)

theorem PoolKept.licPool (h : PoolKept s t) (pair : Nat) : PoolKept s (t.licPool pair) := by
  unfold State.licPool
  refine h.ite (PoolKept.modPair ?_ _ _)
  split
  · exact h.stopMats _
  · exact h

theorem PoolKept.poolShrunk (h : PoolKept s t) (site : Nat) : PoolKept s (t.poolShrunk site) :=
  (h.withRegions _).licPool _

theorem PoolKept.partitionReset (h : PoolKept s t) (p : Nat) : PoolKept s (t.partitionReset p) :=
  ((h.killAll _).withRegions _).askDrain _

theorem PoolKept.failModule (h : PoolKept s t) : PoolKept s t.failModule := by
  unfold State.failModule
  refine PoolKept.foldl (fun v _ => (PoolKept.refl v).emit _) _ (PoolKept.foldl (fun v p => ?_) _ ?_)
  · exact ((PoolKept.refl v).partitionReset p).modPart p _
  · exact h.aside ⟨rfl, rfl, rfl⟩ rfl

theorem PoolKept.clearCluster (h : PoolKept s t) (cl : Nat) : PoolKept s (t.clearCluster cl) := by
  unfold State.clearCluster
  refine PoolKept.modCluster (PoolKept.foldl (fun v i => (PoolKept.refl v).modSlice _ _) _ h) cl (fun _ => rfl) fun _ => rfl

end

/-! Reports of units that are ready (R435). -/

/-- A cluster's self-test with enough good tiles: the cluster is ready with its word in the pool, in which a retest clears bits alone, and
memory is as before, whether or not the module fails over its column (R18, R19). -/
theorem exec_clusterSelfTestDone {s : State} {cl : Nat} {w v : W128}
    (hv : v = if (s.cluster cl).ready = 0 then w else (s.cluster cl).pool &&& w) (hcl : cl < 121) (hgood : perCluster ≤ goodTiles v)
    (hready : (s.cluster cl).ready = 0 ∨ (s.cluster cl).ready = 3) :
    ∃ t, exec (.clusterSelfTestDone cl w) s = .next t ∧ PoolKept (s.modCluster cl fun c => { c with pool := v, ready := 1 }) t := by
  have hrun : (121 ≤ cl || (s.cluster cl).ready == 1 || (s.cluster cl).ready == 2) = false := by
    have hle : ¬ 121 ≤ cl := by omega
    rcases hready with h | h <;> simp [hle, h]
  refine ⟨_, rfl, ?_⟩
  simp only [hrun, ← hv, hgood, decide_true, if_true, Bool.false_eq_true, if_false]
  refine PoolKept.ite ?shrunk (PoolKept.ite (PoolKept.failModule ?shrunk) ?shrunk)
  exact PoolKept.foldl (fun u i => (PoolKept.refl u).poolShrunk i) _ (.refl _)

/-- A table without the keys that f refuses reads there as its default. -/
theorem tget_filter_key {α : Type} (d : α) (f : Nat → Bool) (t : Tbl α) (k : Nat) :
    tget d (t.filter fun e => f e.1) k = if f k then tget d t k else d := by
  induction t with
  | nil => simp
  | cons e t ih =>
    obtain ⟨j, v⟩ := e
    rw [List.filter_cons, tget]
    by_cases hjk : j = k
    · subst hjk
      cases hf : f j <;> simp [hf, tget, ih]
    · cases hf : f j <;> simp [hjk, tget, ih]

/-- Zeroed cells read 0, and all others as before (R77). -/
theorem zeroCells_rim (s : State) (lo hi a : Nat) :
    tget 0#8 (s.zeroCells lo hi).rim a = if lo ≤ a ∧ a < hi then 0#8 else tget 0#8 s.rim a := by
  refine (tget_filter_key 0#8 (fun k => decide (k < lo ∨ hi ≤ k)) s.rim a).trans ?_
  by_cases h : lo ≤ a ∧ a < hi
  · rw [if_pos h, if_neg (by simpa using h)]
  · rw [if_neg h, if_pos (by simp; omega)]

/-- A stack that has not reported: its report stands, and the memory of one that is ready is zeroed (R77). -/
theorem exec_hbmStackReady {s : State} {stack : Nat} (ok : Bool) (hlt : stack < 48) (hnew : tget 0 s.hbm stack = 0) :
    ∃ t, exec (.hbmStackReady stack ok) s = .next t ∧ t.cores = s.cores ∧ t.host = s.host ∧ tget 0 t.hbm stack = (if ok then 1 else 2) ∧
      ∀ a, tget 0#8 t.rim a = if ok = true ∧ stack * 2 ^ 36 ≤ a ∧ a < (stack + 1) * 2 ^ 36 then 0#8 else tget 0#8 s.rim a := by
  refine ⟨_, congrArg Host.Outcome.next (if_neg (by simp [hlt, hnew])), ?_⟩
  have written : ∀ v, tget 0 (tput 0 stack v s.hbm) stack = v := fun v => tget_tput_same 0 v stack s.hbm
  cases ok
  · exact ⟨rfl, rfl, written 2, fun a => by simp⟩
  · exact ⟨rfl, rfl, written 1, fun a => by simpa using zeroCells_rim s _ _ a⟩

theorem exec_hostPortReady {port : Nat} (ok : Bool) (s : State) (h : port < 4) :
    exec (.hostPortReady port ok) s = .next
      (let u := s.modPort port fun t => { t with ready := readyCode ok }
       if ok then u.emit (.subsystem port subsystemId) else u) :=
  congrArg Host.Outcome.next (if_neg (by omega))

theorem exec_hostPortLinkDown {port : Nat} (s : State) (h : port < 4) :
    exec (.hostPortLinkDown port) s = .next (s.modPort port fun t => { t with ready := 0 }) :=
  congrArg Host.Outcome.next (if_neg (by omega))

theorem exec_kwelinkPortReady {port : Nat} (ok : Bool) (s : State) (h : port < 16) :
    exec (.kwelinkPortReady port ok) s = .next (s.modKport port fun k => { k with ready := readyCode ok }) :=
  congrArg Host.Outcome.next (if_neg (by omega))

/-! A restore puts the image back (R436). -/

/-- A fold that writes other slices leaves a slice as it is. -/
theorem slice_foldl_modSlice_other {α : Type} (f : Nat × α → Slice → Slice) (j : Nat) (l : List (Nat × α)) (s : State)
    (h : j ∉ l.map (·.1)) : (l.foldl (fun s e => s.modSlice e.1 (f e)) s).slice j = s.slice j := by
  induction l generalizing s with
  | nil => rfl
  | cons e l ih =>
    rw [List.map_cons, List.mem_cons, not_or] at h
    rw [List.foldl_cons, ih _ h.2, State.modSlice_slice_other _ _ _ _ (Ne.symm h.1)]

/-- A fold that writes each slice once writes each listed one. -/
theorem slice_foldl_modSlice_mem {α : Type} (f : Nat × α → Slice → Slice) (l : List (Nat × α)) (s : State) (hn : (l.map (·.1)).Nodup)
    {e : Nat × α} (he : e ∈ l) : (l.foldl (fun s e => s.modSlice e.1 (f e)) s).slice e.1 = f e (s.slice e.1) := by
  induction l generalizing s with
  | nil => cases he
  | cons d l ih =>
    rw [List.map_cons, List.nodup_cons] at hn
    rw [List.foldl_cons]
    rcases List.mem_cons.1 he with rfl | he
    · rw [slice_foldl_modSlice_other f e.1 l _ hn.1, State.modSlice_slice_same]
    · have hne : d.1 ≠ e.1 := fun h => hn.1 (h ▸ List.mem_map_of_mem he)
      rw [ih _ hn.2 he, State.modSlice_slice_other _ _ _ _ hne]

/-- Some context is resident or in transit, unless every context is neither. -/
theorem any_placed_eq (l : Tbl Ctx) : (l.any fun e => e.2.st == 1 || e.2.st == 3) = !l.all fun e => e.2.st != 1 && e.2.st != 3 := by
  simp [List.not_all_eq_any_not, bne]

theorem exec_restore_refused {s : State} {i : Image} (hi : s.image = some i)
    (h : s.failed = true ∨ (s.ctxs.all fun e => e.2.st != 1 && e.2.st != 3) = false) :
    exec .restore s = .next (s.emit (.pfRefused 0)) := by
  show execRestore s = _
  unfold execRestore
  rw [hi]
  exact congrArg Host.Outcome.next (if_pos (by simpa [any_placed_eq] using h))

theorem exec_restore {s : State} {i : Image} (hi : s.image = some i) (hf : s.failed = false)
    (h : (s.ctxs.all fun e => e.2.st != 1 && e.2.st != 3) = true) :
    ∃ t, exec .restore s = .next t ∧ t.rim = i.rim ∧ t.rimTags = i.tags ∧
      t.ctxs = i.ctxs ∧ t.cores = i.cores ∧ t.regions = i.regions ∧ t.host = s.host ∧ t.held = i.held ∧
      ((i.slices.map (·.1)).Nodup → ∀ e ∈ i.slices, (t.slice e.1).staging = e.2.1 ∧ (t.slice e.1).frames = e.2.2.1) := by
  have hrun : ¬ (s.failed || s.ctxs.any fun e => e.2.st == 1 || e.2.st == 3) = true := by simp [any_placed_eq, hf, h]
  have cleared := PoolKept.foldl (fun v cl => (PoolKept.refl v).clearCluster cl) (List.range 121) (.refl s)
  obtain ⟨-, -, hhost⟩ := (PoolKept.foldl (fun v (e : Nat × Tbl (Option Staging) × List Nat × Nat) => (PoolKept.refl v).modSlice e.1
    fun l => { l with staging := e.2.1, frames := e.2.2.1, held := e.2.2.2 }) i.slices cleared).mem
  have heq : exec .restore s = execRestore s := rfl
  unfold execRestore at heq
  rw [hi] at heq
  refine ⟨_, heq.trans (congrArg Host.Outcome.next (if_neg hrun)), rfl, rfl, rfl, rfl, rfl, hhost, rfl, fun hn e he => ?_⟩
  have hslice := slice_foldl_modSlice_mem
    (fun (e : Nat × Tbl (Option Staging) × List Nat × Nat) l => { l with staging := e.2.1, frames := e.2.2.1, held := e.2.2.2 })
    i.slices ((List.range 121).foldl State.clearCluster s) hn he
  exact ⟨congrArg Slice.staging hslice, congrArg Slice.frames hslice⟩

/-! Rails and droop (R417, R418, R422, R423). -/

theorem exec_railSettingWrite {rail m : Nat} (mv : Nat) (s : State) (hr : rail < 64) (hlo : 8 ≤ m) (hhi : m ≤ 16) :
    exec (.railSettingWrite rail mv m) s = .next { s with rails := tput {} rail { s.rail rail with mv := some mv, next := some m } s.rails } :=
  congrArg Host.Outcome.next (if_neg (by simp; omega))

theorem exec_railSettingWrite_refused {rail m : Nat} (mv : Nat) (s : State) (h : 64 ≤ rail ∨ m < 8 ∨ 16 < m) :
    exec (.railSettingWrite rail mv m) s = .next (s.emit (.pfRefused rail)) :=
  congrArg Host.Outcome.next (if_pos (by simp; omega))

/-- A context stands outside a cluster where neither its site nor its shadow's is there (R391). -/
theorem not_standsIn (c : Ctx) (cl : Nat) :
    (!c.standsIn cl) = (clusterOf c.site != cl && c.shadow.all fun n => clusterOf (n / 4) != cl) := by
  unfold Ctx.standsIn
  cases c.shadow <;> simp [bne]

/-- Every context that stands in the cluster is stopped (R418), as `State.stopped` takes the word (log entry 34). -/
def State.switchFree (s : State) (cl : Nat) : Bool :=
  s.ctxs.all fun e => (clusterOf e.2.site != cl && e.2.shadow.all fun n => clusterOf (n / 4) != cl) || s.stopped e.1

theorem switchFree_eq (s : State) (cl : Nat) : (s.ctxs.all fun e => !e.2.standsIn cl || s.stopped e.1) = s.switchFree cl := by
  simp only [State.switchFree, not_standsIn]

theorem exec_clusterSwitchWrite {cl rail : Nat} {s : State} (hcl : cl < 121) (hr : rail / 4 = powerRegion cl) (h : s.switchFree cl = true) :
    exec (.clusterSwitchWrite cl rail) s = .next (s.modCluster cl fun c => { c with rail := some rail }) :=
  congrArg Host.Outcome.next (if_neg (by simp [switchFree_eq, h, hr, hcl]))

theorem exec_clusterSwitchWrite_refused {cl : Nat} {s : State} (rail : Nat) (h : s.switchFree cl = false) :
    exec (.clusterSwitchWrite cl rail) s = .next (s.emit (.pfRefused cl)) :=
  congrArg Host.Outcome.next (if_pos (by simp [switchFree_eq, h]))

theorem exec_droopAlarm_below {cl sag : Nat} {s : State} (h : sag < (s.cluster cl).th) : exec (.droopAlarm cl sag) s = .next s :=
  congrArg Host.Outcome.next (if_pos (by simp [h]))

/-- A sample at the threshold or above raises the alarm and starts a stretch, unless one is under way, which goes on. -/
theorem exec_droopAlarm {cl sag : Nat} {s : State} (hth : 0 < (s.cluster cl).th) (hsag : (s.cluster cl).th ≤ sag) :
    ∃ t, RunsAside (.droopAlarm cl sag) s t ∧ (t.cluster cl).alarm = true ∧ (t.cluster cl).alarms = min 65535 ((s.cluster cl).alarms + 1) ∧
      (t.cluster cl).stretch = if 1 < (s.cluster cl).stretch then (s.cluster cl).stretch else 7 := by
  have hrun : ¬ ((s.cluster cl).th == 0 || sag < (s.cluster cl).th) = true := by simp; omega
  have raised := State.modCluster_cluster_same s cl fun c =>
    { c with alarm := true, alarms := min 65535 (c.alarms + 1), alarmTick := s.tick % 2 ^ 32 }
  by_cases hst : 1 < (s.cluster cl).stretch
  · refine ⟨_, ⟨congrArg Host.Outcome.next ((if_neg hrun).trans (if_pos hst)), rfl, rfl, rfl, rfl⟩,
      congrArg Cluster.alarm raised, congrArg Cluster.alarms raised, ?_⟩
    rw [if_pos hst]
    exact (congrArg Cluster.stretch raised :)
  · have started := (State.modCluster_cluster_same _ cl fun c => { c with stretch := 7, withhold := true, halved := 0 }).trans
      (congrArg (fun c : Cluster => { c with stretch := 7, withhold := true, halved := 0 }) raised)
    refine ⟨_, ⟨congrArg Host.Outcome.next ((if_neg hrun).trans (if_neg hst)), rfl, rfl, rfl, rfl⟩,
      congrArg Cluster.alarm started, congrArg Cluster.alarms started, ?_⟩
    rw [if_neg hst]
    exact (congrArg Cluster.stretch started :)

theorem exec_stretchEnd (cl : Nat) (s : State) : exec (.stretchEnd cl) s = .next
    (if (s.cluster cl).stretch = 1 then s.modCluster cl fun c => { c with stretch := 0, withhold := false, halved := 65 } else s) := by
  show execStretchEnd cl s = _
  simp only [execStretchEnd, beq_iff_eq]

theorem exec_halvedIssueEnd (cl : Nat) (s : State) : exec (.halvedIssueEnd cl) s = .next
    (if (s.cluster cl).halved = 1 then s.modCluster cl fun c => { c with halved := 0 } else s) := by
  show execHalvedIssueEnd cl s = _
  simp only [execHalvedIssueEnd, beq_iff_eq]

end Sys2Proof.Machine

namespace Sys2Proof.Proofs

open Sys2Proof Sys2Proof.Machine

/-- Settles O55, each event by its equation. A cluster's report stands although the module may fail over it, for what fails keeps the pool
(`PoolKept.failModule`), and a restored slice reads as the image's, for the image lists it once (`slice_foldl_modSlice_mem`). -/
theorem bringUpAndClocks : Obligations.BringUpAndClocks := by
  unfold Obligations.BringUpAndClocks
  refine ⟨fun s => ?reset, fun s cl w hcl hgood hready => ?selfTest, fun s port ok h => ⟨?portReady, ?portDown⟩,
    fun s stack ok hlt hnew => exec_hbmStackReady ok hlt hnew, fun s port ok h => ?kwelink, fun s o n => ?lid, fun s => ?checkpoint,
    fun s i hi => ⟨exec_restore hi, exec_restore_refused hi⟩, fun s rail mv m => ⟨fun hr hlo hhi => ?rail, exec_railSettingWrite_refused mv s⟩,
    fun s cl rail hcl hr => ⟨fun h => ?switch, exec_clusterSwitchWrite_refused rail⟩,
    fun s cl sag hth => ⟨exec_droopAlarm hth, exec_droopAlarm_below⟩,
    fun s cl => ⟨fun h => ?stretch, fun h => ?stretchOff, fun h => ?halved, fun h => ?halvedOff⟩⟩
  case reset => exact ⟨_, rfl, rfl, rfl, rfl, rfl, rfl, rfl, rfl, rfl, rfl, rfl, rfl, rfl⟩
  case selfTest =>
    obtain ⟨t, hexec, hkept⟩ := exec_clusterSelfTestDone rfl hcl hgood hready
    refine ⟨t, hexec, hkept.mem, ?_, ?_⟩
    · rw [hkept.ready, State.modCluster_cluster_same]
    · rw [hkept.pool, State.modCluster_cluster_same]
  case portReady =>
    have reported := State.modPort_port_same s port fun t => { t with ready := readyCode ok }
    cases ok
    · exact ⟨_, ⟨exec_hostPortReady false s h, rfl, rfl, rfl, rfl⟩, congrArg Port.ready reported, nofun⟩
    · exact ⟨_, ⟨exec_hostPortReady true s h, rfl, rfl, rfl, rfl⟩, congrArg Port.ready reported, fun _ => rfl⟩
  case portDown => exact ⟨_, ⟨exec_hostPortLinkDown s h, rfl, rfl, rfl, rfl⟩, by rw [State.modPort_port_same]⟩
  case kwelink => exact ⟨_, ⟨exec_kwelinkPortReady ok s h, rfl, rfl, rfl, rfl⟩, by rw [State.modKport_kport_same]; rfl⟩
  case lid => exact ⟨_, ⟨rfl, rfl, rfl, rfl, rfl⟩, rfl, rfl, rfl⟩
  case checkpoint => exact ⟨_, ⟨rfl, rfl, rfl, rfl, rfl⟩, (tget_tput_same none (some .checkpoint) s.seq s.drains :), rfl⟩
  case rail =>
    have hrail := tget_tput_same ({} : Rail) { s.rail rail with mv := some mv, next := some m } rail s.rails
    exact ⟨_, ⟨exec_railSettingWrite mv s hr hlo hhi, rfl, rfl, rfl, rfl⟩, congrArg Rail.mv hrail, congrArg Rail.next hrail,
      (congrArg Rail.m hrail :)⟩
  case switch => exact ⟨_, ⟨exec_clusterSwitchWrite hcl hr h, rfl, rfl, rfl, rfl⟩, by rw [State.modCluster_cluster_same]⟩
  case stretch =>
    refine ⟨_, ⟨(exec_stretchEnd cl s).trans (congrArg _ (if_pos h)), rfl, rfl, rfl, rfl⟩, ?_, ?_⟩ <;> rw [State.modCluster_cluster_same]
  case stretchOff => rw [exec_stretchEnd, if_neg h]
  case halved =>
    exact ⟨_, ⟨(exec_halvedIssueEnd cl s).trans (congrArg _ (if_pos h)), rfl, rfl, rfl, rfl⟩, by rw [State.modCluster_cluster_same]⟩
  case halvedOff => rw [exec_halvedIssueEnd, if_neg h]

end Sys2Proof.Proofs

/-! PROOFS. Decoding and encoding (O9, O10, O8). -/

namespace Sys2Proof

open Sys2Proof

/-! Fields of words. -/

theorem field_eq {k n : Nat} {w : BitVec k} {lo : Nat} {x : BitVec n} (h : w.toNat / 2 ^ lo % 2 ^ n = x.toNat) : field w lo n = x :=
  BitVec.eq_of_toNat_eq (by rw [field, BitVec.toNat_ofNat, h])

theorem bitAt_eq {k : Nat} {w : BitVec k} {i : Nat} {b : Bool} (h : w.toNat / 2 ^ i % 2 = bit01 b) : bitAt w i = b := by
  rw [bitAt, h]
  cases b <;> rfl

theorem bit01_le (b : Bool) : bit01 b ≤ 1 := by cases b <;> decide

theorem bit01_lt (b : Bool) : bit01 b < 2 := Nat.lt_succ_of_le (bit01_le b)

/-! Packing (R23, R25): a format's fields are read back from its word, whatever the major and the LEN beside them. -/

section
variable (maj : BitVec 6) {len : Nat}

theorem toNat_packA (f : FieldsA) (h : len < 4) : (packA maj len f).toNat =
    (f.q.toNat * 2 ^ 21 + f.min.toNat * 2 ^ 15 + f.b.toNat * 2 ^ 10 + f.a.toNat * 2 ^ 5 + f.d.toNat) * 2 ^ 8 + maj.toNat * 4 + len := by
  rw [packA, BitVec.toNat_ofNat]; omega

theorem toNat_packI (f : FieldsI) (h : len < 4) : (packI maj len f).toNat =
    (f.imm.toNat * 2 ^ 13 + f.min.toNat * 2 ^ 10 + f.a.toNat * 2 ^ 5 + f.d.toNat) * 2 ^ 8 + maj.toNat * 4 + len := by
  rw [packI, BitVec.toNat_ofNat]; omega

theorem toNat_packB (f : FieldsB) : (packB maj f).toNat =
    (f.off.toNat * 2 ^ 15 + f.hint.toNat * 2 ^ 13 + f.cond.toNat * 2 ^ 10 + f.b.toNat * 2 ^ 5 + f.a.toNat) * 2 ^ 8 + maj.toNat * 4 + 0 := by
  rw [packB, BitVec.toNat_ofNat]; omega

theorem toNat_packJ (f : FieldsJ) : (packJ maj f).toNat = (f.off.toNat * 2 ^ 2 + f.hint.toNat) * 2 ^ 8 + maj.toNat * 4 + 0 := by
  rw [packJ, BitVec.toNat_ofNat]; omega

theorem toNat_packV (f : FieldsV) : (packV maj f).toNat = (f.mr.toNat * 2 ^ 22 + f.mp.toNat * 2 ^ 21 + f.me.toNat * 2 ^ 20 +
    f.min.toNat * 2 ^ 15 + f.b.toNat * 2 ^ 10 + f.a.toNat * 2 ^ 5 + f.d.toNat) * 2 ^ 8 + maj.toNat * 4 + 0 := by
  rw [packV, BitVec.toNat_ofNat]; omega

theorem fieldsA_packA (f : FieldsA) (h : len < 4) : fieldsA (packA maj len f) = f := by
  have hw := toNat_packA maj f h
  obtain ⟨q, min, b, a, d⟩ := f
  simp only [fieldsA, FieldsA.mk.injEq]
  refine ⟨field_eq ?_, field_eq ?_, field_eq ?_, field_eq ?_, field_eq ?_⟩ <;> rw [hw] <;> dsimp only <;> omega

theorem fieldsI_packI (f : FieldsI) (h : len < 4) : fieldsI (packI maj len f) = f := by
  have hw := toNat_packI maj f h
  obtain ⟨imm, min, a, d⟩ := f
  simp only [fieldsI, FieldsI.mk.injEq]
  refine ⟨field_eq ?_, field_eq ?_, field_eq ?_, field_eq ?_⟩ <;> rw [hw] <;> dsimp only <;> omega

theorem fieldsB_packB (f : FieldsB) : fieldsB (packB maj f) = f := by
  have hw := toNat_packB maj f
  obtain ⟨off, hint, cond, b, a⟩ := f
  simp only [fieldsB, FieldsB.mk.injEq]
  refine ⟨field_eq ?_, field_eq ?_, field_eq ?_, field_eq ?_, field_eq ?_⟩ <;> rw [hw] <;> dsimp only <;> omega

theorem fieldsJ_packJ (f : FieldsJ) : fieldsJ (packJ maj f) = f := by
  have hw := toNat_packJ maj f
  obtain ⟨off, hint⟩ := f
  simp only [fieldsJ, FieldsJ.mk.injEq]
  refine ⟨field_eq ?_, field_eq ?_⟩ <;> rw [hw] <;> dsimp only <;> omega

theorem fieldsV_packV (f : FieldsV) : fieldsV (packV maj f) = f := by
  have hw := toNat_packV maj f
  obtain ⟨mr, mp, me, min, b, a, d⟩ := f
  simp only [fieldsV, FieldsV.mk.injEq]
  refine ⟨field_eq ?_, field_eq ?_, field_eq ?_, field_eq ?_, field_eq ?_, field_eq ?_, field_eq ?_⟩ <;> rw [hw] <;> dsimp only <;> omega

end

theorem literal_split (l : W64) : literal (litLo l) (litHi l) = l := by
  apply BitVec.eq_of_toNat_eq
  simp only [literal, litLo, litHi, field, BitVec.toNat_ofNat]
  omega

/-! Stage one: major, LEN and form. -/

/-- The major of a form's fields. -/
def Fields.maj : Fields → BitVec 6
  | .a m _ | .aLit m _ _ | .i m _ | .iLit m _ _ | .b m _ | .j m _ | .v m _ | .x m _ _ _ | .xLit m _ _ _ _ => m

/-- The LEN that a form's word 0 is packed with (R27). -/
def Fields.len : Fields → Nat
  | .a .. | .i .. | .b .. | .j .. | .v .. => 0
  | .x .. => 1
  | .aLit .. | .iLit .. => 2
  | .xLit .. => 3

def Fields.form : Fields → Form
  | .a .. => .a
  | .aLit .. => .aLit
  | .i .. => .i
  | .iLit .. => .iLit
  | .b .. => .b
  | .j .. => .j
  | .v .. => .v
  | .x .. => .x
  | .xLit .. => .xLit

/-- Word 0 of packed fields. -/
def Fields.word0 : Fields → W32
  | .a m f => packA m 0 f
  | .aLit m f _ => packA m 2 f
  | .i m f => packI m 0 f
  | .iLit m f _ => packI m 2 f
  | .b m f => packB m f
  | .j m f => packJ m f
  | .v m f => packV m f
  | .x m f _ _ => packA m 1 f
  | .xLit m f _ _ _ => packA m 3 f

/-- The words behind word 0. -/
def Fields.more : Fields → List W32
  | .a .. | .i .. | .b .. | .j .. | .v .. => []
  | .aLit _ _ l | .iLit _ _ l => [litLo l, litHi l]
  | .x _ _ w1 w2 => [w1, w2]
  | .xLit _ _ w1 w2 l => [w1, w2, litLo l, litHi l]

theorem packFields_eq (f : Fields) : packFields f = f.word0 :: f.more := by cases f <;> rfl

/-- Word w holds the fields f of its format. -/
def Fields.within (f : Fields) (w : W32) : Prop :=
  match f with
  | .a _ g | .aLit _ g _ | .x _ g _ _ | .xLit _ g _ _ _ => fieldsA w = g
  | .i _ g | .iLit _ g _ => fieldsI w = g
  | .b _ g => fieldsB w = g
  | .j _ g => fieldsJ w = g
  | .v _ g => fieldsV w = g

theorem within_word0 (f : Fields) : f.within f.word0 := by
  cases f with
  | a m f | aLit m f | x m f | xLit m f => exact fieldsA_packA m f (by decide)
  | i m f | iLit m f => exact fieldsI_packI m f (by decide)
  | b m f => exact fieldsB_packB m f
  | j m f => exact fieldsJ_packJ m f
  | v m f => exact fieldsV_packV m f

/-- A word that ends in a major and a LEN has this major and this LEN. -/
theorem major_len {w : W32} {maj : BitVec 6} {len : Nat} (h : ∃ hi, w.toNat = hi * 2 ^ 8 + maj.toNat * 4 + len) (hl : len < 4) :
    field w 2 6 = maj ∧ (field w 0 2 : BitVec 2).toNat = len := by
  obtain ⟨hi, h⟩ := h
  refine ⟨field_eq (by omega), ?_⟩
  rw [field, BitVec.toNat_ofNat]
  omega

theorem Fields.len_lt (f : Fields) : f.len < 4 := by cases f <;> simp [Fields.len]

theorem major_len_word0 (f : Fields) : field f.word0 2 6 = f.maj ∧ (field f.word0 0 2 : BitVec 2).toNat = f.len := by
  refine major_len ?_ f.len_lt
  cases f with
  | a m f | aLit m f | x m f | xLit m f => exact ⟨_, toNat_packA m f (by decide)⟩
  | i m f | iLit m f => exact ⟨_, toNat_packI m f (by decide)⟩
  | b m f => exact ⟨_, toNat_packB m f⟩
  | j m f => exact ⟨_, toNat_packJ m f⟩
  | v m f => exact ⟨_, toNat_packV m f⟩

/-- Stage one reads packed fields back, whatever follows them, where the major takes their form with their LEN. -/
theorem splitWords_packFields {f : Fields} (h : formOf f.maj.toNat f.len = .ok f.form) (rest : List W32) :
    splitWords (packFields f ++ rest) = .ok f := by
  obtain ⟨hmaj, hlen⟩ := major_len_word0 f
  have hin := within_word0 f
  rw [packFields_eq]
  generalize f.word0 = w at hmaj hlen hin
  cases f <;> simp only [Fields.maj, Fields.len, Fields.form, Fields.within] at h hmaj hlen hin <;>
    simp only [splitWords, Fields.more, List.cons_append, List.nil_append, h, hmaj, hlen, hin, literal_split]

/-- Every instruction's fields have a form that its major takes with the LEN they are packed with (R27 to R29). -/
theorem formOf_toFields {i : Instr} {f : Fields} (h : toFields i = some f) : formOf f.maj.toNat f.len = .ok f.form := by
  cases i <;> cases h <;> rfl

theorem bit01_false : bit01 false = 0 := rfl
theorem bit01_true : bit01 true = 1 := rfl

/-! Stage two: the codes of operands (R30 to R38). -/

theorem accept_eq {r : Bool} {i j : Instr} (hr : r = true) (hj : j = i) (hw : i.wf = true) : accept r j = .ok i := by
  rw [accept, hr, hj, hw]; rfl

theorem orErr_some {α : Type} (e : DecodeError) (x : α) (k : α → Except DecodeError Instr) : orErr e (some x) k = k x := rfl

/-- The mask that ME, MP and MR of a mask operand's code give (R25). -/
theorem maskOf_fields (m : Option Mask) (k : Option Mask → Except DecodeError Instr) :
    maskOf (maskMe m == 1#1) (maskMp m == 1#1) (maskMr m) k = k m := by
  obtain _ | ⟨agnostic, reg⟩ := m
  · rfl
  · cases agnostic <;> rfl

theorem maskOf0_fields (m : Option (BitVec 2)) (k : Option (BitVec 2) → Except DecodeError Instr) :
    maskOf0 (maskMe0 m == 1#1) (0#1 == 1#1) (maskMr0 m) k = k m := by
  cases m <;> rfl

/-- Four consecutive bits of a word that hold a mask's code give that mask (R32, R36). -/
theorem maskOf_code {w : W32} {lo : Nat} {m : Option Mask} (h : w.toNat / 2 ^ lo % 16 = maskCode m)
    (k : Option Mask → Except DecodeError Instr) : maskOf (bitAt w lo) (bitAt w (lo + 1)) (field w (lo + 2) 2) k = k m := by
  have h1 : w.toNat / 2 ^ (lo + 1) = w.toNat / 2 ^ lo / 2 := by rw [pow_succ, Nat.div_div_eq_div_mul]
  have h2 : w.toNat / 2 ^ (lo + 2) = w.toNat / 2 ^ lo / 2 ^ 2 := by rw [pow_add, Nat.div_div_eq_div_mul]
  obtain _ | ⟨agnostic, reg⟩ := m
  · simp only [maskCode] at h
    rw [bitAt_eq (b := false) (by simp only [bit01_false]; omega), bitAt_eq (b := false) (by simp only [h1, bit01_false]; omega),
      field_eq (x := 0#2) (by simp only [h2, BitVec.toNat_ofNat]; omega)]
    rfl
  · have ha := bit01_lt agnostic
    simp only [maskCode] at h
    rw [bitAt_eq (b := true) (by simp only [bit01_true]; omega), bitAt_eq (b := agnostic) (by rw [h1]; omega),
      field_eq (x := reg) (by rw [h2]; omega)]
    rfl

theorem low2_narrow (s : BitVec 2) : low2 (.ofNat 5 s.toNat) = s := field_eq (by rw [BitVec.toNat_ofNat]; omega)
theorem low3_narrow (s : BitVec 3) : low3 (.ofNat 5 s.toNat) = s := field_eq (by rw [BitVec.toNat_ofNat]; omega)
theorem low4_narrow (s : BitVec 4) : low4 (.ofNat 5 s.toNat) = s := field_eq (by rw [BitVec.toNat_ofNat]; omega)

/-- A narrow field in a register's place is inside its range. -/
theorem narrow_le {n : Nat} (s : BitVec n) {k : Nat} (h : 2 ^ n ≤ k + 1) : (BitVec.ofNat 5 s.toNat : Reg).toNat ≤ k := by
  have := s.isLt
  have := Nat.mod_le s.toNat (2 ^ 5)
  rw [BitVec.toNat_ofNat]
  omega

theorem accept_narrow {n : Nat} (s : BitVec n) {k : Nat} (h : 2 ^ n ≤ k + 1) : decide ((BitVec.ofNat 5 s.toNat : Reg).toNat ≤ k) = true :=
  decide_eq_true (narrow_le s h)

theorem id6_split (k : BitVec 6) : id6 (field k 0 5) (.ofNat 5 (k.toNat / 32)) = k := by
  apply BitVec.eq_of_toNat_eq
  simp only [id6, field, BitVec.toNat_ofNat]
  omega

theorem num10_split (k : BitVec 10) : num10 (field k 0 5) (field k 5 5) = k := by
  apply BitVec.eq_of_toNat_eq
  simp only [num10, field, BitVec.toNat_ofNat]
  omega

/-- Bit 5 of a number of six bits, in a field of its own. -/
theorem bit5_le {n : Nat} (k : BitVec 6) : (BitVec.ofNat n (k.toNat / 32)).toNat ≤ 1 := by
  have := Nat.mod_le (k.toNat / 32) (2 ^ n)
  rw [BitVec.toNat_ofNat]
  omega

theorem bit01_bitAt {n : Nat} (w : BitVec n) (i : Nat) : bit01 (bitAt w i) = w.toNat / 2 ^ i % 2 := by
  rw [bitAt, bit01]
  split <;> simp_all

theorem barNo_split (n : BitVec 6) (min : BitVec 6) (b a : Reg) : barNo ⟨.ofNat 3 (n.toNat / 32), min, b, a, field n 0 5⟩ = n := by
  apply BitVec.eq_of_toNat_eq
  simp only [barNo, bit01_bitAt, field, BitVec.toNat_ofNat]
  omega

/-! Words 1 and 2: each field is read where it was put. -/

/-- The number that word32 packs. -/
def wordSum : List (Nat × Nat) → Nat
  | [] => 0
  | (v, i) :: fs => v * 2 ^ i + wordSum fs

theorem wordSum_nil : wordSum [] = 0 := by rw [wordSum]
theorem wordSum_cons (v i : Nat) (fs : List (Nat × Nat)) : wordSum ((v, i) :: fs) = v * 2 ^ i + wordSum fs := by rw [wordSum]

theorem foldl_wordSum (fs : List (Nat × Nat)) (n : Nat) : fs.foldl (fun w f => w + f.1 * 2 ^ f.2) n = n + wordSum fs := by
  induction fs generalizing n with
  | nil => rfl
  | cons f fs ih => rw [List.foldl_cons, ih, wordSum_cons, Nat.add_assoc]

theorem toNat_word32 (fs : List (Nat × Nat)) : (word32 fs).toNat = wordSum fs % 2 ^ 32 := by
  rw [word32, BitVec.toNat_ofNat, foldl_wordSum, Nat.zero_add]

theorem maskCode_lt (m : Option Mask) : maskCode m < 16 := by
  obtain _ | ⟨agnostic, reg⟩ := m
  · decide
  · have := bit01_lt agnostic
    simp only [maskCode]
    omega

/-- Word 2 of the vector loads and stores (R32). -/
theorem vmem_fields {fs : List (Nat × Nat)} (tag : Byte) {ew : Nat} (he : ew < 8) (vi : Reg) (m : Option Mask)
    (h : wordSum fs = tag.toNat + ew * 2 ^ 8 + vi.toNat * 2 ^ 11 + maskCode m * 2 ^ 16) :
    field (word32 fs) 0 8 = tag ∧ field (word32 fs) 8 3 = BitVec.ofNat 3 ew ∧ field (word32 fs) 11 5 = vi ∧ field (word32 fs) 20 12 = 0#12 ∧
      ∀ k, maskOf (bitAt (word32 fs) 16) (bitAt (word32 fs) 17) (field (word32 fs) 18 2) k = k m := by
  have hm := maskCode_lt m
  refine ⟨field_eq ?_, field_eq ?_, field_eq ?_, field_eq ?_, maskOf_code ?_⟩
  all_goals simp only [toNat_word32, h, BitVec.toNat_ofNat]; omega

theorem Ew.code_lt (e : Ew) : e.code < 8 := by cases e <;> decide
theorem Ew.of?_code (e : Ew) : Ew.of? (BitVec.ofNat 3 e.code).toNat = some e := by cases e <;> rfl

theorem Vrm.code_lt (r : Vrm) : r.code < 8 := by cases r <;> decide
theorem Vrm.of?_code (r : Vrm) : Vrm.of? (BitVec.ofNat 3 r.code).toNat = some r := by cases r <;> rfl
theorem Level.code_lt (l : Level) : l.code < 4 := by cases l <;> decide
theorem Level.of?_code (l : Level) : Level.of? (BitVec.ofNat 2 l.code).toNat = some l := by cases l <;> rfl
theorem BlockSize.code_lt (s : BlockSize) : s.code < 4 := by cases s <;> decide
theorem BlockSize.of?_code (s : BlockSize) : BlockSize.of? (BitVec.ofNat 2 s.code).toNat = some s := by cases s <;> rfl
theorem Hint.of?_code (h : Hint) : Hint.of? (BitVec.ofNat 2 h.code).toNat = some h := by cases h <;> rfl
theorem Rm.of_fpQ (p : Bool) (r : Rm) : Rm.of (field (fpQ p r.code) 1 2 : BitVec 2).toNat = r := by cases p <;> cases r <;> rfl
theorem FCond.of_fpQ (p : Bool) (c : FCond) : FCond.of (field (fpQ p c.code) 1 2 : BitVec 2).toNat = c := by cases p <;> cases c <;> rfl
theorem bitAt_fpQ (p : Bool) (r : Nat) : bitAt (fpQ p r) 0 = p := by
  have := bit01_lt p
  exact bitAt_eq (by rw [fpQ, BitVec.toNat_ofNat]; omega)
theorem field_fpQ (p : Bool) : (field (fpQ p 0) 1 2 == 0#2) = true := by cases p <;> rfl
theorem Rm.code_lt (r : Rm) : r.code < 4 := by cases r <;> decide
theorem FCond.code_lt (c : FCond) : c.code < 4 := by cases c <;> decide
theorem FcvtSel.of?_code (s : FcvtSel) : FcvtSel.of? (BitVec.ofNat 5 s.code).toNat = some s := by cases s <;> rfl
theorem Cond.of_code (c : Cond) : Cond.of (BitVec.ofNat 3 c.code).toNat = c := by cases c <;> rfl
theorem Order.of_ordQ (o : Order) (w : Bool) : Order.of (field (ordQ o w) 0 2 : BitVec 2).toNat = o := by cases o <;> cases w <;> rfl
theorem bitAt_ordQ (o : Order) (w : Bool) : bitAt (ordQ o w) 2 = w := by cases o <;> cases w <;> rfl

/-- Word 1 of VCVT, VPACK, VUNPK, VSAT and VTAG (R36). -/
theorem vconv_fields {fs : List (Nat × Nat)} (tag : Byte) {rm : Nat} (hr : rm < 8) (sat : Bool) (m : Option Mask)
    (h : wordSum fs = tag.toNat + rm * 2 ^ 8 + bit01 sat * 2 ^ 11 + maskCode m * 2 ^ 12) :
    field (word32 fs) 0 8 = tag ∧ field (word32 fs) 8 3 = BitVec.ofNat 3 rm ∧ bitAt (word32 fs) 11 = sat ∧ field (word32 fs) 16 16 = 0#16 ∧
      ∀ k, maskOf (bitAt (word32 fs) 12) (bitAt (word32 fs) 13) (field (word32 fs) 14 2) k = k m := by
  have hs := bit01_lt sat
  have hm := maskCode_lt m
  refine ⟨field_eq ?_, field_eq ?_, bitAt_eq ?_, field_eq ?_, maskOf_code ?_⟩
  all_goals simp only [toNat_word32, h, BitVec.toNat_ofNat]; omega

/-- A word of one field at its lowest bits. -/
theorem toNat_word32_one {n : Nat} (x : BitVec n) (h : n ≤ 32) : (word32 [(x.toNat, 0)]).toNat = x.toNat := by
  have := Nat.lt_of_lt_of_le x.isLt (Nat.pow_le_pow_right (by decide) h)
  rw [toNat_word32, wordSum_cons, wordSum_nil]
  omega

theorem field_word32_one {n : Nat} (x : BitVec n) (h : n ≤ 32) : field (word32 [(x.toNat, 0)]) 0 n = x :=
  field_eq (by rw [toNat_word32_one x h, pow_zero, Nat.div_one, Nat.mod_eq_of_lt x.isLt])

theorem field_word32_above {n : Nat} (x : BitVec n) (h : n ≤ 32) {lo : Nat} (k : Nat) (hlo : n ≤ lo) :
    field (word32 [(x.toNat, 0)]) lo k = 0#k := by
  have := Nat.lt_of_lt_of_le x.isLt (Nat.pow_le_pow_right (by decide) hlo)
  exact field_eq (by rw [toNat_word32_one x h, Nat.div_eq_of_lt this, Nat.zero_mod, BitVec.toNat_ofNat, Nat.zero_mod])

theorem halves_fields (x y : W16) :
    field (word32 [(x.toNat, 0), (y.toNat, 16)]) 0 16 = x ∧ field (word32 [(x.toNat, 0), (y.toNat, 16)]) 16 16 = y := by
  refine ⟨field_eq ?_, field_eq ?_⟩
  all_goals simp only [toNat_word32, wordSum_cons, wordSum_nil]; omega

/-- Word 2 of HALLOC (R33). -/
theorem halloc_fields (tag : Byte) (l : Level) (rt sh : Bool) :
    let w := word32 [(tag.toNat, 0), (l.code, 8), (bit01 rt, 10), (bit01 sh, 11)]
    field w 0 8 = tag ∧ field w 8 2 = BitVec.ofNat 2 l.code ∧ bitAt w 10 = rt ∧ bitAt w 11 = sh ∧ field w 12 20 = 0#20 := by
  have hl := l.code_lt
  have hr := bit01_lt rt
  have hs := bit01_lt sh
  refine ⟨field_eq ?_, field_eq ?_, bitAt_eq ?_, bitAt_eq ?_, field_eq ?_⟩
  all_goals simp only [toNat_word32, wordSum_cons, wordSum_nil, BitVec.toNat_ofNat]; omega

/-- Word 0's Q and word 1 of the copies (R35). -/
theorem copyTags_fields (t : CopyTags) (out : Bool) (min : BitVec 6) (b a d : Reg) :
    copyTags ⟨copyQ t out, min, b, a, d⟩ (copyWord t) = t := by
  obtain ⟨q, bar, barV, sem, semV, ev, evV⟩ := t
  have hb := bit01_lt barV
  have hs := bit01_lt semV
  have he := bit01_lt evV
  have ho := bit01_lt out
  simp only [copyTags, CopyTags.mk.injEq, copyQ, copyWord]
  refine ⟨field_eq ?_, field_eq ?_, bitAt_eq ?_, field_eq ?_, bitAt_eq ?_, field_eq ?_, bitAt_eq ?_⟩
  all_goals simp only [BitVec.toNat_ofNat, toNat_word32, wordSum_cons, wordSum_nil]; omega

theorem bitAt_copyQ (t : CopyTags) (out : Bool) : bitAt (copyQ t out) 2 = out := by
  have ho := bit01_lt out
  exact bitAt_eq (by rw [copyQ, BitVec.toNat_ofNat]; omega)

theorem field_copyWord (t : CopyTags) : field (copyWord t) 17 15 = 0#15 := by
  have hb := bit01_lt t.barV
  have hs := bit01_lt t.semV
  have he := bit01_lt t.evV
  exact field_eq (by simp only [copyWord, toNat_word32, wordSum_cons, wordSum_nil, BitVec.toNat_ofNat]; omega)

/-- Word 2 of CPYV (R35). -/
theorem cpyv_fields (x y z : BitVec 4) :
    let w := word32 [(x.toNat, 0), (y.toNat, 4), (z.toNat, 8)]
    field w 0 4 = x ∧ field w 4 4 = y ∧ field w 8 4 = z ∧ field w 12 20 = 0#20 := by
  refine ⟨field_eq ?_, field_eq ?_, field_eq ?_, field_eq ?_⟩
  all_goals simp only [toNat_word32, wordSum_cons, wordSum_nil, BitVec.toNat_ofNat]; omega

theorem cred_fields (op : RedOp) : RedOp.of? (field (word32 [(op.code, 0)]) 0 2 : BitVec 2).toNat = some op ∧
    field (word32 [(op.code, 0)]) 2 30 = 0#30 := by
  cases op <;> exact ⟨rfl, rfl⟩

/-- Word 1 of SEND, SENDH and SPAWN: the handler and a count of registers (R38). -/
theorem send_fields (hdl : Byte) (n : BitVec 3) :
    let w := word32 [(hdl.toNat, 0), (n.toNat, 8)]
    field w 0 8 = hdl ∧ field w 8 3 = n ∧ field w 11 21 = 0#21 := by
  refine ⟨field_eq ?_, field_eq ?_, field_eq ?_⟩
  all_goals simp only [toNat_word32, wordSum_cons, wordSum_nil, BitVec.toNat_ofNat]; omega

theorem spawn_fields (hdl : Byte) (n : BitVec 6) :
    let w := word32 [(hdl.toNat, 0), (n.toNat, 8)]
    field w 0 8 = hdl ∧ field w 8 6 = n ∧ field w 14 18 = 0#18 := by
  refine ⟨field_eq ?_, field_eq ?_, field_eq ?_⟩
  all_goals simp only [toNat_word32, wordSum_cons, wordSum_nil, BitVec.toNat_ofNat]; omega

/-! Matrix commands (R37). -/

theorem mWord1_fields (t : MTags) (k : BitVec 6) : field (mWord1 t k.toNat) 0 6 = k ∧ field (mWord1 t k.toNat) 24 8 = 0#8 := by
  refine ⟨field_eq ?_, field_eq ?_⟩
  all_goals simp only [mWord1, toNat_word32, wordSum_cons, wordSum_nil, BitVec.toNat_ofNat]; omega

/-- Word 2 of a matrix command: its ten low bits beside what the command puts above them. -/
theorem toNat_mWord2 (t : MTags) {r : Nat} (hr : r < 2 ^ 22) : (mWord2 t (r * 2 ^ 10)).toNat =
    t.ev.toNat + bit01 t.evV * 2 ^ 4 + t.sem.toNat * 2 ^ 5 + bit01 t.semV * 2 ^ 9 + r * 2 ^ 10 := by
  have he := bit01_lt t.evV
  have hs := bit01_lt t.semV
  simp only [mWord2, toNat_word32, wordSum_cons, wordSum_nil]
  omega

theorem mtags_words (t : MTags) (k : BitVec 6) {r : Nat} (hr : r < 2 ^ 22) : mtags (mWord1 t k.toNat) (mWord2 t (r * 2 ^ 10)) = t := by
  have h2 := toNat_mWord2 t hr
  obtain ⟨id, p0, p1, ev, evV, sem, semV⟩ := t
  have he := bit01_lt evV
  have hs := bit01_lt semV
  simp only at h2
  simp only [mtags, MTags.mk.injEq]
  refine ⟨field_eq ?_, field_eq ?_, field_eq ?_, field_eq ?_, bitAt_eq ?_, field_eq ?_, bitAt_eq ?_⟩
  iterate 3 simp only [mWord1, toNat_word32, wordSum_cons, wordSum_nil]; omega
  all_goals rw [h2]; omega

theorem field_mWord2 (t : MTags) {r lo n : Nat} (hr : r < 2 ^ 22) : field (mWord2 t (r * 2 ^ 10)) (lo + 10) n = BitVec.ofNat n (r / 2 ^ lo) := by
  have he := bit01_lt t.evV
  have hs := bit01_lt t.semV
  have h : (mWord2 t (r * 2 ^ 10)).toNat / 2 ^ 10 = r := by rw [toNat_mWord2 t hr]; omega
  rw [field, Nat.add_comm, pow_add, ← Nat.div_div_eq_div_mul, h]

theorem bitAt_mWord2 (t : MTags) {r i : Nat} {b : Bool} (hr : r < 2 ^ 22) (hb : r / 2 ^ i % 2 = bit01 b) :
    bitAt (mWord2 t (r * 2 ^ 10)) (i + 10) = b := by
  have he := bit01_lt t.evV
  have hs := bit01_lt t.semV
  have h : (mWord2 t (r * 2 ^ 10)).toNat / 2 ^ 10 = r := by rw [toNat_mWord2 t hr]; omega
  exact bitAt_eq (by rw [Nat.add_comm, pow_add, ← Nat.div_div_eq_div_mul, h, hb])

/-- What MMA and MMAS put above the ten bits of word 2: the registers of remote operands and ZA. -/
def mmaHigh (x : MmaArgs) : Nat := (x.ra.getD 0#5).toNat + (x.rb.getD 0#5).toNat * 2 ^ 5 + bit01 x.za * 2 ^ 10

theorem mmaHigh_lt (x : MmaArgs) : mmaHigh x < 2 ^ 22 := by
  have := bit01_lt x.za
  rw [mmaHigh]
  omega

theorem regCode_eq (r : Option Reg) : regCode r = (r.getD 0#5).toNat := by cases r <;> rfl

theorem mmaWord2_eq (x : MmaArgs) : mmaWord2 x = mWord2 x.tags (mmaHigh x * 2 ^ 10) := by
  rw [mmaWord2, regCode_eq, regCode_eq, mmaHigh]
  refine congrArg (mWord2 x.tags) ?_
  omega

theorem mmaWord2_fields (x : MmaArgs) : field (mmaWord2 x) 10 5 = x.ra.getD 0#5 ∧ field (mmaWord2 x) 15 5 = x.rb.getD 0#5 ∧
    bitAt (mmaWord2 x) 20 = x.za ∧ field (mmaWord2 x) 21 11 = 0#11 := by
  have hz := bit01_lt x.za
  have hlt := mmaHigh_lt x
  have h : mmaHigh x = (x.ra.getD 0#5).toNat + (x.rb.getD 0#5).toNat * 2 ^ 5 + bit01 x.za * 2 ^ 10 := rfl
  rw [mmaWord2_eq, field_mWord2 _ (lo := 0) hlt, field_mWord2 _ (lo := 5) hlt, field_mWord2 _ (lo := 11) hlt]
  refine ⟨?_, ?_, bitAt_mWord2 _ (i := 10) hlt ?_, ?_⟩
  all_goals bv_omega

theorem remoteReg_isSome (r : Option Reg) : remoteReg r.isSome (r.getD 0#5) = r := by cases r <;> rfl
theorem remoteReg_zero (r : Option Reg) : (r.isSome || r.getD 0#5 == 0#5) = true := by cases r <;> rfl

theorem mmaArgs_words (x : MmaArgs) (min : BitVec 6) : mmaArgs (mmaFields x min) (mmaWord1 x) (mmaWord2 x) = some x := by
  obtain ⟨hca, hcb, hza, hz⟩ := mmaWord2_fields x
  obtain ⟨hk, hw1⟩ := mWord1_fields x.tags x.k16
  have ht := mtags_words x.tags x.k16 (mmaHigh_lt x)
  rw [← mmaWord2_eq] at ht
  have hq (a b : Bool) : bitAt (BitVec.ofNat 3 (bit01 a + 2 * bit01 b)) 0 = a ∧ bitAt (BitVec.ofNat 3 (bit01 a + 2 * bit01 b)) 1 = b ∧
      bitAt (BitVec.ofNat 3 (bit01 a + 2 * bit01 b)) 2 = false := by
    cases a <;> cases b <;> exact ⟨rfl, rfl, rfl⟩
  obtain ⟨ha, hb, hc⟩ := hq x.ra.isSome x.rb.isSome
  have hacc := narrow_le x.acc (k := 3) (by decide)
  simp only [mmaArgs, mmaFields, mmaWord1, hk, hw1, ht, hca, hcb, hza, hz, ha, hb, hc, remoteReg_isSome, remoteReg_zero, hacc, low2_narrow,
    decide_true, Bool.not_false, Bool.and_self, BEq.rfl, if_true]

theorem mmasLit_fields (y : MmasArgs) : field (mmasLit y) 0 5 = y.sa ∧ field (mmasLit y) 5 5 = y.sb ∧ field (mmasLit y) 10 5 = y.ta ∧
    field (mmasLit y) 15 5 = y.tb ∧ field (mmasLit y) 20 2 = BitVec.ofNat 2 y.bs.code ∧ field (mmasLit y) 22 42 = 0#42 := by
  have hs := y.bs.code_lt
  refine ⟨field_eq ?_, field_eq ?_, field_eq ?_, field_eq ?_, field_eq ?_, field_eq ?_⟩
  all_goals simp only [mmasLit, BitVec.toNat_ofNat]; omega

/-- Word 2 of MCVT. -/
theorem mcvt_fields (t : MTags) (r : Vrm) (s : Bool) :
    let w := mWord2 t (r.code * 2 ^ 21 + bit01 s * 2 ^ 24)
    mtags (mWord1 t 0) w = t ∧ field w 10 11 = 0#11 ∧ field w 21 3 = BitVec.ofNat 3 r.code ∧ bitAt w 24 = s ∧ field w 25 7 = 0#7 := by
  have hr := r.code_lt
  have hs := bit01_lt s
  have hlt : r.code * 2 ^ 11 + bit01 s * 2 ^ 14 < 2 ^ 22 := by omega
  have he : r.code * 2 ^ 21 + bit01 s * 2 ^ 24 = (r.code * 2 ^ 11 + bit01 s * 2 ^ 14) * 2 ^ 10 := by omega
  rw [he]
  refine ⟨mtags_words t 0#6 hlt, ?_, ?_, ?_, ?_⟩
  · rw [field_mWord2 t (lo := 0) hlt]; bv_omega
  · rw [field_mWord2 t (lo := 11) hlt]; bv_omega
  · exact bitAt_mWord2 t (i := 14) hlt (by omega)
  · rw [field_mWord2 t (lo := 15) hlt]; bv_omega

/-- Words 1 and 2 of a matrix command that puts nothing in their other fields. -/
theorem plain_fields (t : MTags) : mtags (mWord1 t 0) (mWord2 t 0) = t ∧ field (mWord1 t 0) 0 6 = 0#6 ∧ field (mWord1 t 0) 24 8 = 0#8 ∧
    field (mWord2 t 0) 10 11 = 0#11 ∧ field (mWord2 t 0) 21 4 = 0#4 ∧ field (mWord2 t 0) 25 7 = 0#7 := by
  obtain ⟨h1, h2⟩ := mWord1_fields t 0#6
  exact ⟨mtags_words t 0#6 (r := 0) (by decide), h1, h2, field_mWord2 t (r := 0) (lo := 0) (by decide),
    field_mWord2 t (r := 0) (lo := 11) (by decide), field_mWord2 t (r := 0) (lo := 15) (by decide)⟩

/-! Stage two, form by form: a well-formed instruction is what its fields decode to. -/

section
variable {i : Instr} {maj : BitVec 6}

theorem ofFields_aLit {f : FieldsA} {l : W64} (hf : toFields i = some (.aLit maj f l)) (hw : i.wf = true) : ofFields (.aLit maj f l) = .ok i := by
  cases i <;> cases hf
  case cmpLiteral =>
    simp only [ofFields, decode01Lit, Cond.of_code]
    exact accept_eq rfl rfl hw
  case faddLiteral | fsubLiteral | fmulLiteral | ffmaLiteral =>
    simp only [ofFields, decode03Lit, bitAt_fpQ, Rm.of_fpQ]
    exact accept_eq rfl rfl hw
  case fcmpLiteral =>
    simp only [ofFields, decode03Lit, bitAt_fpQ, FCond.of_fpQ]
    exact accept_eq rfl rfl hw
  case fminLiteral | fmaxLiteral =>
    simp only [ofFields, decode03Lit, bitAt_fpQ, field_fpQ]
    exact accept_eq rfl rfl hw
  all_goals rfl

theorem ofFields_i {f : FieldsI} (hf : toFields i = some (.i maj f)) : ofFields (.i maj f) = .ok i := by
  cases i <;> cases hf <;> rfl

theorem ofFields_iLit {f : FieldsI} {l : W64} (hf : toFields i = some (.iLit maj f l)) : ofFields (.iLit maj f l) = .ok i := by
  cases i <;> cases hf <;> rfl

theorem ofFields_b {f : FieldsB} (hf : toFields i = some (.b maj f)) (hw : i.wf = true) : ofFields (.b maj f) = .ok i := by
  cases i <;> cases hf
  case beq | bne | bltS | bgeS | bltN | bgeN | bz | bnz | loop =>
    simp only [ofFields, decodeB, Hint.of?_code, orErr_some]
    exact accept_eq rfl rfl hw

theorem ofFields_j {f : FieldsJ} (hf : toFields i = some (.j maj f)) : ofFields (.j maj f) = .ok i := by
  cases i <;> cases hf
  case b t _ | call t _ => cases t <;> rfl

/-- The vector instructions of three operands share one form (R265 to R273). -/
theorem ofFields_vec3 {min : BitVec 5} {op : Option Mask → Reg → Reg → Reg → Instr} (h : vec3Op maj.toNat min.toNat = some op)
    {m : Option Mask} {d a b : Reg} (hw : (op m d a b).wf = true) :
    ofFields (.v maj ⟨maskMr m, maskMp m, maskMe m, min, b, a, d⟩) = .ok (op m d a b) := by
  simp only [ofFields, decodeV, h, maskOf_fields]
  exact accept_eq rfl rfl hw

theorem ofFields_vec2 {min : BitVec 5} {op : Option Mask → Reg → Reg → Instr} (h3 : vec3Op maj.toNat min.toNat = none)
    (h : vec2Op maj.toNat min.toNat = some op) {m : Option Mask} {d a : Reg} (hw : (op m d a).wf = true) :
    ofFields (.v maj ⟨maskMr m, maskMp m, maskMe m, min, 0#5, a, d⟩) = .ok (op m d a) := by
  simp only [ofFields, decodeV, h3, h, maskOf_fields]
  exact accept_eq rfl rfl hw

theorem ofFields_v {f : FieldsV} (hf : toFields i = some (.v maj f)) (hw : i.wf = true) : ofFields (.v maj f) = .ok i := by
  cases i <;> cases hf
  case vadd | vsub | vmul | vfma | vfms | vmin | vmax | vdiv | vand | vor | vxor | vshl | vshr | vsar | vcmpeq | vcmpne | vcmplt | vcmple |
      vcmpun | vmerge | vmaskand | vmaskor | vshuf | vrot | vslide | vdot => exact ofFields_vec3 (by rfl) hw
  case vsqrt | vrcp | vrsq | vexp2 | vlog2 | vabs | vneg | vnot | vpopc | vclz | vmasknot | vbcast | vscan | vmov =>
    exact ofFields_vec2 (by rfl) (by rfl) hw
  case vpopm | vfirst | vredadd | vredmin | vredmax =>
    simp only [ofFields, decodeV, vec3Op, vec2Op, maskOf0_fields]
    exact accept_eq rfl rfl hw
  case viota m d a k =>
    simp only [ofFields, decodeV, vec3Op, vec2Op, maskOf_fields, low2_narrow]
    exact accept_eq (accept_narrow k (by decide)) rfl hw
  case vsel | vext | vins | vtagq => rfl

theorem ofFields_a {f : FieldsA} (hf : toFields i = some (.a maj f)) (hw : i.wf = true) : ofFields (.a maj f) = .ok i := by
  cases i <;> cases hf
  case cmp =>
    simp only [ofFields, decode01, Cond.of_code]
    exact accept_eq rfl rfl hw
  case fadd | fsub | fmul | ffma =>
    simp only [ofFields, decode03, bitAt_fpQ, Rm.of_fpQ]
    exact accept_eq rfl rfl hw
  case fcmp =>
    simp only [ofFields, decode03, bitAt_fpQ, FCond.of_fpQ]
    exact accept_eq rfl rfl hw
  case fmin | fmax | fabs | fneg =>
    simp only [ofFields, decode03, bitAt_fpQ, field_fpQ]
    exact accept_eq rfl rfl hw
  case fcvt =>
    simp only [ofFields, decode03, bitAt_fpQ, Rm.of_fpQ, FcvtSel.of?_code, orErr_some]
    exact accept_eq rfl rfl hw
  case atomAdd | atomAnd | atomOr | atomXor | atomMinS | atomMinN | atomMaxS | atomMaxN | atomSwap | cas | cas2 | atomfAdd =>
    simp only [ofFields, decode14, Order.of_ordQ, bitAt_ordQ]
    exact accept_eq rfl rfl hw
  case hretain h k => cases k <;> rfl
  case mwait k | mcons k =>
    simp only [ofFields, decode2D, id6_split]
    exact accept_eq (decide_eq_true (bit5_le k)) rfl hw
  case barinit | bararr | barwait =>
    simp only [ofFields, decode38, barNo_split, bit5_le]
    exact accept_eq rfl rfl hw
  case srd | swr | trap | brk =>
    simp only [ofFields, decode3A, num10_split]
    exact accept_eq rfl rfl hw
  case trailq | hquery | cwait | cstat | ccancel | mspill | mfill | accq | fmtset | fmtget | gridq | semup | semdn | semtry | qstat | evcfg |
      evpulse | evread =>
    simp only [ofFields, decode13, decode18, decode1D, decode2D, decode2E, decode35, decode38, decode39, low2_narrow, low3_narrow, low4_narrow,
      accept_narrow, Nat.reduceLeDiff, Nat.reducePow, Nat.reduceAdd]
    exact accept_eq rfl rfl hw
  all_goals rfl

theorem ofFields_x {f : FieldsA} {w1 w2 : W32} (hf : toFields i = some (.x maj f w1 w2)) (hw : i.wf = true) :
    ofFields (.x maj f w1 w2) = .ok i := by
  cases i <;> cases hf
  case ldv d a tag m =>
    obtain ⟨htag, hew, hvi, hz, hm⟩ := vmem_fields (fs := [(tag.toNat, 0), (maskCode m, 16)]) tag (ew := 0) (by decide) 0#5 m
      (by simp only [wordSum_cons, wordSum_nil, BitVec.toNat_ofNat]; omega)
    simp only [ofFields, decode12, htag, hew, hvi, hz, hm]
    exact accept_eq rfl rfl hw
  case stv d a m =>
    obtain ⟨htag, hew, hvi, hz, hm⟩ := vmem_fields (fs := [(maskCode m, 16)]) 0#8 (ew := 0) (by decide) 0#5 m
      (by simp only [wordSum_cons, wordSum_nil, BitVec.toNat_ofNat]; omega)
    simp only [ofFields, decode12, htag, hew, hvi, hz, hm]
    exact accept_eq rfl rfl hw
  case ldvs d a b tag e m =>
    obtain ⟨htag, hew, hvi, hz, hm⟩ := vmem_fields (fs := [(tag.toNat, 0), (e.code, 8), (maskCode m, 16)]) tag e.code_lt 0#5 m
      (by simp only [wordSum_cons, wordSum_nil, BitVec.toNat_ofNat]; omega)
    simp only [ofFields, decode12, htag, hew, hvi, hz, hm, Ew.of?_code, orErr_some]
    exact accept_eq rfl rfl hw
  case stvs d a b e m =>
    obtain ⟨htag, hew, hvi, hz, hm⟩ := vmem_fields (fs := [(e.code, 8), (maskCode m, 16)]) 0#8 e.code_lt 0#5 m
      (by simp only [wordSum_cons, wordSum_nil, BitVec.toNat_ofNat]; omega)
    simp only [ofFields, decode12, htag, hew, hvi, hz, hm, Ew.of?_code, orErr_some]
    exact accept_eq rfl rfl hw
  case ldvg d a v tag e m =>
    obtain ⟨htag, hew, hvi, hz, hm⟩ := vmem_fields (fs := [(tag.toNat, 0), (e.code, 8), (v.toNat, 11), (maskCode m, 16)]) tag e.code_lt v m
      (by simp only [wordSum_cons, wordSum_nil]; omega)
    simp only [ofFields, decode12, htag, hew, hvi, hz, hm, Ew.of?_code, orErr_some]
    exact accept_eq rfl rfl hw
  case stvg d a v e m =>
    obtain ⟨htag, hew, hvi, hz, hm⟩ := vmem_fields (fs := [(e.code, 8), (v.toNat, 11), (maskCode m, 16)]) 0#8 e.code_lt v m
      (by simp only [wordSum_cons, wordSum_nil, BitVec.toNat_ofNat]; omega)
    simp only [ofFields, decode12, htag, hew, hvi, hz, hm, Ew.of?_code, orErr_some]
    exact accept_eq rfl rfl hw
  case halloc h rows cols tag l rt sh =>
    obtain ⟨htag, hl, hrt, hsh, hz⟩ := halloc_fields tag l rt sh
    simp only [ofFields, decode18X, halves_fields, htag, hl, hrt, hsh, hz, Level.of?_code, orErr_some]
    exact accept_eq rfl rfl hw
  case hatom o w op _ _ _ =>
    simp only [ofFields, decode1AX, Order.of_ordQ, bitAt_ordQ]
    cases op <;> exact accept_eq rfl rfl hw
  case hcas | hcasx =>
    simp only [ofFields, decode1AX, Order.of_ordQ, bitAt_ordQ, field_word32_one, field_word32_above, Nat.reduceLeDiff]
    exact accept_eq rfl rfl hw
  case cpy | cpys | cpyg | cpym | cshd | cpub | barx =>
    simp only [ofFields, decode1C, copyTags_fields, bitAt_copyQ, field_copyWord, halves_fields, field_word32_one, field_word32_above,
      Nat.reduceLeDiff]
    exact accept_eq rfl rfl hw
  case cpyv t out _ _ _ x y z =>
    obtain ⟨hx, hy, hz, h0⟩ := cpyv_fields x y z
    simp only [ofFields, decode1C, copyTags_fields, bitAt_copyQ, field_copyWord, hx, hy, hz, h0]
    exact accept_eq rfl rfl hw
  case cred =>
    simp only [ofFields, decode1C, copyTags_fields, bitAt_copyQ, field_copyWord, cred_fields, orErr_some]
    exact accept_eq rfl rfl hw
  case vcvt tag r s m _ _ | vpack tag r s m _ _ _ | vunpk tag r s m _ _ =>
    obtain ⟨htag, hrm, hsat, hz, hm⟩ := vconv_fields (fs := [(tag.toNat, 0), (r.code, 8), (bit01 s, 11), (maskCode m, 12)]) tag r.code_lt s m
      (by simp only [wordSum_cons, wordSum_nil]; omega)
    simp only [ofFields, decode24X, htag, hrm, hsat, hz, hm, Vrm.of?_code, orErr_some]
    exact accept_eq rfl rfl hw
  case vsat tag m d a =>
    obtain ⟨htag, hrm, hsat, hz, hm⟩ := vconv_fields (fs := [(tag.toNat, 0), (maskCode m, 12)]) tag (rm := Vrm.rne.code) (by decide) false m
      (by simp only [wordSum_cons, wordSum_nil, bit01_false, Vrm.code]; omega)
    simp only [ofFields, decode24X, htag, hrm, hsat, hz, hm, Vrm.of?_code, orErr_some]
    exact accept_eq rfl rfl hw
  case vtag tag d a =>
    obtain ⟨htag, hrm, hsat, hz, hm⟩ := vconv_fields (fs := [(tag.toNat, 0)]) tag (rm := Vrm.rne.code) (by decide) false none
      (by simp only [wordSum_cons, wordSum_nil, bit01_false, Vrm.code, maskCode]; omega)
    simp only [ofFields, decode24X, htag, hrm, hsat, hz, hm, Vrm.of?_code, orErr_some]
    exact accept_eq rfl rfl hw
  case mma x =>
    show decode2C (mmaFields x 0#6) _ _ = _
    simp only [decode2C, mmaArgs_words, orErr_some]
    exact accept_eq rfl rfl hw
  case mlda | msta | mzero | mtrn =>
    simp only [ofFields, decode2C, plain_fields, low2_narrow, accept_narrow, Nat.reduceLeDiff, Nat.reducePow, Nat.reduceAdd]
    exact accept_eq rfl rfl hw
  case mcvt t r s h c =>
    obtain ⟨ht, hz, hrm, hs, hz'⟩ := mcvt_fields t r s
    simp only [ofFields, decode2C, plain_fields, ht, hz, hrm, hs, hz', Vrm.of?_code, orErr_some, low2_narrow]
    exact accept_eq (accept_narrow c (by decide)) rfl hw
  case send r _ _ hdl n | sendh r _ _ hdl n _ =>
    obtain ⟨hh, hn, hz⟩ := send_fields hdl n
    simp only [ofFields, decode34X, hh, hn, hz, field_word32_one, field_word32_above, Nat.reduceLeDiff]
    cases r <;> exact accept_eq rfl rfl hw
  case spawn _ _ hdl n =>
    obtain ⟨hh, hn, hz⟩ := spawn_fields hdl n
    simp only [ofFields, decode34X, hh, hn, hz]
    exact accept_eq rfl rfl hw
  case fork | launch =>
    simp only [ofFields, decode34X, field_word32_one, field_word32_above, Nat.reduceLeDiff]
    exact accept_eq rfl rfl hw

theorem ofFields_xLit {f : FieldsA} {w1 w2 : W32} {l : W64} (hf : toFields i = some (.xLit maj f w1 w2 l)) (hw : i.wf = true) :
    ofFields (.xLit maj f w1 w2 l) = .ok i := by
  cases i <;> cases hf
  case mmas x y =>
    obtain ⟨hsa, hsb, hta, htb, hbs, hz⟩ := mmasLit_fields y
    show decode2CLit (mmaFields x 1#6) _ _ _ = _
    simp only [decode2CLit, mmaArgs_words, hsa, hsb, hta, htb, hbs, hz, BlockSize.of?_code, orErr_some]
    exact accept_eq rfl rfl hw

end

/-- Stage two gives a well-formed instruction back from its fields. -/
theorem ofFields_toFields {i : Instr} {f : Fields} (hf : toFields i = some f) (hw : i.wf = true) : ofFields f = .ok i := by
  cases f with
  | a => exact ofFields_a hf hw
  | aLit => exact ofFields_aLit hf hw
  | i => exact ofFields_i hf
  | iLit => exact ofFields_iLit hf
  | b => exact ofFields_b hf hw
  | j => exact ofFields_j hf
  | v => exact ofFields_v hf hw
  | x => exact ofFields_x hf hw
  | xLit => exact ofFields_xLit hf hw

end Sys2Proof

namespace Sys2Proof.Proofs

open Sys2Proof Sys2Proof.Machine

/-- Settles O9: stage one reads the fields back from their words (`splitWords_packFields`), stage two the instruction from its fields
(`ofFields_toFields`). -/
theorem decodeOfEncode : Obligations.DecodeOfEncode := by
  unfold Obligations.DecodeOfEncode
  intro i rest hsome hw
  obtain ⟨f, hf⟩ := Option.isSome_iff_exists.mp hsome
  rw [encode, hf, decodeWords, splitWords_packFields (formOf_toFields hf)]
  exact ofFields_toFields hf hw

end Sys2Proof.Proofs

namespace Sys2Proof

/-! What decodes is well formed (R26, R39). -/

/-- Where this answers an instruction, it is a well-formed one of the cores. -/
def Sound (r : Except DecodeError Instr) : Prop := ∀ i, r = .ok i → i.wf = true ∧ (toFields i).isSome = true

theorem Sound.error (e : DecodeError) : Sound (.error e) := fun _ h => by cases h

/-- Acceptance checks the values; what remains is that the instruction has an encoding. -/
theorem Sound.accept {i : Instr} (r : Bool) (h : (toFields i).isSome = true) : Sound (accept r i) := by
  intro j hj
  unfold Sys2Proof.accept at hj
  split at hj
  · cases hj
  · split at hj
    · cases hj; exact ⟨‹_›, h⟩
    · cases hj

theorem Sound.ite {c : Prop} [Decidable c] {r r' : Except DecodeError Instr} (h : Sound r) (h' : Sound r') : Sound (if c then r else r') := by
  split
  · exact h
  · exact h'

theorem Sound.orErr {α : Type} {e : DecodeError} {o : Option α} {k : α → Except DecodeError Instr} (h : ∀ x, Sound (k x)) :
    Sound (orErr e o k) := by
  cases o with
  | none => exact .error e
  | some x => exact h x

theorem Sound.orErr_accept {α : Type} {e : DecodeError} {o : Option α} {r : α → Bool} {i : α → Instr}
    (h : ∀ x, (toFields (i x)).isSome = true) : Sound (Sys2Proof.orErr e o fun x => Sys2Proof.accept (r x) (i x)) :=
  .orErr fun x => .accept _ (h x)

theorem Sound.maskOf {me mp : Bool} {mr : BitVec 2} {k : Option Mask → Except DecodeError Instr} (h : ∀ m, Sound (k m)) :
    Sound (maskOf me mp mr k) := (h _).ite ((Sound.error _).ite (h _))

theorem Sound.maskOf0 {me mp : Bool} {mr : BitVec 2} {k : Option (BitVec 2) → Except DecodeError Instr} (h : ∀ m, Sound (k m)) :
    Sound (maskOf0 me mp mr k) := (Sound.error _).ite ((h _).ite ((Sound.error _).ite (h _)))

theorem Sound.maskOf_accept {me mp : Bool} {mr : BitVec 2} {r : Option Mask → Bool} {i : Option Mask → Instr}
    (h : ∀ m, (toFields (i m)).isSome = true) : Sound (Sys2Proof.maskOf me mp mr fun m => Sys2Proof.accept (r m) (i m)) :=
  .maskOf fun m => .accept _ (h m)

theorem Sound.maskOf0_accept {me mp : Bool} {mr : BitVec 2} {r : Option (BitVec 2) → Bool} {i : Option (BitVec 2) → Instr}
    (h : ∀ m, (toFields (i m)).isSome = true) : Sound (Sys2Proof.maskOf0 me mp mr fun m => Sys2Proof.accept (r m) (i m)) :=
  .maskOf0 fun m => .accept _ (h m)

/-! The tables of operations that share a form name instructions with encodings. -/

theorem aluOp_encoded {n : Nat} {op : Reg → Reg → Reg → Instr} {opL : Reg → Reg → W64 → Instr} (h : aluOp n = some (op, opL))
    (d a b : Reg) (l : W64) : (toFields (op d a b)).isSome = true ∧ (toFields (opL d a l)).isSome = true := by
  unfold aluOp at h
  split at h <;> cases h <;> exact ⟨rfl, rfl⟩

theorem opI_encoded {maj n : Nat} {op : Reg → Reg → BitVec 11 → Instr} {opL : Reg → Reg → W64 → Instr}
    (h : opI maj n = some (op, opL)) (d a : Reg) (i : BitVec 11) (l : W64) :
    (toFields (op d a i)).isSome = true ∧ (toFields (opL d a l)).isSome = true := by
  unfold opI immOp ldOp stOp at h
  split at h
  case h_4 => cases h
  all_goals split at h <;> cases h <;> exact ⟨rfl, rfl⟩

theorem vec3Op_encoded {maj n : Nat} {op : Option Mask → Reg → Reg → Reg → Instr} (h : vec3Op maj n = some op) (m : Option Mask)
    (d a b : Reg) : (toFields (op m d a b)).isSome = true := by
  unfold vec3Op at h
  split at h <;> cases h <;> rfl

theorem vec2Op_encoded {maj n : Nat} {op : Option Mask → Reg → Reg → Instr} (h : vec2Op maj n = some op) (m : Option Mask) (d a : Reg) :
    (toFields (op m d a)).isSome = true := by
  unfold vec2Op at h
  split at h <;> cases h <;> rfl

/-! Stage two, form by form. -/

theorem sound_decode01 (f : FieldsA) : Sound (decode01 f) := by
  unfold decode01
  split
  case h_6 =>
    split
    · exact .accept _ (aluOp_encoded ‹_› _ _ _ 0#64).1
    · exact .error _
  all_goals exact .accept _ rfl

theorem sound_decode01Lit (f : FieldsA) (l : W64) : Sound (decode01Lit f l) := by
  unfold decode01Lit
  split
  · exact .accept _ rfl
  · split
    · exact .accept _ (aluOp_encoded ‹_› _ _ 0#5 _).2
    · exact .ite (.error _) (.error _)

theorem sound_decodeI (maj : Nat) (f : FieldsI) : Sound (decodeI maj f) := by
  unfold decodeI
  split
  · exact .accept _ (opI_encoded ‹_› _ _ _ 0#64).1
  · exact .ite (.accept _ rfl) (.error _)

theorem sound_decodeILit (maj : Nat) (f : FieldsI) (l : W64) : Sound (decodeILit maj f l) := by
  unfold decodeILit
  split
  · exact .accept _ (opI_encoded ‹_› _ _ 0#11 _).2
  · exact .ite (.accept _ rfl) (.error _)

theorem sound_decodeB (maj : Nat) (f : FieldsB) : Sound (decodeB maj f) := by
  refine .orErr fun h => .ite (.ite (.accept _ rfl) (.error _)) ?_
  split <;> exact .accept _ rfl

theorem sound_decodeJ (maj : Nat) (f : FieldsJ) : Sound (decodeJ maj f) := by
  have ok {i : Instr} (h : i.wf = true ∧ (toFields i).isSome = true) : Sound (.ok i) := fun j hj => by cases hj; exact h
  exact .ite (.error _) (.ite (ok ⟨rfl, rfl⟩) (ok ⟨rfl, rfl⟩))

theorem sound_decodeV (maj : Nat) (f : FieldsV) : Sound (decodeV maj f) := by
  unfold decodeV
  dsimp only
  split
  · exact .maskOf fun m => .accept _ (vec3Op_encoded ‹_› m _ _ _)
  · split
    · exact .maskOf fun m => .accept _ (vec2Op_encoded ‹_› m _ _)
    · split <;> apply_rules [Sound.error, Sound.accept, Sound.ite, Sound.maskOf_accept, Sound.maskOf0_accept]

theorem sound_decode12 (f : FieldsA) (w1 w2 : W32) : Sound (decode12 f w1 w2) := by
  unfold decode12
  refine .maskOf fun m => ?_
  split <;> apply_rules [Sound.error, Sound.accept, Sound.orErr_accept]

theorem sound_decode24X (f : FieldsA) (w1 w2 : W32) : Sound (decode24X f w1 w2) := by
  unfold decode24X
  refine .orErr fun rm => .maskOf fun m => ?_
  split <;> apply_rules [Sound.error, Sound.accept, Sound.ite]

theorem sound_decode2CLit (f : FieldsA) (w1 w2 : W32) (l : W64) : Sound (decode2CLit f w1 w2 l) := by
  unfold decode2CLit
  split
  · exact .orErr fun x => .orErr fun bs => .accept _ rfl
  · exact .ite (.error _) (.error _)

theorem sound_ofFields (f : Fields) : Sound (ofFields f) := by
  cases f with
  | a maj f =>
    simp only [ofFields, decode03, decode04, decode08, decode13, decode14, decode18, decode1A, decode1D, decode2D, decode2E, decode34, decode35,
      decode38, decode39, decode3A]
    repeat' split
    all_goals apply_rules [sound_decode01, Sound.error, Sound.accept, Sound.orErr_accept]
  | aLit maj f l =>
    simp only [ofFields, decode03Lit]
    repeat' split
    all_goals apply_rules [sound_decode01Lit, Sound.error, Sound.accept]
  | i maj f => exact sound_decodeI _ f
  | iLit maj f l => exact sound_decodeILit _ f l
  | b maj f => exact sound_decodeB _ f
  | j maj f => exact sound_decodeJ _ f
  | v maj f => exact sound_decodeV _ f
  | x maj f w1 w2 =>
    simp only [ofFields, decode18X, decode1AX, decode1C, decode2C, decode34X]
    repeat' split
    all_goals apply_rules [sound_decode12, sound_decode24X, Sound.error, Sound.accept, Sound.orErr_accept]
  | xLit maj f w1 w2 l =>
    simp only [ofFields]
    split
    · exact sound_decode2CLit f w1 w2 l
    · exact .error _

end Sys2Proof

namespace Sys2Proof.Proofs

open Sys2Proof Sys2Proof.Machine

/-- Settles O10: stage two only accepts, which checks the values, and every instruction it accepts has an encoding (`sound_ofFields`). -/
theorem decodedInstructionsAreWellFormed : Obligations.DecodedInstructionsAreWellFormed := by
  unfold Obligations.DecodedInstructionsAreWellFormed
  intro ws i h
  unfold decodeWords at h
  split at h
  · exact sound_ofFields _ i h
  · cases h

/-- Settles O8: the words are the encodings of their instructions, so they decode to them (`decodeOfEncode`). -/
theorem specWordsDecode : Obligations.SpecWordsDecode := by
  unfold Obligations.SpecWordsDecode
  have decodes {i : Instr} {ws : List W32} (hws : encode i = ws) (hi : (toFields i).isSome = true) (hw : i.wf = true) :
      decodeWords ws = .ok i := by
    simpa [hws] using decodeOfEncode i [] hi hw
  refine ⟨?_, ?_, ?_, ?_, ?_, ?_, ?_, ?_, ?_, ?_, ?_⟩ <;> exact decodes rfl rfl rfl

end Sys2Proof.Proofs

/-! PROOFS. Jumps to a register (O5). -/

namespace Sys2Proof.Machine

open Sys2Proof

/-- A jump to a register issues as jumpTo says, under the instruction's own declaration (R235). -/
theorem exec_jumpResult {i : Instr} {r : Reg} {link : Bool} (h : jumpResult i = some (r, link)) (s : State) : ∃ body : State → Act,
    exec i s = issue (s.declared i) body s ∧ ∀ u, body u =
      if 2 ^ 56 ≤ (u.rd r).toNat then (u, .trap .capBounds ((u.rd r).toNat % 2 ^ 56) 0)
      else (if link then u.wd 31#5 (BitVec.ofNat 64 (u.pcNow + 4)) else u, .goto (u.rd r).toNat) := by
  cases i with
  | ret | jr a | callr a => cases h; exact ⟨_, rfl, fun _ => rfl⟩
  | _ => cases h

end Sys2Proof.Machine

namespace Sys2Proof.Proofs

open Sys2Proof Sys2Proof.Machine

/-- Settles O5: the body of a jump (`exec_jumpResult`) reads its register as the instruction found it (`Checked.rd`), and goes or traps. -/
theorem jumpsGoToTheirRegister : Obligations.JumpsGoToTheirRegister := by
  unfold Obligations.JumpsGoToTheirRegister
  refine ⟨fun i s s' r link hi ⟨hfree, hc⟩ hlt => ?goes, fun i s s' r link hi ⟨hfree, hc⟩ hmon hpend hge => ?traps⟩ <;>
    obtain ⟨body, hexec, hbody⟩ := exec_jumpResult hi s <;> rw [hexec] <;> specialize hbody s' <;> rw [hc.rd] at hbody
  case goes =>
    rw [if_neg (Nat.not_le.mpr hlt), hc.pcNow] at hbody
    cases link with
    | false =>
      obtain ⟨t, ht, ends⟩ := issue_goes hfree hc hbody (hc.kill hfree)
      exact ⟨t, ht, (ends.of_self hc).writes_none⟩
    | true =>
      rw [if_pos rfl] at hbody
      obtain ⟨t, ht, ends⟩ := issue_goes hfree hc hbody ((State.killLater_wc s' _ _).trans (hc.kill hfree))
      exact ⟨t, ht, ends.of_wc hc⟩
  case traps =>
    rw [if_pos hge] at hbody
    obtain ⟨g, hmy⟩ := hc.my
    refine issue_traps hfree hc hbody (hc.near.mode.trans hmon) ?_
    rw [State.pendingReqs, hmy]
    exact hpend

end Sys2Proof.Proofs

/-! PROOFS. The checker at the end of a block (O13). -/

namespace Sys2Proof.Machine

open Sys2Proof

section
variable {s u : State} {i : Issue} {a : Activation} {es : List (Nat × Nat × Nat)} {g : Sig} {body : State → Act}

/-- An instruction of an activation whose body retires settles where its block goes on or ends as its entry says (R47). -/
theorem State.runBody_retires (hmon : s.monitor = false) (hact : s.my.act = some a) (htable : s.sigTable = (.ok es, s))
    (hreach : sigReach s a (codeOffset a s.my.pc) es = .ok g) (hbody : body (s.modMy fun c => { c with sig := g }) = (u, .retire))
    (hend : sigEnd a g es i s.word0 false = none) : s.runBody i body = u.settle i g .retire := by
  unfold State.runBody
  simp only [htable, hmon, hact, Option.getD_some, Bool.false_eq_true, if_false, hreach, hbody, hend]

/-- An instruction of an activation whose body retires aborts where its block ends otherwise (R47). -/
theorem State.runBody_aborts {c : Cause} {va info : Nat} (hmon : s.monitor = false) (hact : s.my.act = some a)
    (htable : s.sigTable = (.ok es, s)) (hreach : sigReach s a (codeOffset a s.my.pc) es = .ok g)
    (hbody : body (s.modMy fun c => { c with sig := g }) = (u, .retire))
    (hend : sigEnd a g es i s.word0 false = some (c, va, info)) : s.runBody i body = s.trapNow c va info true := by
  unfold State.runBody
  simp only [htable, hmon, hact, Option.getD_some, Bool.false_eq_true, if_false, hreach, hbody, hend]

end

/-- Where a block ends at an instruction that falls through, the CRC with its word and exit byte 0 is compared with the block's
entry (R47). -/
theorem sigEnd_fallThrough {a : Activation} {i : Issue} (g : Sig) (es : List (Nat × Nat × Nat)) (w : W32) (ha : a.sigCount ≠ 0)
    (hi : i.ender = true) : sigEnd a g es i w false =
      let crc := crc16Byte (crc16 g.crc (vBytes w i.j)) 0#8
      if (es.find? fun e => e.1 == g.block).any fun e => e.2.1 == crc.toNat then none else some (.signature, 0, sigInfo g.block crc) := by
  unfold sigEnd
  simp [ha, hi]

/-- An abort that the checker finds, in an activation without an outstanding request (R386). -/
theorem State.trapNow_signature (s : State) (va info : Nat) (hmon : s.monitor = false) (hreqs : s.pendingReqs = false) :
    s.trapNow .signature va info true = s.mismatch.takeAbort Cause.signature.code va info s.my.pc s.word0 := by
  unfold State.trapNow
  simp [hmon, hreqs]

/-- The issuing core of an activation behind an instruction that retires. -/
theorem State.settle_retire_my {u : State} {a : Activation} (i : Issue) (g : Sig) (hmon : u.monitor = false) (hact : u.my.act = some a)
    (hkill : u.my.killLater = none) : (u.settle i g .retire).my =
      { u.my with sig := sigAfter a g i u.word0 (u.my.pc + i.len), pc := (u.my.pc + i.len) % 2 ^ 64, prog := {} } := by
  have hpc : u.pcNow = u.my.pc := by rw [State.pcNow, hmon]; rfl
  have hset (f : Core → Core) (n : Nat) : (u.modMy f).setPc n = (u.modMy f).modMy fun c => { c with pc := n % 2 ^ 64 } := by
    rw [State.setPc, show (u.modMy f).monitor = false from hmon]; rfl
  simp only [State.settle, hmon, hact, hpc, Bool.false_eq_true, if_false, hset]
  rw [State.endInstr_eq _ (by simpa using hkill)]
  simp [hact]

end Sys2Proof.Machine

namespace Sys2Proof.Proofs

open Sys2Proof Sys2Proof.Machine

/-- Settles O13: SIGCHK's body retires, so its end is the checker's comparison alone (`sigEnd_fallThrough`). -/
theorem signaturesAreComparedAtTheEndOfABlock : Obligations.SignaturesAreComparedAtTheEndOfABlock := by
  unfold Obligations.SignaturesAreComparedAtTheEndOfABlock
  intro s a es g hfree hmon hact htable hreach hcount hreqs v crc
  have hexec : exec .sigchk s = .next (s.runBody (decl .sigchk) fun s => (s, .retire)) := issue_free hfree _
  have hend : sigEnd a g es (decl .sigchk) s.word0 false = if (es.find? fun e => e.1 == g.block).any fun e => e.2.1 == crc.toNat then none
      else some (.signature, 0, sigInfo g.block crc) := sigEnd_fallThrough g es s.word0 hcount rfl
  rw [hexec]
  split at hend
  case isTrue hagrees =>
    have hmy := State.settle_retire_my (decl .sigchk) g (u := s.modMy fun c => { c with sig := g }) hmon
      ((congrArg Core.act (State.modMy_my s _)).trans hact) ((congrArg Core.killLater (State.modMy_my s _)).trans hfree.kill)
    rw [State.modMy_my] at hmy
    rw [if_pos hagrees, State.runBody_retires hmon hact htable hreach rfl hend]
    exact ⟨_, rfl, congrArg Core.pc hmy, congrArg Core.sig hmy⟩
  case isFalse hdiffers =>
    rw [if_neg hdiffers, State.runBody_aborts hmon hact htable hreach rfl hend, State.trapNow_signature s 0 _ hmon hreqs]
    rfl

end Sys2Proof.Proofs

/-! PROOFS. A core of a spare cluster takes no turn (O6, O7, O11). A cluster that belongs to no partition is powered down (R398): where the
agenda holds a turn of one of its cores, the step leaves the core as it is. The three statements exclude a viral cluster, not a spare one. -/

namespace Sys2Proof.Machine

open Sys2Proof

/-- The turn of a core of a spare cluster (R398). -/
theorem step_spare {s : State} {c : CoreId} {rest : List Turn} (hagenda : s.agenda = .core c :: rest)
    (hpart : (s.cluster (clusterOf c.site)).part = none) : step s = .next { s with agenda := rest, focus := c } := by
  have hspare : (({ s with agenda := rest, focus := c } : State).cluster (clusterOf c.site)).part = none := hpart
  simp only [step, hagenda, State.turn, hspare, Option.isNone_none, Bool.or_true, if_true]

/-- The compute core of tile 0, whose cluster is spare after reset, in monitor mode, the word where it fetches. -/
def spareMonitor (word : Nat) : State :=
  { ((State.reset.modMcore ⟨0, true⟩ fun m => { m with mode := true }).modTile 0 fun t => { t with store := twrite t.store 0 4 word }) with
    agenda := [.core ⟨0, true⟩] }

theorem step_spareMonitor (word : Nat) : step (spareMonitor word) = .next { spareMonitor word with agenda := [] } := step_spare rfl rfl

/-- The compute core of tile 0 with a deferred trap pending, in an activation of a context whose cluster is spare. -/
def spareDeferred : State :=
  ((State.reset.placeInstr 32 0).modCluster 0 fun c => { c with part := none }).modCore (coreKey (ctxKey 1 0) true) fun c =>
    { c with pend := [{ cause := 0, va := 0, info := 0 }] }

theorem step_spareDeferred : step spareDeferred = .next { spareDeferred with agenda := [] } := step_spare rfl (by decide +kernel)

/-- The outcome goes on in a state of which f holds. -/
def nextIs (f : State → Bool) : Host.Outcome State Fault Refusal → Bool
  | .next s => f s
  | _ => false

end Sys2Proof.Machine

namespace Sys2Proof.Proofs

open Sys2Proof Sys2Proof.Machine

/-- Refutes O6: the core of tile 0 in monitor mode, with ADD c3, c4, c5 at address 0 of the store and its cluster spare, does not run the
ADD: its pc stays 0 (`step_spareMonitor`), where exec takes it to 4. The statement lacks the hypothesis that the cluster has a partition. -/
theorem not_stepRunsTheDecodedInstruction : ¬ Obligations.StepRunsTheDecodedInstruction := by
  unfold Obligations.StepRunsTheDecodedInstruction
  intro h
  let s0 : State := { spareMonitor 0x00148304 with agenda := [] }
  have hstep : step (spareMonitor 0x00148304) = exec (.add 3#5 4#5 5#5) s0 :=
    (h (spareMonitor 0x00148304) s0 ⟨0, true⟩ [] 0x00148304#32 [] (.add 3#5 4#5 5#5) rfl rfl specWordsDecode.1).1 (by decide +kernel)
      (by decide +kernel)
  have hpc : nextIs (fun s => s.pcNow == 0) (exec (.add 3#5 4#5 5#5) s0) = false := by decide +kernel
  rw [← hstep, step_spareMonitor] at hpc
  exact absurd hpc (by decide +kernel)

/-- Refutes O7, in the clause about what is due before a fetch: the core of tile 0, its cluster spare, has a deferred trap due, but the step
does not enter the monitor (`step_spareDeferred`), where exec does. The clause lacks the hypothesis that the cluster has a partition. -/
theorem not_stepFollowsTheAgenda : ¬ Obligations.StepFollowsTheAgenda := by
  unfold Obligations.StepFollowsTheAgenda
  intro ⟨hagenda, _⟩
  obtain ⟨_, _, _, hdue, _⟩ := hagenda spareDeferred []
  let s0 : State := { spareDeferred with agenda := [] }
  have hstep : step spareDeferred = exec (.deferredTrap ⟨0, true⟩) s0 :=
    hdue ⟨0, true⟩ (ctxKey 1 0) (some (.deferredTrap ⟨0, true⟩)) rfl (by decide +kernel) (by decide +kernel) (by decide +kernel)
      (by decide +kernel)
  have hmode : nextIs (fun s => !s.monitor) (exec (.deferredTrap ⟨0, true⟩) s0) = false := by decide +kernel
  rw [← hstep, step_spareDeferred] at hmode
  exact absurd hmode (by decide +kernel)

/-- Refutes O11, in the clause about monitor mode: the core of tile 0, its cluster spare, stands at a word 0, which no instruction has, but the
step does not make the cluster viral (`step_spareMonitor`). The clause lacks the hypothesis that the cluster has a partition. -/
theorem not_decodeChecksTrapInTheirOrder : ¬ Obligations.DecodeChecksTrapInTheirOrder := by
  unfold Obligations.DecodeChecksTrapInTheirOrder
  intro ⟨hwords, _⟩
  let s0 : State := { spareMonitor 0 with agenda := [] }
  have hstep : step (spareMonitor 0) = .next (s0.clusterViral 0) :=
    (hwords (spareMonitor 0) s0 ⟨0, true⟩ [] [0#32] _ rfl rfl rfl).1 (by decide +kernel) (by decide +kernel)
  have hviral : nextIs (fun s => (s.cluster 0).viral) (step (spareMonitor 0)) = true := by rw [hstep]; decide +kernel
  rw [step_spareMonitor] at hviral
  exact absurd hviral (by decide +kernel)

end Sys2Proof.Proofs

/-! PROOFS. Scalar loads and stores that trap or stall (O17). What a load's and a store's body does is said once for all of their forms;
each end then follows from the shared lemmas about issue. -/

namespace Sys2Proof.Machine

open Sys2Proof

section
variable {i : Instr} {s s' : State} {a : Reg} {disp : Int} {n x : Nat} {tag : Bool} {p : Perms}

/-- A load whose capability fails a check traps with that check's cause, whatever its form (R57, R123, R124). -/
theorem exec_loadForm {kind : ReqKind} {memTag : Bool} (h : loadForm i s = some (a, disp, n, kind, tag, memTag)) :
    ∃ body : State → Act, exec i s = issue (s.declared i) body s ∧ ∀ u c,
      checkCap (u.rc a) ((u.rc a).addr + disp) n n { l := true } = some c → body u = trapEa u c ((u.rc a).addr + disp) := by
  cases i with
  | ld8N | ld8NLiteral | ld8S | ld8SLiteral | ld16N | ld16NLiteral | ld16S | ld16SLiteral | ld32N | ld32NLiteral | ld32S | ld32SLiteral
  | ld64 | ld64Literal | ldc | ldcLiteral =>
    cases h
    refine ⟨_, rfl, fun u c hc => ?_⟩
    simp only [hc]
  | _ => cases h

/-- A store's body, whatever its form, found with the registers that the form was read from: the checks of its capability, then, for a tagged
value, that of the half of the addresses (R59), then the trail (R126). -/
theorem exec_storeForm (h : storeForm i s = some (a, disp, n, x, tag, p)) :
    ∃ body : State → Act, exec i s = issue (s.declared i) body s ∧ ∀ u : State, (∀ r, u.rc r = s.rc r) →
      (∀ c, checkCap (s.rc a) ((s.rc a).addr + disp) n n p = some c → body u = trapEa u c ((s.rc a).addr + disp)) ∧
      (checkCap (s.rc a) ((s.rc a).addr + disp) n n p = none →
        body u = if tag && !devHalf ((s.rc a).addr + disp).toNat then trapEa u .capPerm ((s.rc a).addr + disp)
          else storeEntries (granuleWrites ((s.rc a).addr + disp).toNat n x tag) u) := by
  cases i with
  | st8 | st8Literal | st16 | st16Literal | st32 | st32Literal | st64 | st64Literal | stc | stcLiteral =>
    cases h
    refine ⟨_, rfl, fun u hu => ⟨fun c hc => ?_, fun hc => ?_⟩⟩
    · simp only [hu, hc]
    · simp only [hu, hc, State.rd, Bool.false_and, Bool.false_eq_true, if_false]
  | _ => cases h

/-- An instruction whose body traps, in an activation without an outstanding request. -/
theorem issue_traps_act {j : Issue} {c : Cause} {va info : Nat} {body : State → Act} (hf : Free j s) (hc : Checked j s s' false)
    (hb : body s' = (s', .trap c va info)) (hmon : s.monitor = false) (hreqs : s.pendingReqs = false) :
    ∃ t, issue j body s = .next t ∧ Trapped s' t c.code va info false := by
  obtain ⟨g, hmy⟩ := hc.my
  refine issue_traps hf hc hb (hc.near.mode.trans hmon) ?_
  rw [State.pendingReqs, hmy]
  exact hreqs

/-- The checker's entry leaves a core's rooms, trail and progress as they are. -/
theorem Checked.rooms {j : Issue} {taken : Bool} (hc : Checked j s s' taken) (hmon : s.monitor = false) :
    s'.myKey = s.myKey ∧ s'.myRegion = s.myRegion ∧ s'.my.trail = s.my.trail ∧ s'.my.prog = s.my.prog ∧
    s'.segRoom s.myKey = s.segRoom s.myKey ∧ s'.trailRoom s.myKey = s.trailRoom s.myKey ∧
    s'.autorel s.myRegion = s.autorel s.myRegion := by
  rw [Checked, hmon] at hc
  obtain ⟨_, _, g, -, -, -, -, rfl⟩ := hc
  have hcore : (s.modMy fun c => { c with sig := g }).core s.myKey = { s.my with sig := g } := State.modMy_core_same s _
  refine ⟨rfl, rfl, by rw [State.modMy_my], by rw [State.modMy_my], ?_, ?_, rfl⟩
  · rw [State.segRoom, hcore]; rfl
  · rw [State.trailRoom, State.sealedCount, hcore]; rfl

/-- A store that would outgrow the segment traps where its region does not release automatically (R107). -/
theorem storeEntries_full {u : State} {es : List TrailEntry} (hstep : u.my.prog.step = 0) (hrel : u.my.prog.rel = none)
    (hauto : u.autorel u.myRegion = false) (hseg : u.segRoom u.myKey < newGranules u.my.trail es) :
    storeEntries es u = (u, .trap .trailFull 0 0) := by
  simp [storeEntries, hstep, hrel, hauto, hseg]

/-- A store that the segment has room for and the trail has not stalls (R107). -/
theorem storeEntries_stalls {u : State} {es : List TrailEntry} (hstep : u.my.prog.step = 0) (hrel : u.my.prog.rel = none)
    (hseg : newGranules u.my.trail es ≤ u.segRoom u.myKey) (hroom : u.trailRoom u.myKey < newGranules u.my.trail es) :
    storeEntries es u = (u.modMy fun c => { c with stall := .trail es }, .done) := by
  simp [storeEntries, hstep, hrel, Nat.not_lt.mpr hseg, hroom]

end

end Sys2Proof.Machine

namespace Sys2Proof.Proofs

open Sys2Proof Sys2Proof.Machine

/-- Settles O17: each form's body (`exec_loadForm`, `exec_storeForm`) runs with the registers the instruction found, and its trail with the
rooms it found (`Checked.rooms`). -/
theorem scalarAccessesTrapOrStall : Obligations.ScalarAccessesTrapOrStall := by
  unfold Obligations.ScalarAccessesTrapOrStall
  refine ⟨⟨?load, ?store, ?tagged⟩, ?room⟩
  case load =>
    intro i s s' a disp n kind tag memTag c hform ⟨hfree, hc⟩ hmon hreqs hcheck
    obtain ⟨body, hexec, hbody⟩ := exec_loadForm hform
    rw [← hc.rc] at hcheck ⊢
    rw [hexec]
    exact issue_traps_act hfree hc (hbody s' c hcheck) hmon hreqs
  case store =>
    intro i s s' a disp n x tag p c hform ⟨hfree, hc⟩ hmon hreqs hcheck
    obtain ⟨body, hexec, hbody⟩ := exec_storeForm hform
    rw [hexec]
    exact issue_traps_act hfree hc ((hbody s' hc.rc).1 c hcheck) hmon hreqs
  case tagged =>
    intro i s s' a disp n x p hform ⟨hfree, hc⟩ hmon hreqs hcheck hhalf
    obtain ⟨body, hexec, hbody⟩ := exec_storeForm hform
    have htrap := (hbody s' hc.rc).2 hcheck
    rw [hhalf] at htrap
    rw [hexec]
    exact issue_traps_act hfree hc htrap hmon hreqs
  case room =>
    intro i s s' a disp n x tag p hform ⟨hfree, hc⟩ hmon hreqs hstep hrel hcheck hhalf es
    obtain ⟨body, hexec, hbody⟩ := exec_storeForm hform
    obtain ⟨hkey, hregion, htrail, hprog, hseg, hroom, hauto⟩ := hc.rooms hmon
    have htag : ¬ (tag && !devHalf ((s.rc a).addr + disp).toNat) = true := by
      cases tag with
      | false => simp
      | true => simp [hhalf rfl]
    have hact := ((hbody s' hc.rc).2 hcheck).trans (if_neg htag)
    rw [← hprog] at hstep hrel
    rw [← hkey] at hseg hroom ⊢
    rw [← hregion] at hauto ⊢
    rw [← htrail, ← hseg, ← hroom, ← hauto, hexec]
    refine ⟨fun hno hfull => ?_, fun hfits hfull => ?_⟩
    · exact issue_traps_act hfree hc (hact.trans (storeEntries_full hstep hrel hno hfull)) hmon hreqs
    · obtain ⟨g, hnext⟩ := issue_next hfree hc (hact.trans (storeEntries_stalls hstep hrel hfits hfull)) rfl
      exact hnext

end Sys2Proof.Proofs

/-! PROOFS. Translations, page requests, the physical function's writes and the stacks' commands (O53). What an operation changes is a relation
of the states before and after it (Queues, Reports, PageKept, …), kept by its steps; each event's next state is then stated once. -/

namespace Sys2Proof.Machine

open Sys2Proof

section
variable {s t u : State}

/-! Tables whose entries are rewritten under their keys. -/

theorem tget_map {α : Type} {d : α} {f : Nat × α → Nat × α} (hkey : ∀ e, (f e).1 = e.1) {k : Nat} (hd : (f (k, d)).2 = d) (t : Tbl α) :
    tget d (t.map f) k = (f (k, tget d t k)).2 := by
  induction t with
  | nil => exact hd.symm
  | cons e t ih =>
    obtain ⟨j, v⟩ := e
    rw [List.map_cons, show f (j, v) = (j, (f (j, v)).2) from Prod.ext (hkey _) rfl, tget, tget]
    split
    · subst ‹j = k›; rfl
    · exact ih

/-! What an operation changes: the fields named, with all others as before. -/

/-- Accesses queue at their channels, and a channel that was idle is woken (R81). -/
def Queues (s t : State) : Prop := ∃ c a, t = { s with chans := c, agenda := a }

theorem Queues.refl (s : State) : Queues s s := ⟨_, _, rfl⟩

theorem Queues.trans (h : Queues s t) (k : Queues t u) : Queues s u := by
  obtain ⟨_, _, rfl⟩ := h
  obtain ⟨_, _, rfl⟩ := k
  exact ⟨_, _, rfl⟩

theorem Queues.same (h : Queues s t) : t.cores = s.cores ∧ SameMemory s t := by
  obtain ⟨_, _, rfl⟩ := h
  exact ⟨rfl, rfl, rfl, rfl⟩

theorem State.rimTouch_queues (s : State) (p : Nat) (reg : Option Nat) (write : Bool) (pa n : Nat) :
    Queues s (s.rimTouch p reg write pa n) := by
  unfold State.rimTouch
  refine List.foldlRecOn _ _ (Queues.refl s) fun v hv i _ => hv.trans ?_
  dsimp only
  split <;> exact ⟨_, _, rfl⟩

/-- Slices change alone where each step of a fold changes one. -/
theorem foldl_modSlice {α : Type} (i : α → Nat) (f : α → Slice → Slice) (l : List α) (s : State) :
    ∃ x, l.foldl (fun s a => s.modSlice (i a) (f a)) s = { s with slices := x } := by
  induction l generalizing s with
  | nil => exact ⟨_, rfl⟩
  | cons a l ih =>
    obtain ⟨x, hx⟩ := ih (s.modSlice (i a) (f a))
    exact ⟨x, hx⟩

/-! Whoever waits for a translation asks again (R66, R67). -/

/-- Turns join the agenda. -/
def State.postAll (s : State) (ts : List Turn) : State := { s with agenda := s.agenda ++ ts }

theorem State.postAll_nil (s : State) : s.postAll [] = s := by rw [State.postAll, List.append_nil]

theorem State.postAll_append (s : State) (ts us : List Turn) : (s.postAll ts).postAll us = s.postAll (ts ++ us) := by
  simp only [State.postAll, List.append_assoc]

/-- An asker that is told posts what it asks with: a request of a slot that is no atomic's its event, at its home slice. -/
theorem State.tell_posts (s : State) (who : Asker) : ∃ ts, s.tell who = s.postAll ts ∧
    ∀ k i q, who = .request k i → tget none (s.core k).reqs i = some q → (∀ a b c d e f, q.kind ≠ .atomic a b c d e f) →
      .event (.loadRequest k i) ∈ ts := by
  cases who with
  | request k i =>
    cases hq : tget none (s.core k).reqs i with
    | none =>
      refine ⟨[], by simp only [State.tell, hq, s.postAll_nil], fun _ _ _ hwho hq' _ => ?_⟩
      cases hwho
      rw [hq] at hq'
      cases hq'
    | some q =>
      cases hkind : q.kind with
      | atomic =>
        refine ⟨[.event (.atomicEngineRequest (s.engineOf (s.corePart k) q.va))], by simp only [State.tell, hq, hkind]; rfl,
          fun _ _ _ hwho hq' hnone => ?_⟩
        cases hwho
        rw [hq] at hq'
        cases hq'
        exact absurd hkind (hnone _ _ _ _ _ _)
      | scalar | cap | vector | hcasx =>
        refine ⟨[.event (.loadRequest k i)], by simp only [State.tell, hq, hkind]; rfl, fun _ _ _ hwho _ _ => ?_⟩
        cases hwho
        exact List.mem_singleton.2 rfl
  | core | copy | device => exact ⟨[], s.postAll_nil.symm, fun _ _ _ hwho => by cases hwho⟩

theorem State.tellAll_posts (l : List Asker) (s : State) : ∃ ts, s.tellAll l = s.postAll ts ∧
    ∀ k i q, .request k i ∈ l → tget none (s.core k).reqs i = some q → (∀ a b c d e f, q.kind ≠ .atomic a b c d e f) →
      .event (.loadRequest k i) ∈ ts := by
  induction l generalizing s with
  | nil => exact ⟨[], s.postAll_nil.symm, fun _ _ _ h => by cases h⟩
  | cons who l ih =>
    obtain ⟨ts, hts, hfirst⟩ := s.tell_posts who
    obtain ⟨us, hus, hrest⟩ := ih (s.postAll ts)
    refine ⟨ts ++ us, ?_, fun k i q hin hq hkind => ?_⟩
    · rw [State.tellAll, List.foldl_cons, ← State.tellAll, hts, hus, State.postAll_append]
    · rcases List.mem_cons.1 hin with hwho | hin
      · exact List.mem_append_left _ (hfirst k i q hwho.symm hq hkind)
      · exact List.mem_append_right _ (hrest k i q hin hq hkind)

/-! The host's completions (R66, R67). -/

section
variable {id host size : Nat} {r w : Bool} {h : HostReq} (hid : tget none s.hostReqs id = some h) (hpri : h.pri = false)
  (hqueued : h.queued = false) (hdenied : h.denied = [])
include hid hpri hqueued hdenied

/-- A completion that an invalidation overtook is not used (R68, R69). -/
theorem exec_completion_stale (hstale : h.stale = true) (u : Bool) :
    exec (.atsTranslationCompletion id host size r w u) s = .next ((s.setHostReq id none).tellAll h.waiting) := by
  change execAtsTranslationCompletion id host size r w u s = _
  simp [execAtsTranslationCompletion, hid, hpri, hqueued, hdenied, hstale]

/-- A host that does not support the request refuses it. -/
theorem exec_completion_unsupported (hstale : h.stale = false) : exec (.atsTranslationCompletion id host size r w true) s =
    .next ((s.setHostReq id (if h.waiting = [] then none else some { h with denied := h.waiting, waiting := [] })).tellAll h.waiting) := by
  change execAtsTranslationCompletion id host size r w true s = _
  simp [execAtsTranslationCompletion, hid, hpri, hqueued, hdenied, hstale]

/-- The slices after a completion: the entries of the page gone, its own, where it gives a permission, the newest. -/
theorem exec_completion (hstale : h.stale = false) : ∃ x,
    (r = true ∨ w = true → hostEntry h.vf h.page host size r w ∈ (tget {} x h.slice).stb) ∧
    exec (.atsTranslationCompletion id host size r w false) s = .next (
      if (if h.access = .load then r else w) = true then (({ s with slices := x } : State).setHostReq id none).tellAll h.waiting
      else ({ s with slices := x } : State).askPri id h) := by
  change ∃ x, _ ∧ execAtsTranslationCompletion id host size r w false s = _
  let v := s.modSlice h.slice fun l => { l with stb := l.stb.filter fun e => e.dev || e.vf != h.vf || !e.covers (h.page * 4096) }
  refine ⟨(if r || w then v.addStb h.part h.slice (hostEntry h.vf h.page host size r w) else v).slices, fun hrw => ?_, ?_⟩
  · have hrw : (r || w) = true := by simpa using hrw
    rw [if_pos hrw]
    change _ ∈ ((v.addStb h.part h.slice (hostEntry h.vf h.page host size r w)).slice h.slice).stb
    simp [State.addStb]
  · cases hrw : (r || w) <;>
    simp [execAtsTranslationCompletion, hid, hpri, hqueued, hdenied, hstale, hrw] <;> rfl

end

/-- A completion without the permission asked for sends a page request, where the partition has one of its 256 left (R67). -/
theorem State.askPri_sends {id : Nat} {h : HostReq}
    (hroom : (s.hostReqs.filter fun e => e.2.any fun g => g.part == h.part && g.pri).length < 256) :
    s.askPri id h = ((s.setHostReq id (some { h with pri := true, queued := false, waiting := [] })).emit
      (.priRequest (nearestPort (h.slice / 4)) (h.vf.getD 0) (Config.pasid (h.vf.getD 0)) h.page)).tellAll h.waiting := if_pos hroom

theorem State.askPri_waits {id : Nat} {h : HostReq}
    (hfull : 256 ≤ (s.hostReqs.filter fun e => e.2.any fun g => g.part == h.part && g.pri).length) :
    s.askPri id h = s.setHostReq id (some { h with queued := true }) := if_neg (Nat.not_lt.mpr hfull)

/-- No page request of any partition waits to be sent. -/
def State.noneQueued (s : State) : Prop := ∀ e ∈ s.hostReqs, e.2.any (·.queued) = false

theorem State.nextPri_none {p : Nat} (h : s.noneQueued) : s.nextPri p = s := by
  have hfind : (s.hostReqs.find? fun e => e.2.any fun g => g.part == p && g.queued) = none := by
    refine List.find?_eq_none.2 fun e he => ?_
    have hq := h e he
    cases hg : e.2 with
    | none => simp
    | some g =>
      rw [hg] at hq
      simp [show g.queued = false from hq]
  simp only [State.nextPri, hfind]

/-! Fault reports (R387): what they leave alone, and that a faulted region does not run. -/

/-- Regions change, and messages leave. -/
def Reports (s t : State) : Prop := ∃ r f a n, t = { s with regions := r, flight := f, agenda := a, seq := n }

theorem Reports.refl (s : State) : Reports s s := ⟨_, _, _, _, rfl⟩

theorem Reports.trans (h : Reports s t) (k : Reports t u) : Reports s u := by
  obtain ⟨_, _, _, _, rfl⟩ := h
  obtain ⟨_, _, _, _, rfl⟩ := k
  exact ⟨_, _, _, _, rfl⟩

theorem Reports.core (h : Reports s t) (k : Nat) : t.core k = s.core k := by
  obtain ⟨_, _, _, _, rfl⟩ := h
  rfl

theorem Reports.frame (h : Reports s t) : SameMemory s t ∧ t.ctxs = s.ctxs ∧ t.hostReqs = s.hostReqs ∧ t.cores = s.cores := by
  obtain ⟨_, _, _, _, rfl⟩ := h
  exact ⟨⟨rfl, rfl, rfl⟩, rfl, rfl, rfl⟩

/-- Messages leave, and no region changes. -/
def Flies (s t : State) : Prop := ∃ f a n, t = { s with flight := f, agenda := a, seq := n }

theorem State.launchMsg_flies (s : State) (m : Msg) : Flies s (s.launchMsg m) := by
  unfold State.launchMsg
  dsimp only
  split <;> exact ⟨_, _, _, rfl⟩

theorem State.sendReport_flies (s : State) (root : Nat) (dest : Option (Nat × Byte × Nat)) (cause vt core : Nat) (faulted : Bool)
    (va info blk : Nat) : Flies s (s.sendReport root dest cause vt core faulted va info blk) := by
  unfold State.sendReport
  dsimp only
  split <;> exact s.launchMsg_flies _

theorem State.faultRegion_reports (s : State) (k cause va info : Nat) : Reports s (s.faultRegion k cause va info) ∧
    ((s.faultRegion k cause va info).region (ctxRegion (coreCtx k))).st ≠ 0 ∧
    ∀ r, (s.region r).st ≠ 0 → ((s.faultRegion k cause va info).region r).st ≠ 0 := by
  unfold State.faultRegion
  dsimp only
  split
  case isTrue hended => exact ⟨.refl s, by simp [eq_of_beq hended], fun _ h => h⟩
  case isFalse =>
    generalize hv : (if ((s.region (ctxRegion (coreCtx k))).st == 0) = true then
      s.modRegion (ctxRegion (coreCtx k)) fun g => { g with st := 2, faultCause := cause } else s) = v
    have hmod : Reports s v ∧ (v.region (ctxRegion (coreCtx k))).st ≠ 0 ∧ ∀ r, (s.region r).st ≠ 0 → (v.region r).st ≠ 0 := by
      subst hv
      split
      case isTrue =>
        refine ⟨⟨_, _, _, _, rfl⟩, by simp, fun r hr => ?_⟩
        rw [State.modRegion_region]
        split
        · simp
        · exact hr
      case isFalse hruns => exact ⟨.refl s, by simpa using hruns, fun _ h => h⟩
    obtain ⟨f, a, n, hsent⟩ := v.sendReport_flies _ _ _ _ _ _ _ _ _
    rw [hsent]
    exact ⟨hmod.1.trans ⟨_, _, _, _, rfl⟩, hmod.2⟩

/-! Pages that come or are refused (R67, R71, R180). -/

/-- Memory and every c register are the same, and of the host's requests none is new or newly queued. -/
structure PageKept (s t : State) : Prop where
  mem : SameMemory s t
  regs (k : Nat) : (t.core k).c = (s.core k).c
  reqs : ∀ e ∈ t.hostReqs, ∃ d ∈ s.hostReqs, e.1 = d.1 ∧ e.2.any (·.queued) = d.2.any (·.queued)

theorem PageKept.refl (s : State) : PageKept s s where
  mem := ⟨rfl, rfl, rfl⟩
  regs _ := rfl
  reqs e he := ⟨e, he, rfl, rfl⟩

theorem PageKept.trans (h : PageKept s t) (k : PageKept t u) : PageKept s u where
  mem := by
    obtain ⟨hrim, htags, hhost⟩ := h.mem
    obtain ⟨krim, ktags, khost⟩ := k.mem
    exact ⟨krim.trans hrim, ktags.trans htags, khost.trans hhost⟩
  regs i := (k.regs i).trans (h.regs i)
  reqs e he := by
    obtain ⟨d, hd, hed, heq⟩ := k.reqs e he
    obtain ⟨b, hb, hdb, hdq⟩ := h.reqs d hd
    exact ⟨b, hb, hed.trans hdb, heq.trans hdq⟩

theorem PageKept.of_same (hmem : SameMemory s t) (hregs : ∀ k, (t.core k).c = (s.core k).c) (hreqs : t.hostReqs = s.hostReqs) :
    PageKept s t where
  mem := hmem
  regs := hregs
  reqs := hreqs ▸ (PageKept.refl s).reqs

theorem PageKept.noneQueued (h : PageKept s t) (hs : s.noneQueued) : t.noneQueued := by
  intro e he
  obtain ⟨d, hd, -, hq⟩ := h.reqs e he
  exact hq.trans (hs d hd)

/-- A request that has ended stays ended. -/
theorem PageKept.ended (h : PageKept s t) {id : Nat} (hs : ∀ e ∈ s.hostReqs, e.1 ≠ id) : tget none t.hostReqs id = none := by
  have gone : ∀ l : Tbl (Option HostReq), (∀ e ∈ l, e.1 ≠ id) → tget none l id = none := by
    intro l hl
    induction l with
    | nil => rfl
    | cons e l ih =>
      rw [tget, if_neg (hl e (List.mem_cons_self ..))]
      exact ih fun e he => hl e (List.mem_cons_of_mem _ he)
  refine gone _ fun e he => ?_
  obtain ⟨d, hd, hed, -⟩ := h.reqs e he
  exact hed ▸ hs d hd

/-- The outstanding request ends: nothing but its entry goes. -/
theorem State.endHostReq (s : State) (id : Nat) :
    (s.setHostReq id none).hostReqs ⊆ s.hostReqs ∧ ∀ e ∈ (s.setHostReq id none).hostReqs, e.1 ≠ id := by
  have htable : (s.setHostReq id none).hostReqs = s.hostReqs.filter fun e => e.1 ≠ id := rfl
  rw [htable]
  exact ⟨List.filter_subset_self _, fun e he => by simpa using (List.mem_filter.1 he).2⟩

theorem PageKept.forget (s : State) (f : Asker → Bool) : PageKept s (s.forget f) where
  mem := ⟨rfl, rfl, rfl⟩
  regs _ := rfl
  reqs e he := by
    obtain ⟨d, hd, hde⟩ := List.mem_filterMap.1 he
    obtain ⟨h, hh, rfl⟩ := Option.map_eq_some_iff.1 hde
    obtain ⟨b, hb, hleft⟩ := Option.bind_eq_some_iff.1 hh
    refine ⟨d, hd, rfl, ?_⟩
    dsimp only at hleft
    split at hleft
    · cases hleft
    · cases hleft
      rw [hb]
      rfl

/-- A core that waits for the page: it has a page to wait for, of the same partition and, for a host page, of the same VF. -/
theorem State.waitsFor_iff {p page : Nat} {vf : Option Nat} {k : Nat} {c : Core} : s.waitsFor p page vf (k, c) = true ↔
    s.sharesPage p vf (coreCtx k) = true ∧ ∃ w, c.waitPage = some w ∧ inPage page vf w.va = true := by
  simp [State.waitsFor, Option.any_eq_true]

/-- The page came: of every core only what it waits for changes, and those that wait for it wait no more. -/
theorem State.pageCame_core (s : State) (p page : Nat) (vf : Option Nat) (k : Nat) : (s.pageCame p page vf).core k =
    if s.waitsFor p page vf (k, s.core k) then { s.core k with waitPage := none } else s.core k := by
  have hnone : s.waitsFor p page vf (k, {}) = false := by simp [State.waitsFor]
  refine (tget_map (fun e => ?_) ?_ s.cores).trans ?_
  · split <;> rfl
  · simp [hnone]
  · rw [State.core]; split <;> rfl

theorem PageKept.pageCame (s : State) (p page : Nat) (vf : Option Nat) : PageKept s (s.pageCame p page vf) := by
  refine .of_same ⟨rfl, rfl, rfl⟩ (fun k => ?_) rfl
  rw [State.pageCame_core]
  split <;> rfl

/-! What names a context's partition and VF (R66, R323, R401) depends on its regions' places in the tree alone. -/

/-- Every region has its partition, its parent and its block as before; every VF is as before. -/
structure SameTree (s t : State) : Prop where
  part (r : Nat) : (t.region r).part = (s.region r).part
  parent (r : Nat) : (t.region r).parent = (s.region r).parent
  blk (r : Nat) : (t.region r).blk = (s.region r).blk
  vfs : t.vfs = s.vfs

theorem SameTree.refl (s : State) : SameTree s s := ⟨fun _ => rfl, fun _ => rfl, fun _ => rfl, rfl⟩

theorem SameTree.trans (h : SameTree s t) (k : SameTree t u) : SameTree s u where
  part r := (k.part r).trans (h.part r)
  parent r := (k.parent r).trans (h.parent r)
  blk r := (k.blk r).trans (h.blk r)
  vfs := k.vfs.trans h.vfs

theorem SameTree.of_regions (hr : t.regions = s.regions) (hv : t.vfs = s.vfs) : SameTree s t := by
  have same (r : Nat) : t.region r = s.region r := by rw [State.region, hr, State.region]
  exact ⟨fun r => by rw [same], fun r => by rw [same], fun r => by rw [same], hv⟩

theorem SameTree.chainOf (h : SameTree s t) (fuel r : Nat) : t.chainOf r fuel = s.chainOf r fuel := by
  induction fuel generalizing r with
  | zero => rfl
  | succ fuel ih =>
    rw [State.chainOf, State.chainOf, h.parent]
    cases (s.region r).parent with
    | none => rfl
    | some p => exact congrArg (r :: ·) (ih p)

theorem SameTree.vfOf (h : SameTree s t) (r : Nat) : t.vfOf r = s.vfOf r := by
  have hroot : t.rootOf r = s.rootOf r := by rw [State.rootOf, State.ancestors, h.chainOf, State.rootOf, State.ancestors]
  simp only [State.vfOf, hroot, h.part, h.blk, h.vfs]

theorem SameTree.sharesPage (h : SameTree s t) (p : Nat) (vf : Option Nat) (x : Nat) : t.sharesPage p vf x = s.sharesPage p vf x := by
  rw [State.sharesPage, State.ctxPart, h.part, h.vfOf, State.sharesPage, State.ctxPart]

theorem SameTree.modRegion (s : State) (i : Nat) {f : Region → Region}
    (hf : ∀ g, (f g).part = g.part ∧ (f g).parent = g.parent ∧ (f g).blk = g.blk) : SameTree s (s.modRegion i f) := by
  have kept (r : Nat) : (s.modRegion i f).region r = s.region r ∨ (s.modRegion i f).region r = f (s.region r) := by
    rw [State.modRegion_region]
    split
    · subst ‹i = r›; exact .inr rfl
    · exact .inl rfl
  refine ⟨fun r => ?_, fun r => ?_, fun r => ?_, rfl⟩
  all_goals
    obtain ⟨hpart, hparent, hblk⟩ := hf (s.region r)
    rcases kept r with h | h
  · rw [h]
  · rw [h, hpart]
  · rw [h]
  · rw [h, hparent]
  · rw [h]
  · rw [h, hblk]

/-- A fault changes a region's state and cause, not its place. -/
theorem State.faultRegion_tree (s : State) (k cause va info : Nat) : SameTree s (s.faultRegion k cause va info) := by
  unfold State.faultRegion
  dsimp only
  split
  case isTrue => exact .refl s
  case isFalse =>
    generalize hv : (if ((s.region (ctxRegion (coreCtx k))).st == 0) = true then
      s.modRegion (ctxRegion (coreCtx k)) fun g => { g with st := 2, faultCause := cause } else s) = v
    have hmod : SameTree s v := by
      subst hv
      split
      · exact .modRegion s _ fun _ => ⟨rfl, rfl, rfl⟩
      · exact .refl s
    obtain ⟨f, a, n, hsent⟩ := v.sendReport_flies _ _ _ _ _ _ _ _ _
    rw [hsent]
    exact hmod.trans (.of_regions rfl rfl)

/-! The segments that wait for a refused page (R67, R71). -/

/-- A core whose segment waits no more and does not restart. -/
def Core.hold (c : Core) : Core := { c with waitPage := none, killed := .held }

/-- The segment of core k, which waits for a page that was refused, is reported and not requeued. -/
def State.denyWait (s : State) (k : Nat) : State :=
  match (s.core k).waitPage with
  | some w => (s.modCore k Core.hold).faultRegion k Cause.pageFault.code w.va (pfInfo .hostdeny w.acc)
  | none => s

/-- The head of a copy queue, which waits for a refused page at an address, faults. -/
def State.denyChunk (s : State) (e : Nat × Nat × Nat) : State :=
  (s.setHead e.1 e.2.1 fun c => { c with waitPage := none }).copyFault e.1 e.2.1 0 FaultKind.hostdeny.code e.2.2

theorem State.pageDenied_eq (s : State) (p page : Nat) (vf : Option Nat) : s.pageDenied p page vf =
    let v := ((s.cores.filter (s.waitsFor p page vf)).map (·.1)).foldl State.denyWait (s.refuseReplies p page vf)
    (v.chunksFor p page vf).foldl State.denyChunk v := rfl

/-- Of each core only what it waits for, and whether it restarts, may change; copy queues do not. -/
structure WaitsDenied (s t : State) : Prop where
  kept : PageKept s t
  tree : SameTree s t
  ctxs : t.ctxs = s.ctxs
  faulted (r : Nat) : (s.region r).st ≠ 0 → (t.region r).st ≠ 0

theorem WaitsDenied.refl (s : State) : WaitsDenied s s := ⟨.refl s, .refl s, rfl, fun _ h => h⟩

theorem WaitsDenied.trans (h : WaitsDenied s t) (k : WaitsDenied t u) : WaitsDenied s u where
  kept := h.kept.trans k.kept
  tree := h.tree.trans k.tree
  ctxs := k.ctxs.trans h.ctxs
  faulted r hr := k.faulted r (h.faulted r hr)

theorem State.denyWait_none {k : Nat} (h : (s.core k).waitPage = none) : s.denyWait k = s := by
  simp only [State.denyWait, h]

/-- A segment that waits is held, and its region faulted; no other core changes. -/
theorem State.denyWait_some {k : Nat} {w : PageWait} (h : (s.core k).waitPage = some w) : WaitsDenied s (s.denyWait k) ∧
    (s.denyWait k).core k = (s.core k).hold ∧
    ((s.denyWait k).region (ctxRegion (coreCtx k))).st ≠ 0 ∧ ∀ j, j ≠ k → (s.denyWait k).core j = s.core j := by
  simp only [State.denyWait, h]
  have htree := State.faultRegion_tree (s.modCore k Core.hold) k Cause.pageFault.code w.va (pfInfo .hostdeny w.acc)
  obtain ⟨hreports, hst, hfaulted⟩ := State.faultRegion_reports (s.modCore k Core.hold) k Cause.pageFault.code w.va (pfInfo .hostdeny w.acc)
  generalize (s.modCore k Core.hold).faultRegion k Cause.pageFault.code w.va (pfInfo .hostdeny w.acc) = t at htree hreports hst hfaulted
  obtain ⟨hmem, hctxs, hreqs, -⟩ := hreports.frame
  have hcore (j : Nat) : t.core j = if k = j then (s.core k).hold else s.core j := by rw [hreports.core, State.modCore_core]
  have hsame : SameTree s t := .trans (t := s.modCore k Core.hold) (.of_regions rfl rfl) htree
  refine ⟨⟨.of_same hmem (fun j => ?_) hreqs, hsame, hctxs, hfaulted⟩, ?_, hst, fun j hj => ?_⟩
  · rw [hcore]
    split
    · subst ‹k = j›; rfl
    · rfl
  · rw [hcore, if_pos rfl]
  · rw [hcore, if_neg (Ne.symm hj)]

theorem State.denyWait_denied (s : State) (k : Nat) : WaitsDenied s (s.denyWait k) := by
  cases h : (s.core k).waitPage with
  | none => rw [State.denyWait_none h]; exact .refl s
  | some w => exact (State.denyWait_some h).1

/-- A core that waited and was told: it waits no more, does not restart, and its region is faulted. -/
def State.Denied (s : State) (k : Nat) : Prop :=
  (s.core k).waitPage = none ∧ (s.core k).killed = .held ∧ (s.region (ctxRegion (coreCtx k))).st ≠ 0

theorem State.Denied.denyWait {k : Nat} (h : s.Denied k) (j : Nat) : (s.denyWait j).Denied k := by
  obtain ⟨hwait, hkilled, hst⟩ := h
  by_cases hj : j = k
  · subst hj
    rw [State.denyWait_none hwait]
    exact ⟨hwait, hkilled, hst⟩
  · cases hw : (s.core j).waitPage with
    | none => rw [State.denyWait_none hw]; exact ⟨hwait, hkilled, hst⟩
    | some w =>
      obtain ⟨hdenied, -, -, hother⟩ := State.denyWait_some hw
      rw [State.Denied, hother k (Ne.symm hj)]
      exact ⟨hwait, hkilled, hdenied.faulted _ hst⟩

/-- Every listed core that waits is told. -/
theorem State.foldl_denyWait {k : Nat} {w : PageWait} (l : List Nat) (hk : k ∈ l) (hwait : (s.core k).waitPage = some w) :
    (l.foldl State.denyWait s).Denied k := by
  induction l generalizing s with
  | nil => cases hk
  | cons j l ih =>
    rw [List.foldl_cons]
    by_cases hj : j = k
    · subst hj
      obtain ⟨-, hcore, hst, -⟩ := State.denyWait_some hwait
      have hnow : (s.denyWait j).Denied j := ⟨congrArg Core.waitPage hcore, congrArg Core.killed hcore, hst⟩
      exact List.foldlRecOn (motive := fun v : State => v.Denied j) _ _ hnow fun v hv i _ => hv.denyWait i
    · refine ih ((List.mem_cons.1 hk).resolve_left (Ne.symm hj)) ?_
      cases hw : (s.core j).waitPage with
      | none => rw [State.denyWait_none hw]; exact hwait
      | some w' => rw [(State.denyWait_some hw).2.2.2 k (Ne.symm hj)]; exact hwait

/-! The chunks that wait for a refused page (R67, R180). -/

/-- Copy queue q of context x. -/
def State.queueAt (s : State) (x q : Nat) : CopyQ := tget {} (s.ctx x).copyq q

theorem State.modQueue_queueAt (s : State) (x q y r : Nat) (f : CopyQ → CopyQ) :
    (s.modQueue x q f).queueAt y r = if x = y ∧ q = r then f (s.queueAt x q) else s.queueAt y r := by
  rw [State.modQueue, State.queueAt, State.modCtx_ctx]
  by_cases hx : x = y
  · subst hx
    rw [if_pos rfl, tget_tput]
    by_cases hq : q = r
    · rw [if_pos hq, if_pos ⟨rfl, hq⟩]; rfl
    · rw [if_neg hq, if_neg (fun h => hq h.2)]; rfl
  · rw [if_neg hx, if_neg (fun h => hx h.1)]; rfl

/-- Of each core only its pending traps may change; no region does. A copy queue that has commands keeps one, and one that has faulted
stays so. -/
structure ChunksDenied (s t : State) : Prop where
  kept : PageKept s t
  core (k : Nat) : (t.core k).waitPage = (s.core k).waitPage ∧ (t.core k).killed = (s.core k).killed
  regions : t.regions = s.regions
  cmds (x q : Nat) : (s.queueAt x q).cmds ≠ [] → (t.queueAt x q).cmds ≠ []
  faulted (x q : Nat) : (s.queueAt x q).faulted = true → (t.queueAt x q).faulted = true

theorem ChunksDenied.refl (s : State) : ChunksDenied s s := ⟨.refl s, fun _ => ⟨rfl, rfl⟩, rfl, fun _ _ h => h, fun _ _ h => h⟩

theorem ChunksDenied.trans (h : ChunksDenied s t) (k : ChunksDenied t u) : ChunksDenied s u where
  kept := h.kept.trans k.kept
  core i := ⟨(k.core i).1.trans (h.core i).1, (k.core i).2.trans (h.core i).2⟩
  regions := k.regions.trans h.regions
  cmds x q hs := k.cmds x q (h.cmds x q hs)
  faulted x q hs := k.faulted x q (h.faulted x q hs)

theorem ChunksDenied.freeEntries (s : State) (es : List (Nat × Nat)) : ChunksDenied s (s.freeEntries es) := by
  refine List.foldlRecOn (motive := ChunksDenied s) es State.freeEntry (.refl s) fun v hv e _ => hv.trans ?_
  exact ⟨.of_same ⟨rfl, rfl, rfl⟩ (fun _ => rfl) rfl, fun _ => ⟨rfl, rfl⟩, rfl, fun _ _ h => h, fun _ _ h => h⟩

theorem ChunksDenied.forget (s : State) (f : Asker → Bool) : ChunksDenied s (s.forget f) :=
  ⟨.forget s f, fun _ => ⟨rfl, rfl⟩, rfl, fun _ _ h => h, fun _ _ h => h⟩

theorem ChunksDenied.modQueue (s : State) (x q : Nat) {f : CopyQ → CopyQ} (hcmds : ∀ c : CopyQ, c.cmds ≠ [] → (f c).cmds ≠ [])
    (hfaulted : ∀ c : CopyQ, c.faulted = true → (f c).faulted = true) : ChunksDenied s (s.modQueue x q f) where
  kept := .of_same ⟨rfl, rfl, rfl⟩ (fun _ => rfl) rfl
  core _ := ⟨rfl, rfl⟩
  regions := rfl
  cmds y r h := by
    rw [State.modQueue_queueAt]
    split
    · obtain ⟨rfl, rfl⟩ := ‹x = y ∧ q = r›; exact hcmds _ h
    · exact h
  faulted y r h := by
    rw [State.modQueue_queueAt]
    split
    · obtain ⟨rfl, rfl⟩ := ‹x = y ∧ q = r›; exact hfaulted _ h
    · exact h

theorem ChunksDenied.setHead (s : State) (x q : Nat) (f : CopyCmd → CopyCmd) : ChunksDenied s (s.setHead x q f) := by
  refine .modQueue s x q (fun c hc => ?_) fun _ h => h
  cases hcmds : c.cmds with
  | nil => exact absurd hcmds hc
  | cons => simp

theorem ChunksDenied.pends (s : State) (k : Nat) (p : Pending) :
    ChunksDenied s (s.modCore k fun c => { c with pend := c.pend ++ [p] }) := by
  have hcore (i : Nat) : ∃ ps, (s.modCore k fun c => { c with pend := c.pend ++ [p] }).core i = { s.core i with pend := ps } := by
    rw [State.modCore_core]
    split
    · subst ‹k = i›; exact ⟨_, rfl⟩
    · exact ⟨_, rfl⟩
  refine ⟨.of_same ⟨rfl, rfl, rfl⟩ (fun i => ?_) rfl, fun i => ?_, rfl, fun _ _ h => h, fun _ _ h => h⟩
  · obtain ⟨ps, hps⟩ := hcore i
    rw [hps]
  · obtain ⟨ps, hps⟩ := hcore i
    rw [hps]
    exact ⟨rfl, rfl⟩

/-- A copy fault stops its queue, where that has a command. -/
theorem State.copyFault_denied (s : State) (x q reason kind va : Nat) : ChunksDenied s (s.copyFault x q reason kind va) ∧
    ((s.queueAt x q).cmds ≠ [] → ((s.copyFault x q reason kind va).queueAt x q).faulted = true) := by
  cases hhead : s.headCopy x q with
  | none =>
    have hempty : (s.queueAt x q).cmds = [] := List.head?_eq_none_iff.1 hhead
    simp only [State.copyFault, hhead]
    exact ⟨.refl s, fun h => absurd hempty h⟩
  | some c =>
    simp only [State.copyFault, hhead]
    have hstop (v : State) : ((v.modQueue x q fun t => { t with faulted := true }).queueAt x q).faulted = true := by
      rw [State.modQueue_queueAt, if_pos ⟨rfl, rfl⟩]
    have hfreed := (ChunksDenied.freeEntries s c.entry.toList).trans (.forget _ (· == .copy x q))
    have hhead := hfreed.trans (.setHead _ x q fun c => { c with entry := none })
    have hstopped := hhead.trans (.modQueue _ x q (f := fun t => { t with faulted := true }) (fun _ h => h) fun _ _ => rfl)
    exact ⟨hstopped.trans (.pends _ (coreKey x c.compute) _), fun _ => hstop _⟩

/-- A chunk that is told: its queue faults. -/
theorem State.denyChunk_denied (s : State) (e : Nat × Nat × Nat) : ChunksDenied s (s.denyChunk e) ∧
    ((s.queueAt e.1 e.2.1).cmds ≠ [] → ((s.denyChunk e).queueAt e.1 e.2.1).faulted = true) := by
  have hhead := ChunksDenied.setHead s e.1 e.2.1 fun c => { c with waitPage := none }
  obtain ⟨hdenied, hfaulted⟩ := State.copyFault_denied (s.setHead e.1 e.2.1 fun c => { c with waitPage := none }) e.1 e.2.1 0
    FaultKind.hostdeny.code e.2.2
  exact ⟨hhead.trans hdenied, fun h => hfaulted (hhead.cmds _ _ h)⟩

theorem State.foldl_denyChunk (l : List (Nat × Nat × Nat)) (s : State) : ChunksDenied s (l.foldl State.denyChunk s) ∧
    ∀ x q va, (x, q, va) ∈ l → (s.queueAt x q).cmds ≠ [] → ((l.foldl State.denyChunk s).queueAt x q).faulted = true := by
  induction l generalizing s with
  | nil => exact ⟨.refl s, fun _ _ _ h => by cases h⟩
  | cons e l ih =>
    obtain ⟨hfirst, hfaulted⟩ := s.denyChunk_denied e
    obtain ⟨hrest, hmem⟩ := ih (s.denyChunk e)
    refine ⟨hfirst.trans hrest, fun x q va hin hcmds => ?_⟩
    rcases List.mem_cons.1 hin with rfl | hin
    · exact hrest.faulted x q (hfaulted hcmds)
    · exact hmem x q va hin (hfirst.cmds x q hcmds)

/-! The refusal as a whole. -/

/-- A key that does not read as the default is listed. -/
theorem mem_of_tget {α : Type} {d v : α} {k : Nat} {t : Tbl α} (h : tget d t k = v) (hv : v ≠ d) : (k, v) ∈ t := by
  induction t with
  | nil => exact absurd h.symm hv
  | cons e t ih =>
    obtain ⟨j, x⟩ := e
    rw [tget] at h
    split at h
    · subst ‹j = k›; subst h; exact List.mem_cons_self ..
    · exact List.mem_cons_of_mem _ (ih h)

theorem State.mem_chunksFor {p page x q va : Nat} {vf : Option Nat} {c : CopyCmd} {cs : List CopyCmd} (hcmds : (s.queueAt x q).cmds = c :: cs)
    (hwait : c.waitPage = some va) (hshares : s.sharesPage p vf x = true) (hpage : inPage page vf va = true) :
    (x, q, va) ∈ s.chunksFor p page vf := by
  have hqueue : (q, s.queueAt x q) ∈ (s.ctx x).copyq := mem_of_tget rfl fun h => by rw [h] at hcmds; cases hcmds
  have hctx : (x, s.ctx x) ∈ s.ctxs := mem_of_tget rfl fun h => by rw [h] at hqueue; cases hqueue
  refine List.mem_flatMap.2 ⟨_, hctx, ?_⟩
  simp only [hshares, Bool.not_true, Bool.false_eq_true, if_false]
  exact List.mem_filterMap.2 ⟨_, hqueue, by simp [hcmds, hwait, hpage]⟩

/-- A core whose replies on their way report the page as refused. -/
def Core.refusePage (page : Nat) (vf : Option Nat) (c : Core) : Core :=
  { c with reqs := c.reqs.map fun q => (q.1, q.2.map fun r => { r with done := r.done.map (·.refusePage page vf) }) }

theorem State.refuseReplies_core (s : State) (p page : Nat) (vf : Option Nat) (k : Nat) : (s.refuseReplies p page vf).core k =
    if s.sharesPage p vf (coreCtx k) then (s.core k).refusePage page vf else s.core k := by
  refine (tget_map (fun e => ?_) ?_ s.cores).trans ?_
  · split <;> rfl
  · dsimp only; split <;> rfl
  · dsimp only; split <;> rfl

theorem WaitsDenied.refuseReplies (s : State) (p page : Nat) (vf : Option Nat) : WaitsDenied s (s.refuseReplies p page vf) := by
  refine ⟨.of_same ⟨rfl, rfl, rfl⟩ (fun k => ?_) rfl, .of_regions rfl rfl, rfl, fun _ h => h⟩
  rw [State.refuseReplies_core]
  split <;> rfl

/-- A refused page: memory and registers are as before, every segment that waited for it is told, and every queue whose head did faults. -/
theorem State.pageDenied_tells (s : State) (p page : Nat) (vf : Option Nat) : PageKept s (s.pageDenied p page vf) ∧
    (∀ k w, (s.core k).waitPage = some w → s.waitsFor p page vf (k, s.core k) = true → (s.pageDenied p page vf).Denied k) ∧
    ∀ x q c cs va, (s.queueAt x q).cmds = c :: cs → c.waitPage = some va → s.sharesPage p vf x = true → inPage page vf va = true →
      ((s.pageDenied p page vf).queueAt x q).faulted = true := by
  rw [State.pageDenied_eq]
  generalize hks : (s.cores.filter (s.waitsFor p page vf)).map (·.1) = ks
  have hwaits : WaitsDenied s (ks.foldl State.denyWait (s.refuseReplies p page vf)) := by
    refine (WaitsDenied.refuseReplies s p page vf).trans ?_
    exact List.foldlRecOn (motive := fun v : State => WaitsDenied (s.refuseReplies p page vf) v) ks State.denyWait (.refl _)
      fun v hv k _ => hv.trans (v.denyWait_denied k)
  have htold : ∀ k w, (s.core k).waitPage = some w → s.waitsFor p page vf (k, s.core k) = true →
      (ks.foldl State.denyWait (s.refuseReplies p page vf)).Denied k := by
    intro k w hw hk
    have hsame : ((s.refuseReplies p page vf).core k).waitPage = (s.core k).waitPage := by
      rw [State.refuseReplies_core]
      split <;> rfl
    have hmem : (k, s.core k) ∈ s.cores := mem_of_tget rfl fun h => by rw [h] at hw; cases hw
    refine State.foldl_denyWait (w := w) ks ?_ (hsame.trans hw)
    exact hks ▸ List.mem_map.2 ⟨_, List.mem_filter.2 ⟨hmem, hk⟩, rfl⟩
  generalize ks.foldl State.denyWait (s.refuseReplies p page vf) = v at hwaits htold
  obtain ⟨hchunks, hfaulted⟩ := State.foldl_denyChunk (v.chunksFor p page vf) v
  refine ⟨hwaits.kept.trans hchunks.kept, fun k w hw hk => ?_, fun x q c cs va hcmds hwait hshares hpage => ?_⟩
  · obtain ⟨hwait, hkilled, hst⟩ := htold k w hw hk
    refine ⟨(hchunks.core k).1.trans hwait, (hchunks.core k).2.trans hkilled, ?_⟩
    rw [State.region, hchunks.regions]
    exact hst
  · have hqueue : (v.queueAt x q).cmds = c :: cs := by rw [State.queueAt, State.ctx, hwaits.ctxs]; exact hcmds
    refine hfaulted x q va ?_ (by rw [hqueue]; exact List.cons_ne_nil _ _)
    exact State.mem_chunksFor hqueue hwait ((hwaits.tree.sharesPage p vf x).trans hshares) hpage

/-! Invalidations (R68, R69). -/

/-- A translation is left in a slice of the partition where f does not hold of it; in other slices all are. -/
theorem State.mem_dropStb {l : List Nat} {f : StbEntry → Bool} {j : Nat} {e : StbEntry} :
    e ∈ ((l.foldl (fun s i => s.modSlice i fun l => { l with stb := l.stb.filter fun e => !f e }) s).slice j).stb ↔
      e ∈ (s.slice j).stb ∧ (j ∈ l → f e = false) := by
  induction l generalizing s with
  | nil => simp
  | cons i l ih =>
    rw [List.foldl_cons, ih, State.modSlice_slice]
    by_cases hij : i = j
    · subst hij
      simp +contextual [and_assoc]
    · simp [hij, Ne.symm hij]

theorem State.staleReqs_get {n : Inval} {i : Nat} {h : HostReq} (hreq : tget none s.hostReqs i = some h) (hpart : h.part = n.part)
    (hpri : h.pri = false) (hdenied : h.denied = []) (hcovers : n.covers (h.page * 4096) 4096 false = true) :
    tget none (s.staleReqs n).hostReqs i = some { h with stale := true } := by
  refine (tget_map (fun _ => ?_) ?_ s.hostReqs).trans ?_
  · rfl
  · rfl
  · simp [hreq, hpart, hpri, hdenied, hcovers]

/-- The entries an invalidation covers are dropped once no notice uses one, and requests sent before are stale (R68). -/
theorem exec_invalidationComplete_drops {id : Nat} {n : Inval} (hinval : tget none s.invals id = some n) (hdropped : n.dropped = false)
    (hnotice : s.noticeUnder n = false) : ∃ chunks, exec (.invalidationComplete id) s =
      .next ((((s.dropStb n.part n.coversEntry).staleReqs n).setInval id
        (some { n with dropped := true, reqs := s.servedReqs n.part, chunks := chunks })).later (.invalidationComplete id)) := by
  change ∃ _, execInvalidationComplete id s = _
  simp only [execInvalidationComplete, hinval, hdropped, hnotice, Bool.not_false, if_true, Bool.false_eq_true, if_false]
  exact ⟨_, rfl⟩

theorem exec_invalidationComplete_waits {id : Nat} {n : Inval} (hinval : tget none s.invals id = some n) (hdropped : n.dropped = false)
    (hnotice : s.noticeUnder n = true) : exec (.invalidationComplete id) s = .next (s.later (.invalidationComplete id)) := by
  change execInvalidationComplete id s = _
  simp [execInvalidationComplete, hinval, hdropped, hnotice]

theorem exec_invalidationComplete_ends {id : Nat} {n : Inval} (hinval : tget none s.invals id = some n) (hdropped : n.dropped = true)
    (hreqs : n.reqs = []) (hchunks : n.chunks = []) :
    exec (.invalidationComplete id) s = .next ((s.setInval id none).emit (.invalDone id)) := by
  change execInvalidationComplete id s = _
  simp [execInvalidationComplete, hinval, hdropped, hreqs, hchunks]

/-! What the physical function writes (R72, R75, R77, R78). -/

/-- A write by the physical function that may be made, its traffic with it. -/
theorem exec_writeTableEntry {p pa : Nat} {v : W64} (hon : (s.part p).enabled = true) (halign : pa % 8 = 0)
    (hin : (s.part p).inside pa (pa + 8) = true) : exec (.writeTableEntry p pa v) s =
      .next ((((s.rimWrite (s.part p) pa 8 v.toNat).clearTags (s.part p) pa 8).dropLine p pa).rimTouch p none true pa 8) :=
  congrArg Host.Outcome.next (if_neg (by simp [hon, halign, hin]))

theorem exec_writeTableEntry_refused {p pa : Nat} {v : W64}
    (h : (s.part p).enabled = false ∨ pa % 8 ≠ 0 ∨ (s.part p).inside pa (pa + 8) = false) :
    exec (.writeTableEntry p pa v) s = .next (s.emit (.pfRefused p)) :=
  congrArg Host.Outcome.next (if_pos (by rcases h with h | h | h <;> simp [h]))

theorem State.dropLine_slices (s : State) (p pa : Nat) : ∃ x, s.dropLine p pa = { s with slices := x } := foldl_modSlice _ _ _ s

theorem State.refreshLines_slices (s : State) (p pa n : Nat) : ∃ x, s.refreshLines p pa n = { s with slices := x } := foldl_modSlice _ _ _ s

/-- The slices hold nothing of rim memory any more, and of the partition its allocation is what the write says (R75). -/
theorem State.setRimpart_eq (s : State) (p : Nat) (v : W64) (pcs : List Nat) : ∃ x c ps,
    s.setRimpart p v pcs = { s with slices := x, chans := c, parts := ps } ∧ (tget {} ps p).pclist = pcs ∧ (tget {} ps p).base = rimBase v ∧
      (tget {} ps p).pccount = rimCount v ∧ (tget {} ps p).rimEn = rimOn v := by
  obtain ⟨x, hx⟩ : ∃ x, s.clearCaches p = { s with slices := x } := foldl_modSlice _ _ _ s
  have hparts := State.modPart_part_same { s with slices := x } p fun q =>
    { q with base := rimBase v, pccount := rimCount v, rimEn := rimOn v, pclist := pcs }
  generalize hw : ({ s with slices := x } : State).modPart p (fun q =>
    { q with base := rimBase v, pccount := rimCount v, rimEn := rimOn v, pclist := pcs }) = w at hparts
  have hset : ∃ c, s.setRimpart p v pcs = { s with slices := x, chans := c, parts := w.parts } := by
    unfold State.setRimpart
    rw [hx, hw]
    subst hw
    dsimp only
    split
    · refine List.foldlRecOn (motive := fun v : State => ∃ c, v = { s with slices := x, chans := c, parts := _ }) _ _ ⟨_, rfl⟩ ?_
      rintro _ ⟨c, rfl⟩ _ _
      exact ⟨_, rfl⟩
    · exact ⟨_, rfl⟩
  obtain ⟨c, hc⟩ := hset
  refine ⟨x, c, w.parts, hc, ?_⟩
  change (w.part p).pclist = _ ∧ (w.part p).base = _ ∧ (w.part p).pccount = _ ∧ (w.part p).rimEn = _
  rw [hparts]
  exact ⟨rfl, rfl, rfl, rfl⟩

theorem State.release_eq (s : State) (p : Nat) (cls chans : List Nat) :
    ∃ d a n, s.release p cls chans = { s with drains := d, agenda := a, seq := n } := by
  unfold State.release
  split <;> exact ⟨_, _, _, rfl⟩

theorem exec_rimpartWrite {p : Nat} {v : W64} {pcs : List Nat} (hfailed : s.failed = false) (hstopped : s.allStopped p = true)
    (hok : s.rimpartOk p v pcs = true)
    (hframes : (!bitAt v 63 || ((s.part p).swap ++ (s.part p).shadow).all (frameOk (rimpartOf v pcs))) = true) :
    ∃ chans, exec (.rimpartWrite p v pcs) s = .next ((s.setRimpart p v pcs).release p [] chans) :=
  ⟨_, congrArg Host.Outcome.next (if_neg (by
    cases hon : bitAt v 63 with
    | false => simp [hfailed, hstopped, hok, rimOn, hon]
    | true => simpa [hfailed, hstopped, hok, rimOn, hon] using hframes))⟩

theorem exec_rimpartWrite_refused {p : Nat} {v : W64} {pcs : List Nat} (h : s.failed = true ∨ s.allStopped p = false ∨
    s.rimpartOk p v pcs = false ∨ (!bitAt v 63 || ((s.part p).swap ++ (s.part p).shadow).all (frameOk (rimpartOf v pcs))) = false) :
    exec (.rimpartWrite p v pcs) s = .next (s.emit (.pfRefused p)) :=
  congrArg Host.Outcome.next (if_pos (by
    rcases h with h | h | h | h
    · simp [h]
    · simp [h]
    · simp [h]
    · rw [Bool.or_eq_false_iff, Bool.not_eq_false'] at h
      simp [rimOn, h.1, h.2]))

/-- Codes of lines covered whole are renewed. -/
theorem foldl_poison {α : Type} (f : List (Nat × Bool) → α → List (Nat × Bool)) (c : α → Prop) [DecidablePred c] (l : List α)
    (s : State) :
    ∃ z, l.foldl (fun s a => if c a then { s with poison := f s.poison a } else s) s = { s with poison := z } := by
  refine List.foldlRecOn (motive := fun v : State => ∃ z, v = { s with poison := z }) _ _ ⟨_, rfl⟩ ?_
  rintro _ ⟨z, rfl⟩ a _
  dsimp only
  split <;> exact ⟨_, rfl⟩

/-- The bytes and tags of a write by the physical function that may be made (R78). -/
theorem exec_physicalFunctionWrite {p pa : Nat} {d : PfData} (hon : (s.part p).enabled = true) (hstopped : s.allStopped p = true)
    (hin : (s.part p).inside pa (pa + d.bytes.length) = true) : ∃ x z t, exec (.physicalFunctionWrite p pa d) s = .next t ∧ Queues { s with
      rim := rimPut (s.part p) s.rim pa d.bytes.length (leNat d.bytes)
      rimTags := (s.putTags (s.part p) pa d.bytes.length d.tags).rimTags
      slices := x, poison := z } t := by
  let v := (s.rimWrite (s.part p) pa d.bytes.length (leNat d.bytes)).putTags (s.part p) pa d.bytes.length d.tags
  obtain ⟨x, hx⟩ := v.refreshLines_slices p pa d.bytes.length
  obtain ⟨z, hz⟩ := foldl_poison (fun m l => tput false ((s.part p).cell (64 * l) / 64) false m)
    (fun l => pa ≤ 64 * l ∧ 64 * l + 64 ≤ pa + d.bytes.length)
    ((List.range ((pa + d.bytes.length + 63) / 64 - pa / 64)).map (pa / 64 + ·)) (v.refreshLines p pa d.bytes.length)
  refine ⟨x, z, _, congrArg Host.Outcome.next (if_neg (by simp [hon, hstopped, hin])), ?_⟩
  dsimp only
  rw [hz, hx]
  exact State.rimTouch_queues _ _ _ _ _ _

theorem exec_physicalFunctionWrite_refused {p pa : Nat} {d : PfData}
    (h : (s.part p).enabled = false ∨ s.allStopped p = false ∨ (s.part p).inside pa (pa + d.bytes.length) = false) :
    exec (.physicalFunctionWrite p pa d) s = .next (s.emit (.pfRefused p)) :=
  congrArg Host.Outcome.next (if_pos (by rcases h with h | h | h <;> simp [h]))

/-- A channel that no enabled partition holds is zeroed (R77, R82). -/
theorem exec_pseudoChannelZero {pc : Nat} (hlt : pc < 12288) (hfree : s.chanTaken 121 pc = false) :
    exec (.pseudoChannelZero pc) s = .next ((s.zeroCells (pc * 2 ^ 28) ((pc + 1) * 2 ^ 28)).modChan pc fun _ => {}) :=
  congrArg Host.Outcome.next (if_neg (by simp [hlt, hfree]))

theorem exec_pseudoChannelZero_refused {pc : Nat} (h : 12288 ≤ pc ∨ s.chanTaken 121 pc = true) :
    exec (.pseudoChannelZero pc) s = .next (s.emit (.pfRefused pc)) :=
  congrArg Host.Outcome.next (if_pos (by rcases h with h | h <;> simp [h]))

/-! The commands of a channel (R81 to R83). -/

theorem Reports.foldl {α : Type} {f : State → α → State} (hf : ∀ v a, Reports v (f v a)) (l : List α) (s : State) :
    Reports s (l.foldl f s) :=
  List.foldlRecOn (motive := Reports s) l f (.refl s) fun v hv a _ => hv.trans (hf v a)

theorem Flies.reports (h : Flies s t) : Reports s t := by
  obtain ⟨_, _, _, rfl⟩ := h
  exact ⟨_, _, _, _, rfl⟩

theorem State.debitOcc_reports (s : State) (r n : Nat) : Reports s (s.debitOcc r n) := Reports.foldl (fun _ _ => ⟨_, _, _, _, rfl⟩) _ s

theorem State.noteBudgets_reports (s : State) : Reports s s.noteBudgets := by
  refine Reports.foldl (fun v e => ?_) _ s
  have hmod (f : Region → Region) : Reports v (v.modRegion e.1 f) := ⟨_, _, _, _, rfl⟩
  dsimp only
  split
  · split
    · exact (hmod _).trans (State.sendReport_flies _ _ _ _ _ _ _ _ _ _).reports
    · exact hmod _
  · split
    · exact hmod _
    · exact .refl v

/-- Units are charged to a region: its partition's RIMOCC counts them (R83); of the partitions nothing else that it counts by is touched, and no
channel, core or byte of memory. -/
theorem State.chargeUnits_some (s : State) (pc n r : Nat) : ∃ ps, Reports { s with parts := ps } (s.chargeUnits pc n (some r)) ∧
    (tget {} ps (s.region r).part).rimocc = min (2 ^ 64 - 1) ((s.part (s.region r).part).rimocc + n) := by
  let busy (e : Nat × Partition) : Nat × Partition := if e.2.enabled && e.2.pclist.any fun c => c / 256 == pc / 256 then
    (e.1, { e.2 with ctr := { e.2.ctr with stackBusy := e.2.ctr.stackBusy + n } }) else e
  let v : State := { s with parts := s.parts.map busy }
  have hkept (p : Nat) : (v.part p).rimocc = (s.part p).rimocc := by
    have hpart : v.part p = (busy (p, s.part p)).2 := by
      refine tget_map (fun e => ?_) ?_ s.parts
      · simp only [busy]; split <;> rfl
      · rfl
    rw [hpart]
    simp only [busy]
    split <;> rfl
  let w := v.modPart (s.region r).part fun q => { q with rimocc := min (2 ^ 64 - 1) (q.rimocc + n) }
  refine ⟨w.parts, (w.debitOcc_reports r n).trans (State.noteBudgets_reports _), ?_⟩
  change (w.part (s.region r).part).rimocc = _
  rw [State.modPart_part_same, ← hkept]

theorem State.chargeUnits_aside (s : State) (pc n : Nat) (reg : Option Nat) : ∃ ps, Reports { s with parts := ps } (s.chargeUnits pc n reg) := by
  cases reg with
  | none => exact ⟨_, .refl _⟩
  | some r =>
    obtain ⟨ps, hreports, -⟩ := s.chargeUnits_some pc n r
    exact ⟨ps, hreports⟩

/-! Page requests answered (R67). -/

theorem exec_prgResponse {id : Nat} {h : HostReq} (hid : tget none s.hostReqs id = some h) (hpri : h.pri = true) (hnone : s.noneQueued) (ok : Bool) :
    exec (.prgResponse id ok) s = .next (if ok then (s.setHostReq id none).pageCame h.part h.page h.vf
      else (s.setHostReq id none).pageDenied h.part h.page h.vf) := by
  have hleft : (s.setHostReq id none).noneQueued := fun e he => hnone e ((s.endHostReq id).1 he)
  change execPrgResponse id ok s = _
  simp only [execPrgResponse, hid, hpri, Bool.not_true, Bool.false_eq_true, if_false]
  cases ok with
  | true => exact congrArg Host.Outcome.next (State.nextPri_none ((PageKept.pageCame ..).noneQueued hleft))
  | false => exact congrArg Host.Outcome.next (State.nextPri_none ((State.pageDenied_tells ..).1.noneQueued hleft))

theorem PageKept.endHostReq (s : State) (id : Nat) : PageKept s (s.setHostReq id none) :=
  ⟨⟨rfl, rfl, rfl⟩, fun _ => rfl, fun e he => ⟨e, (s.endHostReq id).1 he, rfl, rfl⟩⟩

theorem inPage_host {page va : Nat} {vf : Option Nat} (hvf : vf.isSome = true) (hhalf : devHalf va = false) (hpage : va / 4096 = page) :
    inPage page vf va = true := by
  obtain ⟨v, rfl⟩ := Option.isSome_iff_exists.1 hvf
  simp [inPage, hhalf, hostPage, hpage]

theorem inPage_dev {va w : Nat} (hhalf : devHalf w = true) (hpage : w / 65536 = va / 65536) : inPage (va / 65536) none w = true := by
  simp [inPage, hhalf, hpage]

theorem State.sharesPage_host {p x : Nat} {vf : Option Nat} (hpart : s.ctxPart x = p) (hvf : s.vfOf (ctxRegion x) = vf) :
    s.sharesPage p vf x = true := by
  simp [State.sharesPage, hpart, hvf]

theorem State.sharesPage_dev {p x : Nat} (hpart : s.ctxPart x = p) : s.sharesPage p none x = true := by
  simp [State.sharesPage, hpart]

/-! The commands of a channel (R81 to R83). -/

/-- What a command did: its channel is as f leaves it, region r's partition is charged n units, and no core or byte of memory changes. -/
structure Commanded (pc n r : Nat) (f : Chan → Chan) (s t : State) : Prop where
  cores : t.cores = s.cores
  mem : SameMemory s t
  rimocc : (t.part (s.region r).part).rimocc = min (2 ^ 64 - 1) ((s.part (s.region r).part).rimocc + n)
  chan : t.chan pc = f (s.chan pc)

theorem Commanded.of_charge (s : State) (pc n r : Nat) (f : Chan → Chan) :
    Commanded pc n r f s ((s.modChan pc f).chargeUnits pc n (some r)) := by
  obtain ⟨ps, ⟨_, _, _, _, hcharged⟩, hocc⟩ := (s.modChan pc f).chargeUnits_some pc n r
  rw [hcharged]
  exact ⟨rfl, ⟨rfl, rfl, rfl⟩, hocc, State.modChan_chan_same ..⟩

theorem Commanded.post {pc n r : Nat} {f : Chan → Chan} (h : Commanded pc n r f s t) (e : Instr) : Commanded pc n r f s (t.post e) :=
  ⟨h.cores, h.mem, h.rimocc, h.chan⟩

section
variable {pc r : Nat} {q : RimReq} {qs : List RimReq} (hqueue : (s.chan pc).queue = q :: qs) (hregion : q.region = some r)
include hqueue hregion

/-- A closed row is opened (R81). -/
theorem rimCommandIssue_opens (hrow : tget none (s.chan pc).rows (bankOf q.row) = none) : ∃ t, exec (.rimCommandIssue pc) s = .next t ∧
    Commanded pc 12 r (fun c => { c with
      rows := tput none (bankOf q.row) (some { row := q.row, region := q.region, last := s.tick }) c.rows }) s t := by
  change ∃ t, Host.Outcome.next (s.rimCommand pc) = _ ∧ _
  refine ⟨_, rfl, ?_⟩
  simp only [State.rimCommand, hqueue, hrow, hregion]
  exact (Commanded.of_charge ..).post _

variable {o : OpenRow} (hrow : tget none (s.chan pc).rows (bankOf q.row) = some o)
include hrow

/-- Another open row of the bank is closed (R81). -/
theorem rimCommandIssue_precharges (hother : o.row ≠ q.row) : ∃ t, exec (.rimCommandIssue pc) s = .next t ∧
    Commanded pc 6 r (fun c => { c with rows := tput none (bankOf q.row) none c.rows }) s t := by
  change ∃ t, Host.Outcome.next (s.rimCommand pc) = _ ∧ _
  refine ⟨_, rfl, ?_⟩
  simp only [State.rimCommand, hqueue, hrow, bne_iff_ne.2 hother, if_true, hregion]
  exact (Commanded.of_charge ..).post _

variable (hsame : o.row = q.row)
include hsame

/-- The channel turns between reads and writes (R81). -/
theorem rimCommandIssue_turns (hturn : (s.chan pc).lastWrite = some (!q.write)) : ∃ t, exec (.rimCommandIssue pc) s = .next t ∧
    Commanded pc 8 r (fun c => { c with lastWrite := some q.write }) s t := by
  change ∃ t, Host.Outcome.next (s.rimCommand pc) = _ ∧ _
  refine ⟨_, rfl, ?_⟩
  simp only [State.rimCommand, hqueue, hrow, hsame, bne_self_eq_false, Bool.false_eq_true, if_false, hturn, beq_self_eq_true, if_true, hregion]
  exact (Commanded.of_charge ..).post _

/-- The burst itself: the request is served (R81). -/
theorem rimCommandIssue_serves (hturn : (s.chan pc).lastWrite ≠ some (!q.write)) : ∃ t, exec (.rimCommandIssue pc) s = .next t ∧
    Commanded pc 4 r (fun c => { c with
      queue := qs, lastWrite := some q.write, rows := tput none (bankOf q.row) (some { o with last := s.tick }) c.rows }) s t := by
  change ∃ t, Host.Outcome.next (s.rimCommand pc) = _ ∧ _
  refine ⟨_, rfl, ?_⟩
  simp only [State.rimCommand, hqueue, hrow, hsame, bne_self_eq_false, Bool.false_eq_true, if_false, beq_eq_false_iff_ne.2 hturn, hregion]
  split
  · exact Commanded.of_charge ..
  · exact (Commanded.of_charge ..).post _

end

/-- A row that has been idle is closed, charged to whoever opened it (R81, R82). -/
theorem exec_idlePrecharge {pc bank : Nat} (hidle : s.rowIdle pc bank = true) : ∃ t, RunsAside (.idlePrecharge pc bank) s t ∧
    tget none (t.chan pc).rows bank = none := by
  cases hrow : tget none (s.chan pc).rows bank with
  | none => simp [State.rowIdle, hrow] at hidle
  | some o =>
    have hexec : exec (.idlePrecharge pc bank) s =
        .next ((s.modChan pc fun c => { c with rows := tput none bank none c.rows }).chargeUnits pc 6 o.region) := by
      change execIdlePrecharge pc bank s = _
      simp only [execIdlePrecharge, hrow, hidle, if_true]
    obtain ⟨ps, _, _, _, _, hcharged⟩ := (s.modChan pc fun c => { c with rows := tput none bank none c.rows }).chargeUnits_aside pc 6 o.region
    rw [hcharged] at hexec
    refine ⟨_, ⟨hexec, rfl, rfl, rfl, rfl⟩, ?_⟩
    change tget none ((s.modChan pc fun c => { c with rows := tput none bank none c.rows }).chan pc).rows bank = none
    rw [State.modChan_chan_same, tget_tput_same]

theorem exec_idlePrecharge_busy {pc bank : Nat} (hbusy : s.rowIdle pc bank = false) : exec (.idlePrecharge pc bank) s = .next s := by
  change execIdlePrecharge pc bank s = _
  cases hrow : tget none (s.chan pc).rows bank with
  | none => simp only [execIdlePrecharge, hrow]
  | some o => simp only [execIdlePrecharge, hrow, hbusy, Bool.false_eq_true, if_false]

/-- A corrected error is read and written back behind what the channel has to do (R81). -/
theorem exec_scrub (s : State) (pa : Nat) : ∃ t, RunsAside (.scrub pa) s t ∧ (t.chan (pa / 2 ^ 28)).queue =
    (s.chan (pa / 2 ^ 28)).queue ++ [false, true].map fun w => { row := pa % 2 ^ 28 / 1024, write := w, region := none } := by
  let f (c : Chan) : Chan := { c with queue := (s.chan (pa / 2 ^ 28)).queue ++
    [{ row := pa % 2 ^ 28 / 1024, write := false, region := none }, { row := pa % 2 ^ 28 / 1024, write := true, region := none }] }
  have hchan : (s.modChan (pa / 2 ^ 28) f).chan (pa / 2 ^ 28) = f (s.chan (pa / 2 ^ 28)) := State.modChan_chan_same ..
  change ∃ t, (execScrub pa s = .next t ∧ _) ∧ _
  cases hidle : (s.chan (pa / 2 ^ 28)).queue.isEmpty with
  | false =>
    refine ⟨s.modChan (pa / 2 ^ 28) f, ⟨?_, rfl, rfl, rfl, rfl⟩, congrArg Chan.queue hchan⟩
    exact congrArg Host.Outcome.next (if_neg (Bool.eq_false_iff.1 hidle))
  | true =>
    refine ⟨(s.modChan (pa / 2 ^ 28) f).post (.rimCommandIssue (pa / 2 ^ 28)), ⟨?_, rfl, rfl, rfl, rfl⟩, congrArg Chan.queue hchan⟩
    exact congrArg Host.Outcome.next (if_pos hidle)

end

end Sys2Proof.Machine

namespace Sys2Proof.Proofs

open Sys2Proof Sys2Proof.Machine

/-- Settles O53: each event's next state is stated once, by what it answers (`exec_completion`, `State.pageDenied_tells`,
`exec_invalidationComplete_drops`, `State.setRimpart_eq`, `Commanded`, …), and each clause reads it. That a host request is for a page of 4 KiB,
that stale answers are not used and that a refusal is told once is log entry 89's reading; stopped partitions are log entry 34's. -/
theorem translationsAndStacksTakeTheirSteps : Obligations.TranslationsAndStacksTakeTheirSteps := by
  unfold Obligations.TranslationsAndStacksTakeTheirSteps
  refine ⟨?completion, ?response, ?resume, ?invalidate, ?complete, ?entry, ?rimpart, ?zero, ?write, ?command, ?empty, ?rows, exec_scrub⟩
  case completion =>
    intro s id host size r w h hid hpri hqueued hdenied
    dsimp only
    have hget (x : Option HostReq) : tget none (tput none id x s.hostReqs) id = x := tget_tput_same ..
    refine ⟨fun hstale u => ?_, fun hstale => ?_, fun hstale hgiven => ?_, fun hstale hgiven hroom => ?_, fun hstale hgiven hfull => ?_⟩
    · obtain ⟨ts, hts, -⟩ := State.tellAll_posts h.waiting (s.setHostReq id none)
      refine ⟨_, ⟨(exec_completion_stale hid hpri hqueued hdenied hstale u).trans (congrArg _ hts), rfl, rfl, rfl, rfl⟩, hget none, rfl⟩
    · obtain ⟨ts, hts, -⟩ := State.tellAll_posts h.waiting
        (s.setHostReq id (if h.waiting = [] then none else some { h with denied := h.waiting, waiting := [] }))
      refine ⟨_, ⟨(exec_completion_unsupported hid hpri hqueued hdenied hstale).trans (congrArg _ hts), rfl, rfl, rfl, rfl⟩, rfl, hget _⟩
    all_goals obtain ⟨x, hentry, hexec⟩ := exec_completion (host := host) (size := size) (r := r) (w := w) hid hpri hqueued hdenied hstale
    · obtain ⟨ts, hts, htold⟩ := State.tellAll_posts h.waiting (({ s with slices := x } : State).setHostReq id none)
      rw [if_pos hgiven, hts] at hexec
      refine ⟨_, ⟨hexec, rfl, rfl, rfl, rfl⟩, hget none, hentry ?_, fun k i q hin hq hkind => ?_⟩
      · split at hgiven
        · exact .inl hgiven
        · exact .inr hgiven
      · exact List.mem_append_right _ (htold k i q hin hq hkind)
    · rw [if_neg (by simp [hgiven]), State.askPri_sends (s := { s with slices := x }) hroom] at hexec
      obtain ⟨ts, hts, -⟩ := State.tellAll_posts h.waiting ((({ s with slices := x } : State).setHostReq id
        (some { h with pri := true, queued := false, waiting := [] })).emit
        (.priRequest (nearestPort (h.slice / 4)) (h.vf.getD 0) (Config.pasid (h.vf.getD 0)) h.page))
      rw [hts] at hexec
      exact ⟨_, ⟨hexec, rfl, rfl, rfl, rfl⟩, hget (some { h with pri := true, queued := false, waiting := [] }), rfl⟩
    · rw [if_neg (by simp [hgiven]), State.askPri_waits (s := { s with slices := x }) hfull] at hexec
      exact ⟨_, ⟨hexec, rfl, rfl, rfl, rfl⟩, hget (some { h with queued := true }), rfl⟩
  case response =>
    intro s id h hid hpri hvf hqueued waits
    have hnone : s.noneQueued := fun e he => by
      cases hg : e.2 with
      | none => rfl
      | some g => exact hqueued e he g hg
    have hwaits : ∀ k w, waits k w → (s.setHostReq id none).waitsFor h.part h.page h.vf (k, (s.setHostReq id none).core k) = true := by
      rintro k w ⟨hwait, hpart, hof, hhalf, hpage⟩
      exact State.waitsFor_iff.2 ⟨State.sharesPage_host hpart hof, w, hwait, inPage_host hvf hhalf hpage⟩
    constructor
    · have hkept := PageKept.pageCame (s.setHostReq id none) h.part h.page h.vf
      refine ⟨_, ⟨exec_prgResponse hid hpri hnone true, hkept.mem, hkept.regs⟩, hkept.ended (s.endHostReq id).2, fun k w hw => ?_⟩
      have hcore := (s.setHostReq id none).pageCame_core h.part h.page h.vf k
      rw [if_pos (hwaits k w hw)] at hcore
      rw [if_pos rfl, hcore]
      exact ⟨rfl, rfl⟩
    · obtain ⟨hkept, hcores, hqueues⟩ := (s.setHostReq id none).pageDenied_tells h.part h.page h.vf
      refine ⟨_, ⟨exec_prgResponse hid hpri hnone false, hkept.mem, hkept.regs⟩, hkept.ended (s.endHostReq id).2, fun k w hw => ?_, ?_⟩
      · exact hcores k w hw.1 (hwaits k w hw)
      · intro x q c cs va hcmds hwait hpart hof hhalf hpage
        exact hqueues x q c cs va hcmds hwait (State.sharesPage_host hpart hof) (inPage_host hvf hhalf hpage)
  case resume =>
    intro s p va
    have hkept := PageKept.pageCame s p (va / 65536) none
    refine ⟨_, ⟨rfl, hkept.mem, hkept.regs⟩, fun k w hwait hpart hhalf hpage => ?_⟩
    have hwaits : s.waitsFor p (va / 65536) none (k, s.core k) = true :=
      State.waitsFor_iff.2 ⟨State.sharesPage_dev hpart, w, hwait, inPage_dev hhalf hpage⟩
    rw [State.pageCame_core, if_pos hwaits]
  case invalidate =>
    intro s p lo hi e n hevent
    have hget (m : Inval) : tget none (tput none s.seq (some m) s.invals) s.seq = some m := tget_tput_same ..
    rcases hevent with ⟨rfl, rfl⟩ | ⟨rfl, rfl⟩ | ⟨rfl, rfl⟩ <;> exact ⟨_, ⟨rfl, rfl, rfl, rfl, rfl⟩, hget _, rfl⟩
  case complete =>
    intro s id n hinval
    have hget (m : Option Inval) : tget none (tput none id m s.invals) id = m := tget_tput_same ..
    refine ⟨fun hdropped hnotice => ?_, exec_invalidationComplete_waits hinval, fun hdropped hreqs hchunks => ?_⟩
    · obtain ⟨chunks, hexec⟩ := exec_invalidationComplete_drops hinval hdropped hnotice
      obtain ⟨x, hx⟩ : ∃ x, s.dropStb n.part n.coversEntry = { s with slices := x } := foldl_modSlice _ _ _ s
      have hstb : ∀ sl ∈ (s.part n.part).sliceIds, ∀ e ∈ (tget ({} : Slice) x sl).stb, n.coversEntry e = false := by
        intro sl hsl e he
        have hslice : (s.dropStb n.part n.coversEntry).slice sl = tget {} x sl := by rw [hx]; rfl
        rw [← hslice] at he
        exact (State.mem_dropStb.1 he).2 hsl
      rw [hx] at hexec
      refine ⟨_, ⟨hexec, rfl, rfl, rfl, rfl⟩, hstb, fun i h hreq hpart hpri hdenied hcovers => ?_, ?_⟩
      · exact State.staleReqs_get (s := { s with slices := x }) hreq hpart hpri hdenied hcovers
      · exact congrArg (Option.map fun m : Inval => m.dropped)
          (hget (some { n with dropped := true, reqs := s.servedReqs n.part, chunks := chunks }))
    · exact ⟨_, ⟨exec_invalidationComplete_ends hinval hdropped hreqs hchunks, rfl, rfl, rfl, rfl⟩, hget none, rfl⟩
  case entry =>
    intro s p pa v
    refine ⟨fun hon halign hin => ?_, fun h => exec_writeTableEntry_refused h⟩
    let u := (s.rimWrite (s.part p) pa 8 v.toNat).clearTags (s.part p) pa 8
    obtain ⟨x, hx⟩ := u.dropLine_slices p pa
    have hexec := exec_writeTableEntry (v := v) hon halign hin
    obtain ⟨_, _, hqueues⟩ := (u.dropLine p pa).rimTouch_queues p none true pa 8
    rw [hqueues, hx] at hexec
    exact ⟨_, hexec, rfl, rfl, rfl⟩
  case rimpart =>
    intro s p v pcs q frames
    refine ⟨fun hfailed hstopped hok hframes => ?_, fun h => exec_rimpartWrite_refused h⟩
    obtain ⟨chans, hexec⟩ := exec_rimpartWrite hfailed hstopped hok hframes
    obtain ⟨x, c, ps, hset, hallocation⟩ := s.setRimpart_eq p v pcs
    obtain ⟨_, _, _, hrelease⟩ := (s.setRimpart p v pcs).release_eq p [] chans
    rw [hrelease, hset] at hexec
    exact ⟨_, ⟨hexec, rfl, rfl, rfl, rfl⟩, hallocation⟩
  case zero =>
    intro s pc
    refine ⟨fun hlt hfree => ?_, fun h => exec_pseudoChannelZero_refused h⟩
    exact ⟨_, exec_pseudoChannelZero hlt hfree, rfl, rfl, zeroCells_rim s _ _, State.modChan_chan_same ..⟩
  case write =>
    intro s p pa d
    refine ⟨fun hon hstopped hin => ?_, fun h => exec_physicalFunctionWrite_refused h⟩
    obtain ⟨x, z, _, hexec, _, _, rfl⟩ := exec_physicalFunctionWrite hon hstopped hin
    exact ⟨_, hexec, rfl, rfl, rfl, rfl⟩
  case command =>
    intro s pc r q qs hqueue hregion p charged
    have hget (o : Option OpenRow) : tget none (tput none (bankOf q.row) o (s.chan pc).rows) (bankOf q.row) = o := tget_tput_same ..
    refine ⟨fun hrow => ?_, fun o hrow => ⟨fun hother => ?_, fun hsame hturn => ?_, fun hsame hturn => ?_⟩⟩
    · obtain ⟨t, hexec, h⟩ := rimCommandIssue_opens hqueue hregion hrow
      refine ⟨t, ⟨hexec, h.cores, h.mem⟩, h.rimocc, ?_⟩
      rw [h.chan]
      exact ⟨hget (some _), hqueue⟩
    · obtain ⟨t, hexec, h⟩ := rimCommandIssue_precharges hqueue hregion hrow hother
      refine ⟨t, ⟨hexec, h.cores, h.mem⟩, h.rimocc, ?_⟩
      rw [h.chan]
      exact ⟨hget none, hqueue⟩
    · obtain ⟨t, hexec, h⟩ := rimCommandIssue_turns hqueue hregion hrow hsame hturn
      refine ⟨t, ⟨hexec, h.cores, h.mem⟩, h.rimocc, ?_⟩
      rw [h.chan]
      exact ⟨rfl, hqueue⟩
    · obtain ⟨t, hexec, h⟩ := rimCommandIssue_serves hqueue hregion hrow hsame hturn
      refine ⟨t, ⟨hexec, h.cores, h.mem⟩, h.rimocc, ?_⟩
      rw [h.chan]
  case empty =>
    intro s pc hqueue
    change Host.Outcome.next (s.rimCommand pc) = _
    simp only [State.rimCommand, hqueue]
  case rows =>
    intro s pc bank
    refine ⟨exec_idlePrecharge, exec_idlePrecharge_busy, s.modChan pc fun c => { c with rows := [] }, ⟨rfl, rfl, rfl, rfl, rfl⟩, ?_⟩
    rw [State.modChan_chan_same]
    exact ⟨rfl, rfl⟩

end Sys2Proof.Proofs

/-! PROOFS. Requests, trails and stalls that end at their core (O43). Each event's next state is stated once; what it leaves alone are the
relations CoreOnly and Queues. -/

namespace Sys2Proof.Machine

open Sys2Proof

section
variable {s t u : State} {k id : Nat}

/-! What changes one core alone. -/

/-- Core k may differ, and nothing else. -/
def CoreOnly (k : Nat) (s t : State) : Prop := (∃ c, t = { s with cores := c }) ∧ ∀ j, j ≠ k → t.core j = s.core j

theorem CoreOnly.refl (k : Nat) (s : State) : CoreOnly k s s := ⟨⟨_, rfl⟩, fun _ _ => rfl⟩

theorem CoreOnly.trans (h : CoreOnly k s t) (h' : CoreOnly k t u) : CoreOnly k s u := by
  obtain ⟨⟨_, rfl⟩, hothers⟩ := h
  obtain ⟨⟨_, rfl⟩, hothers'⟩ := h'
  exact ⟨⟨_, rfl⟩, fun j hj => (hothers' j hj).trans (hothers j hj)⟩

theorem CoreOnly.modCore (k : Nat) (s : State) (f : Core → Core) : CoreOnly k s (s.modCore k f) :=
  ⟨⟨_, rfl⟩, fun _ hj => State.modCore_core_other _ _ _ _ (Ne.symm hj)⟩

theorem CoreOnly.wcOf (k : Nat) (s : State) (d : Reg) (v : CReg) : CoreOnly k s (s.wcOf k d v) := by
  unfold State.wcOf
  split
  · exact .refl k s
  · exact .modCore k s _

theorem CoreOnly.aside (h : CoreOnly k s t) : SameMemory s t ∧ t.ctxs = s.ctxs := by
  obtain ⟨⟨_, rfl⟩, -⟩ := h
  exact ⟨⟨rfl, rfl, rfl⟩, rfl⟩

theorem CoreOnly.runs {e : Instr} (h : CoreOnly k s t) (hexec : exec e s = .next t) : RunsAtCore e k s t := by
  exact ⟨hexec, h.2, h.aside.1⟩

theorem State.wcOf_core (s : State) (k : Nat) (d : Reg) (v : CReg) : (s.wcOf k d v).core k =
    { s.core k with c := if d = 0#5 then (s.core k).c else tput {} d.toNat v (s.core k).c } := by
  unfold State.wcOf
  split
  · rfl
  · exact State.modCore_core_same ..

/-! Requests served at their slice, and their replies (R70, R101, R121). -/

/-- A core's request slot written. -/
def Core.putReq (id : Nat) (q : Option Req) (c : Core) : Core := { c with reqs := tput none id q c.reqs }

/-- A load that its slice serves at once: the request holds the value, and the reply is on its way. -/
theorem exec_loadRequest {got : Nat} {tag : Bool} {q : Req} (hq : tget none (s.core k).reqs id = some q) (hdone : q.done = none)
    (hatomic : ∀ d m n b c v, q.kind ≠ .atomic d m n b c v) (hhcasx : ∀ d n o w c v h, q.kind ≠ .hcasx d n o w c v h)
    (hgather : gather s (s.corePart k) (ctxRegion (coreCtx k)) q.v (.request k id) q.got false q.want = (.ok got tag, u)) :
    exec (.loadRequest k id) s = .next (((u.forget (· == .request k id)).modCore k
      (Core.putReq id (some { q with done := some (.value got (if q.memTag then tag else q.tag) 0) }))).post (.loadReply k id)) := by
  change execLoadRequest k id s = _
  cases hkind : q.kind with
  | atomic => exact absurd hkind (hatomic _ _ _ _ _ _)
  | hcasx => exact absurd hkind (hhcasx _ _ _ _ _ _ _)
  | scalar | cap | vector => simp only [execLoadRequest, hq, hdone, hkind, hgather, Option.isSome_none, Bool.false_eq_true, if_false]; rfl

/-- The request's slot is free. -/
def State.endReq (s : State) (k id : Nat) : State := s.modCore k (Core.putReq id none)

theorem State.endReq_core (s : State) (k id : Nat) : (s.endReq k id).core k = (s.core k).putReq id none :=
  State.modCore_core_same ..

theorem State.endReq_free (s : State) (k id : Nat) : tget none ((s.endReq k id).core k).reqs id = none := by
  rw [State.endReq_core]
  exact tget_tput_same none none id (s.core k).reqs

theorem CoreOnly.endReq (k id : Nat) (s : State) : CoreOnly k s (s.endReq k id) := .modCore k s _

theorem exec_loadReply {x : Nat} {tag : Bool} {st : Stamp} {q : Req} (hq : tget none (s.core k).reqs id = some q)
    (hdone : q.done = some (.value x tag st)) : exec (.loadReply k id) s = .next (deliver (s.endReq k id) k q.kind x tag) := by
  change execLoadReply k id s = _
  simp only [execLoadReply, hq, hdone]
  rfl

/-- A reply that writes one c register (R123, R124). -/
theorem loadReply_writes {x : Nat} {tag : Bool} {st : Stamp} {q : Req} {d : Reg} {v : CReg} (hq : tget none (s.core k).reqs id = some q)
    (hdone : q.done = some (.value x tag st)) (hdeliver : deliver (s.endReq k id) k q.kind x tag = (s.endReq k id).wcOf k d v) :
    ∃ t, RunsAtCore (.loadReply k id) k s t ∧ tget none (t.core k).reqs id = none ∧
      (t.core k).c = if d = 0#5 then (s.core k).c else tput {} d.toNat v (s.core k).c := by
  refine ⟨_, ((CoreOnly.endReq k id s).trans (.wcOf k _ d v)).runs ((exec_loadReply hq hdone).trans (congrArg _ hdeliver)), ?_⟩
  rw [State.wcOf_core]
  refine ⟨State.endReq_free s k id, ?_⟩
  rw [State.endReq_core]
  rfl

/-- A context with v(D) written. -/
def Ctx.putVec (d : Reg) (r : VReg) (c : Ctx) : Ctx := { c with v := tput {} d.toNat r c.v }

/-- A write of a vector register, which wakes its bank (R205): of contexts the one changes alone, and no core or byte of memory. -/
theorem State.putVec_touch (s : State) (x site slot : Nat) (d : Reg) (r : VReg) (rs : List Reg) :
    let t := (s.modCtx x (Ctx.putVec d r)).touchBanksAt site slot rs
    t.cores = s.cores ∧ SameMemory s t ∧ ∀ y, t.ctx y = if y = x then (s.ctx y).putVec d r else s.ctx y := by
  obtain ⟨ti, hti⟩ : ∃ ti, (s.modCtx x (Ctx.putVec d r)).touchBanksAt site slot rs = { s.modCtx x (Ctx.putVec d r) with tiles := ti } := by
    unfold State.touchBanksAt
    dsimp only
    split <;> exact ⟨_, rfl⟩
  rw [hti]
  refine ⟨rfl, ⟨rfl, rfl, rfl⟩, fun y => ?_⟩
  change (s.modCtx x (Ctx.putVec d r)).ctx y = _
  rw [State.modCtx_ctx]
  by_cases hy : x = y
  · subst hy
    rw [if_pos rfl]
  · rw [if_neg hy, if_neg (Ne.symm hy)]

/-- A reply that writes a vector register (R130). -/
theorem loadReply_vector {x sel old : Nat} {tag : Bool} {st : Stamp} {q : Req} {d : Reg} {type : Byte}
    (hq : tget none (s.core k).reqs id = some q) (hkind : q.kind = .vector d type sel old) (hdone : q.done = some (.value x tag st)) :
    ∃ t, RunsAtCore (.loadReply k id) k s t ∧ tget none (t.core k).reqs id = none ∧ (t.core k).c = (s.core k).c ∧
      ∀ y, t.ctx y = if y = coreCtx k then (s.ctx y).putVec d { bits := BitVec.ofNat 1024 (mixBits sel x old), tag := type } else s.ctx y := by
  obtain ⟨hcores, hmem, hctx⟩ := (s.endReq k id).putVec_touch (coreCtx k) ((s.endReq k id).ctx (coreCtx k)).site
    ((s.endReq k id).ctx (coreCtx k)).slot d { bits := BitVec.ofNat 1024 (mixBits sel x old), tag := type } [d]
  have hexec : exec (.loadReply k id) s = .next (((s.endReq k id).modCtx (coreCtx k)
      (Ctx.putVec d { bits := BitVec.ofNat 1024 (mixBits sel x old), tag := type })).touchBanksAt ((s.endReq k id).ctx (coreCtx k)).site
      ((s.endReq k id).ctx (coreCtx k)).slot [d]) := (exec_loadReply hq hdone).trans (by rw [hkind]; rfl)
  generalize ((s.endReq k id).modCtx (coreCtx k) _).touchBanksAt _ _ _ = t at hcores hmem hctx hexec
  have hcore (j : Nat) : t.core j = (s.endReq k id).core j := by rw [State.core, hcores, State.core]
  refine ⟨t, ⟨hexec, fun j hj => ?_, hmem⟩, ?_, ?_, hctx⟩
  · exact (hcore j).trans ((CoreOnly.endReq k id s).2 j hj)
  · rw [hcore]; exact State.endReq_free s k id
  · rw [hcore, State.endReq_core]; rfl

/-! Atomics at their engine, and their replies (R108, R110, R141). -/

theorem pickRequest_one (ptr : Nat) (e : EngReq) : pickRequest ptr [e] = some e := by
  simp [pickRequest, sortOn, insertOn]

theorem mem_insertOn {α : Type} {f : α → Nat} {a x : α} {l : List α} : a ∈ insertOn f x l ↔ a = x ∨ a ∈ l := by
  induction l with
  | nil => simp [insertOn]
  | cons y l ih =>
    unfold insertOn
    split
    · simp
    · simp only [List.mem_cons, ih]
      exact or_left_comm

theorem mem_sortOn {α : Type} {f : α → Nat} {a : α} {l : List α} : a ∈ sortOn f l ↔ a ∈ l := by
  have key : ∀ (l m : List α), a ∈ l.foldl (fun t x => insertOn f x t) m ↔ a ∈ l ∨ a ∈ m := by
    intro l
    induction l with
    | nil => simp
    | cons x l ih =>
      intro m
      rw [List.foldl_cons, ih, mem_insertOn, List.mem_cons]
      tauto
  exact (key l []).trans (by simp)

/-- An engine with requests before it picks one (R108). -/
theorem pickRequest_isSome {ptr : Nat} {l : List EngReq} (h : l ≠ []) : (pickRequest ptr l).isSome = true := by
  have sorted {f : EngReq → Nat} {m : List EngReq} (hm : m ≠ []) : ∃ a ∈ m, (sortOn f m).head? = some a := by
    obtain ⟨a, ha⟩ := List.exists_mem_of_ne_nil m hm
    cases hs : sortOn f m with
    | nil => exact absurd (hs ▸ mem_sortOn.2 ha) (List.not_mem_nil)
    | cons b r => exact ⟨b, mem_sortOn.1 (hs ▸ List.mem_cons_self ..), rfl⟩
  obtain ⟨a, ha, hhead⟩ := sorted (f := (·.arrival)) h
  have hties : l.filter (fun q => q.line == a.line && q.arrival == a.arrival) ≠ [] :=
    List.ne_nil_of_mem (List.mem_filter.2 ⟨ha, by simp⟩)
  obtain ⟨b, -, hb⟩ := sorted (f := rankFrom ptr) hties
  rw [pickRequest, hhead, Option.bind_some, hb]
  rfl

/-- An engine acts on one request in a tick (R108). -/
theorem exec_atomicEngineRequest_waits {cl : Nat} (hsome : (s.cluster cl).engQ ≠ []) (htick : (s.cluster cl).engTick = some s.tick) :
    exec (.atomicEngineRequest cl) s = .next (s.later (.atomicEngineRequest cl)) := by
  obtain ⟨e, he⟩ := Option.isSome_iff_exists.1 (pickRequest_isSome (ptr := (s.cluster cl).engPtr) hsome)
  change execAtomicEngineRequest cl s = _
  simp only [execAtomicEngineRequest, he, htick, beq_self_eq_true, if_true]

/-- The one request of an engine, an atomic of a core's slot: the engine acts, the request holds what that gave, and the reply is on its way. -/
theorem exec_atomicEngineRequest_serves {cl minor n b cmp : Nat} {d : Reg} {carried : Stamp} {e : EngReq} {q : Req} {r : ReqEnd}
    (hengine : (s.cluster cl).engQ = [e]) (hcxl : e.cxl = none) (hcopy : e.copy = none) (hq : tget none (s.core e.who).reqs e.id = some q)
    (hdone : q.done = none) (hkind : q.kind = .atomic d minor n b cmp carried) (htick : (s.cluster cl).engTick ≠ some s.tick)
    (hact : engineAct (s.modCluster cl fun c => { c with
        engTick := some s.tick, engQ := [], engPtr := if e.tied && decide (e.src < 121) then (e.src + 1) % 121 else c.engPtr }) cl (s.corePart e.who)
      (ctxRegion (coreCtx e.who)) q.va n (fun old => atomNew minor n old b cmp) carried (.request e.who e.id) = (some r, u)) :
    exec (.atomicEngineRequest cl) s = .next (((u.forget (· == .request e.who e.id)).modCore e.who
      (Core.putReq e.id (some { q with done := some r }))).post (.atomicReply e.who e.id)) := by
  generalize hv : (s.modCluster cl fun c => { c with
    engTick := some s.tick, engQ := [], engPtr := if e.tied && decide (e.src < 121) then (e.src + 1) % 121 else c.engPtr }) = v at hact
  have htaken : (s.modCluster cl fun c => { c with
      engTick := some s.tick, engQ := c.engQ.erase e
      engPtr := if e.tied && decide (e.src < 121) then (e.src + 1) % 121 else c.engPtr }) = v := by
    rw [← hv, State.modCluster, State.modCluster, hengine, List.erase_cons_head]
  have hserved : v.serveRequest cl e = ((u.forget (· == .request e.who e.id)).modCore e.who
      (Core.putReq e.id (some { q with done := some r }))).post (.atomicReply e.who e.id) := by
    have hqv : tget none (v.core e.who).reqs e.id = some q := by rw [← hv]; exact hq
    have hpart : v.corePart e.who = s.corePart e.who := by rw [← hv]; rfl
    simp only [State.serveRequest, hcxl, hcopy, hqv, hkind, hdone, hpart, hact]
    rfl
  change execAtomicEngineRequest cl s = _
  simp only [execAtomicEngineRequest, hengine, pickRequest_one, beq_eq_false_iff_ne.2 htick, Bool.false_eq_true, if_false, htaken, hserved]
  rfl

/-- The old values that an atomic returns: CAS2 a pair of them (R139, R141). -/
def oldValues (d : Reg) (minor n x : Nat) : List (Reg × Nat) :=
  if minor = 10 then [(d, x), (d + 1#5, x / 2 ^ 64)] else [(d, x % 256 ^ n)]

/-- They go to their registers, c0 apart. -/
def putOlds (olds : List (Reg × Nat)) (c : Tbl CReg) : Tbl CReg :=
  olds.foldl (fun (c : Tbl CReg) (e : Reg × Nat) => if e.1 = 0#5 then c else tput {} e.1.toNat (dataReg (BitVec.ofNat 64 e.2)) c) c

theorem deliver_atomic (s : State) (k : Nat) (d : Reg) (minor n b cmp : Nat) (carried : Stamp) (x : Nat) (tag : Bool) :
    CoreOnly k s (deliver s k (.atomic d minor n b cmp carried) x tag) ∧ (deliver s k (.atomic d minor n b cmp carried) x tag).core k =
      { s.core k with c := putOlds (oldValues d minor n x) (s.core k).c } := by
  unfold deliver
  dsimp only
  by_cases hpair : minor = 10
  · simp only [hpair, if_true, oldValues]
    refine ⟨(CoreOnly.wcOf k s _ _).trans (.wcOf k _ _ _), ?_⟩
    rw [State.wcOf_core, State.wcOf_core]
    rfl
  · simp only [hpair, if_false, oldValues]
    exact ⟨.wcOf k s _ _, State.wcOf_core ..⟩

/-- A core whose awaited atomic has its reply: the wait for the stamp is next (R110). -/
def Core.hasReply (a : Stamp) (c : Core) : Core := { c with stall := .none, prog := { c.prog with step := 2, value := a, act := false } }

theorem exec_atomicReply_aside {x n m b cmp : Nat} {d : Reg} {carried a : Stamp} {tag : Bool} {q : Req}
    (hq : tget none (s.core k).reqs id = some q) (hkind : q.kind = .atomic d m n b cmp carried)
    (hdone : q.done = some (.value x tag a)) (hwaits : (s.core k).stall ≠ .reply id) :
    exec (.atomicReply k id) s = .next (deliver (s.endReq k id) k (.atomic d m n b cmp carried) x false) := by
  change execAtomicReply k id s = _
  simp only [execAtomicReply, hq, hdone, hwaits, if_false, hkind]
  rfl

theorem exec_atomicReply_awaited {x n m b cmp : Nat} {d : Reg} {carried a : Stamp} {tag : Bool} {q : Req}
    (hq : tget none (s.core k).reqs id = some q) (hkind : q.kind = .atomic d m n b cmp carried) (hjoin : m ≠ 12)
    (hdone : q.done = some (.value x tag a)) (hwaits : (s.core k).stall = .reply id) (hkill : (s.core k).killLater = none) :
    exec (.atomicReply k id) s =
      .next ((deliver (s.endReq k id) k (.atomic d m n b cmp carried) x false).modCore k (Core.hasReply a)) := by
  have hcore := (deliver_atomic (s.endReq k id) k d m n b cmp carried x false).2
  rw [State.endReq_core] at hcore
  have hlater : (((deliver (s.endReq k id) k (.atomic d m n b cmp carried) x false).modCore k (Core.hasReply a)).core k).killLater = none := by
    rw [State.modCore_core_same, hcore]
    exact hkill
  change execAtomicReply k id s = _
  simp only [execAtomicReply, hq, hdone, hwaits, if_true, hkind, ReqKind.atomic.injEq, hjoin, false_and, and_false, imp_false, not_false_iff,
    implies_true, Bool.false_eq_true, if_false, Bool.false_and]
  split
  next hsome => exact absurd (hsome.symm.trans hlater) (Option.some_ne_none _)
  next => rfl

/-- An atomic's reply, JOIN's apart: the old values in their registers; a core that waits for it goes on (R110, R141). -/
theorem atomicReply_returns {x n m b cmp : Nat} {d : Reg} {carried a : Stamp} {tag : Bool} {q : Req}
    (hq : tget none (s.core k).reqs id = some q) (hkind : q.kind = .atomic d m n b cmp carried) (hjoin : m ≠ 12)
    (hdone : q.done = some (.value x tag a)) (hkill : (s.core k).killLater = none) :
    ∃ t, RunsAtCore (.atomicReply k id) k s t ∧
      let c := { (s.core k).putReq id none with c := putOlds (oldValues d m n x) (s.core k).c }
      t.core k = if (s.core k).stall = .reply id then Core.hasReply a c else c := by
  obtain ⟨honly, hcore⟩ := deliver_atomic (s.endReq k id) k d m n b cmp carried x false
  rw [State.endReq_core] at hcore
  have hmost := (CoreOnly.endReq k id s).trans honly
  by_cases hwaits : (s.core k).stall = .reply id
  · refine ⟨_, (hmost.trans (.modCore k _ _)).runs (exec_atomicReply_awaited hq hkind hjoin hdone hwaits hkill), ?_⟩
    rw [State.modCore_core_same, hcore]
    exact (if_pos hwaits).symm
  · refine ⟨_, hmost.runs (exec_atomicReply_aside hq hkind hdone hwaits), ?_⟩
    rw [hcore]
    exact (if_neg hwaits).symm

/-! Prefetches (R136). -/

theorem length_tins_le {α : Type} (k : Nat) (v : α) (t : Tbl α) : (tins k v t).length ≤ t.length + 1 := by
  induction t with
  | nil => exact Nat.le_refl 1
  | cons e t ih =>
    unfold tins
    split
    · exact Nat.le_refl _
    · split
      · exact Nat.le_succ _
      · exact Nat.succ_le_succ ih

/-- Slice sl holds line l. -/
def State.holdsLine (s : State) (sl l : Nat) : Prop := (tget none (s.slice sl).chains l).isSome = true

/-- Slice sl takes up to n lines and drops none; no core and no memory changes. -/
def TakesLines (sl n : Nat) (s t : State) : Prop := t.cores = s.cores ∧ SameMemory s t ∧
  (t.slice sl).chains.length ≤ (s.slice sl).chains.length + n ∧ ∀ l, s.holdsLine sl l → t.holdsLine sl l

theorem TakesLines.refl (sl : Nat) (s : State) : TakesLines sl 0 s s := ⟨rfl, ⟨rfl, rfl, rfl⟩, Nat.le_refl _, fun _ => id⟩

theorem TakesLines.trans {sl m n : Nat} (h : TakesLines sl m s t) (h' : TakesLines sl n t u) : TakesLines sl (m + n) s u := by
  obtain ⟨hcores, ⟨hrim, htags, hhost⟩, hlength, hheld⟩ := h
  obtain ⟨hcores', ⟨hrim', htags', hhost'⟩, hlength', hheld'⟩ := h'
  exact ⟨hcores'.trans hcores, ⟨hrim'.trans hrim, htags'.trans htags, hhost'.trans hhost⟩, by omega, fun l h => hheld' l (hheld l h)⟩

theorem Slice.addLine_chains {x : Slice} (l : Nat) (c : Chain) (hroom : x.chains.length < lineRoom) :
    (x.addLine l c).chains = tins l (some c) x.chains := by
  rw [Slice.addLine, if_pos hroom, tput, if_neg (Option.some_ne_none c)]

/-- A line that a slice does not hold is read from rim memory, and added to it (R96). -/
theorem State.chain_miss {p sl l : Nat} (reg : Option Nat) (hline : tget none (s.slice sl).chains l = none) :
    ∃ v : State, (s.chain p sl l reg).2 = v.modSlice sl (fun x => x.addLine l (s.lineOf p l)) ∧
      v.slice sl = s.slice sl ∧ v.cores = s.cores ∧ SameMemory s v := by
  obtain ⟨c, a, htouch⟩ := s.rimTouch_queues p reg false (l * 64) 64
  simp only [State.chain, hline, htouch]
  exact ⟨_, rfl, rfl, rfl, rfl, rfl, rfl⟩

/-- A slice with room takes the line that a read misses (R96). -/
theorem State.chain_takes (s : State) (p sl l : Nat) (reg : Option Nat) (hroom : (s.slice sl).chains.length < lineRoom) :
    TakesLines sl 1 s (s.chain p sl l reg).2 ∧ (s.chain p sl l reg).2.holdsLine sl l := by
  cases hline : tget none (s.slice sl).chains l with
  | some c =>
    have hhit : (s.chain p sl l reg).2 = s := by simp only [State.chain, hline]
    rw [hhit]
    exact ⟨⟨rfl, ⟨rfl, rfl, rfl⟩, Nat.le_succ _, fun _ => id⟩, by rw [State.holdsLine, hline]; rfl⟩
  | none =>
    obtain ⟨v, hmiss, hslice, hcores, hmem⟩ := State.chain_miss (p := p) reg hline
    rw [hmiss]
    have hchains : ((v.modSlice sl fun x => x.addLine l (s.lineOf p l)).slice sl).chains =
        tins l (some (s.lineOf p l)) (s.slice sl).chains := by
      rw [State.modSlice_slice_same, hslice, Slice.addLine_chains l _ hroom]
    refine ⟨⟨hcores, hmem, ?_, fun l' hheld => ?_⟩, ?_⟩
    · rw [hchains]
      exact length_tins_le ..
    · rw [State.holdsLine, hchains]
      by_cases heq : l = l'
      · rw [heq, tget_tins_same]; rfl
      · rw [tget_tins_other _ _ _ heq]; exact hheld
    · rw [State.holdsLine, hchains, tget_tins_same]; rfl

theorem foldl_chain_takes (p sl : Nat) (reg : Option Nat) (line : Nat → Nat) (is : List Nat) (s : State)
    (hroom : (s.slice sl).chains.length + is.length ≤ lineRoom) :
    TakesLines sl is.length s (is.foldl (fun s i => (s.chain p sl (line i) reg).2) s) ∧
      ∀ i ∈ is, (is.foldl (fun s i => (s.chain p sl (line i) reg).2) s).holdsLine sl (line i) := by
  induction is generalizing s with
  | nil => exact ⟨.refl sl s, fun _ h => absurd h List.not_mem_nil⟩
  | cons i is ih =>
    rw [List.length_cons] at hroom ⊢
    obtain ⟨hone, hline⟩ := s.chain_takes p sl (line i) reg (by omega)
    obtain ⟨hrest, hlines⟩ := ih (s.chain p sl (line i) reg).2 (by obtain ⟨-, -, hlength, -⟩ := hone; omega)
    refine ⟨(Nat.add_comm 1 is.length) ▸ hone.trans hrest, List.forall_mem_cons.2 ⟨?_, hlines⟩⟩
    obtain ⟨-, -, -, hheld⟩ := hrest
    exact hheld _ hline

/-- A prefetch whose page is there fills its lines (R136). -/
theorem prefRequest_fills {va len pa : Nat} (hpos : 0 < len) (hlen : len ≤ 65536) (hdev : devHalf va = true)
    (hpage : translate s (s.corePart k) va .load (ctxRegion (coreCtx k)) (s.core k).view .device = (.ok pa, u))
    (hroom : (u.slice (s.homeOf (s.corePart k) va)).chains.length + ((pa + len + 63) / 64 - pa / 64) ≤ lineRoom) :
    ∃ t, exec (.prefRequest k va len) s = .next t ∧ t.cores = u.cores ∧ SameMemory u t ∧
      ∀ i, i < (pa + len + 63) / 64 - pa / 64 → t.holdsLine (s.homeOf (s.corePart k) va) (pa / 64 + i) := by
  obtain ⟨⟨hcores, hmem, -, -⟩, hlines⟩ := foldl_chain_takes (s.corePart k) (s.homeOf (s.corePart k) va) (some (ctxRegion (coreCtx k)))
    (fun i => pa / 64 + i) (List.range ((pa + len + 63) / 64 - pa / 64)) u (by rw [List.length_range]; exact hroom)
  refine ⟨_, ?_, hcores, hmem, fun i hi => hlines i (List.mem_range.2 hi)⟩
  change execPrefRequest k va len s = _
  have hguard : (len = 0 || decide (65536 < len) || !devHalf va) = false := by
    rw [hdev, decide_eq_false (by omega), decide_eq_false (by omega)]; rfl
  simp only [execPrefRequest, hguard, Bool.false_eq_true, if_false, hpage]

/-! Spills, refills and stalls of the trail (R88, R107). -/

theorem State.areaTouch_queues (s : State) (x : Nat) (write : Bool) (pa n : Nat) : Queues s (s.areaTouch x write pa n) := by
  unfold State.areaTouch
  dsimp only
  split
  · exact (State.rimTouch_queues ..).trans (State.rimTouch_queues ..)
  · exact State.rimTouch_queues ..

theorem dedup_eq_singleton {l : List Nat} {a : Nat} (hne : l ≠ []) (h : ∀ x ∈ l, x = a) : l.dedup = [a] := by
  obtain ⟨n, hn⟩ : ∃ n, l = List.replicate n a := ⟨l.length, List.eq_replicate_of_mem h⟩
  subst hn
  exact List.replicate_dedup (by rintro rfl; exact hne rfl)

/-- Entries of one line take one burst (R88). -/
theorem State.trailTouch_line {write : Bool} {is : List Nat} {line : Nat} (hframes : (s.ctx (coreCtx k)).trailFrames ≠ []) (hne : is ≠ [])
    (hline : ∀ i ∈ is, i / 2 = line) : s.trailTouch k write is = s.areaTouch (coreCtx k) write (s.trailAddr k (64 * line)) 64 := by
  have hlines : (is.map fun i => i / 2).dedup = [line] := dedup_eq_singleton (mt List.map_eq_nil_iff.1 hne) (by simpa using hline)
  rw [State.trailTouch, if_neg (by simpa using hframes), hlines]
  rfl

theorem trailSpill_writes (hframes : (s.ctx (coreCtx k)).trailFrames ≠ []) :
    RunsAside (.trailSpill k) s (s.areaTouch (coreCtx k) true (s.trailAddr k (64 * ((s.trailTotal k - 1024) / 2))) 64) := by
  have hone : s.trailTouch k true [s.trailTotal k - bufferRoom] = _ :=
    State.trailTouch_line (line := (s.trailTotal k - 1024) / 2) hframes (List.cons_ne_nil _ _) (by simp [bufferRoom])
  exact ⟨congrArg Host.Outcome.next hone, (State.areaTouch_queues ..).same⟩

theorem Queues.core (h : Queues s t) (j : Nat) : t.core j = s.core j := by
  rw [State.core, h.same.1, State.core]

theorem trailRefill_reads {line : Nat} {q : Req} (hframes : (s.ctx (coreCtx k)).trailFrames ≠ []) (hq : tget none (s.core k).reqs id = some q)
    (hne : q.refills ≠ []) (hline : ∀ i ∈ q.refills, i / 2 = line) :
    RunsAtCore (.trailRefill k id) k s (((s.areaTouch (coreCtx k) false (s.trailAddr k (64 * line)) 64).modCore k
      (Core.putReq id (some { q with refills := [] }))).post (.loadRequest k id)) := by
  have htouch := s.areaTouch_queues (coreCtx k) false (s.trailAddr k (64 * line)) 64
  refine ⟨?_, fun j hj => ?_, htouch.same.2⟩
  · change execTrailRefill k id s = _
    simp only [execTrailRefill, hq, State.trailTouch_line hframes hne hline]
    rfl
  · exact (State.modCore_core_other _ k (Core.putReq id _) j (Ne.symm hj)).trans (htouch.core j)

/-- A spill's notes are events on the agenda. -/
theorem State.spillNote_queues (s : State) (k before : Nat) : Queues s (s.spillNote k before) :=
  List.foldlRecOn _ _ (Queues.refl s) fun _ hv _ _ => hv.trans ⟨_, _, rfl⟩

/-- A core whose stalled access has acted retires it next. -/
def Core.hasActed (c : Core) : Core := { c with stall := .none, prog := { c.prog with step := 1 } }

/-- A stalled store appends once there is room (R107). -/
theorem trailStallEnd_appends {es : List TrailEntry} (hstall : (s.core k).stall = .trail es)
    (hroom : newGranules (s.core k).trail es ≤ s.trailRoom k) : ∃ t, RunsAtCore (.trailStallEnd k) k s t ∧
      t.core k = Core.hasActed { s.core k with trail := trailAddAll (s.core k).trail es } := by
  have hexec : exec (.trailStallEnd k) s = .next (((s.append k es).spillNote k (s.trailTotal k)).modCore k Core.hasActed) := by
    change execTrailStallEnd k s = _
    simp only [execTrailStallEnd, hstall, if_neg (Nat.not_lt.2 hroom)]
    rfl
  have hnote := (s.append k es).spillNote_queues k (s.trailTotal k)
  generalize (s.append k es).spillNote k (s.trailTotal k) = v at hexec hnote
  refine ⟨_, ⟨hexec, fun j hj => ?_, hnote.same.2⟩, ?_⟩
  · exact (State.modCore_core_other _ _ _ _ (Ne.symm hj)).trans ((hnote.core j).trans (State.modCore_core_other _ _ _ _ (Ne.symm hj)))
  · rw [State.modCore_core_same, hnote.core, State.append, State.modCore_core_same]

theorem trailStallEnd_waits {es : List TrailEntry} (hstall : (s.core k).stall = .trail es)
    (hfull : s.trailRoom k < newGranules (s.core k).trail es) : exec (.trailStallEnd k) s = .next s := by
  change execTrailStallEnd k s = _
  simp only [execTrailStallEnd, hstall, if_pos hfull]

/-! Stalls on the scoreboard, and its entries (R158, R162). -/

theorem exec_scoreboardStallEnd {a : Scr} (hstall : (s.core k).stall = .scratch a) :
    exec (.scoreboardStallEnd k) s = .next (
      if !(s.overlaps (coreCtx k) a.h a.off (a.off + a.n)).isEmpty then s
      else if ((s.core k).prog.rel.isNone && ((s.handle (coreCtx k) a.h).st == 0 || ((s.handle (coreCtx k) a.h).st == 2 && a.op.writes))) ||
          (a.op.reads && badIn (s.handle (coreCtx k) a.h) a.off (a.off + a.n)) then s.modCore k fun c => { c with stall := .none }
      else scrNext (performScr s k a) k a) := by
  change execScoreboardStallEnd k s = _
  simp only [execScoreboardStallEnd, hstall]

theorem scoreboardStallEnd_waits {a : Scr} (hstall : (s.core k).stall = .scratch a)
    (hbusy : s.overlaps (coreCtx k) a.h a.off (a.off + a.n) ≠ []) : exec (.scoreboardStallEnd k) s = .next s := by
  rw [exec_scoreboardStallEnd hstall, if_pos (by simpa using hbusy)]

theorem scoreboardStallEnd_acts {a : Scr} (hstall : (s.core k).stall = .scratch a)
    (hfree : s.overlaps (coreCtx k) a.h a.off (a.off + a.n) = []) (hst : (s.handle (coreCtx k) a.h).st = 1)
    (hgood : badIn (s.handle (coreCtx k) a.h) a.off (a.off + a.n) = false) :
    exec (.scoreboardStallEnd k) s = .next (scrNext (performScr s k a) k a) := by
  rw [exec_scoreboardStallEnd hstall, if_neg (by simp [hfree]), if_neg (by simp [hst, hgood])]

/-- An access but an acquiring atomic: the core goes on to retire it. -/
theorem scrNext_steps {a : Scr} (hop : ∀ d m b c, a.op ≠ .atom d m b c true) : scrNext s k a = s.modCore k Core.hasActed := by
  unfold scrNext
  split
  next h => exact absurd h (hop _ _ _ _)
  next => rfl

theorem State.modHandle_handle_same (s : State) (x h : Nat) (f : Handle → Handle) : (s.modHandle x h f).handle x h = f (s.handle x h) := by
  rw [State.handle, State.modHandle, State.modCtx_ctx_same]
  exact tget_tput_same ..

section
variable {a : Scr} (hstall : (s.core k).stall = .scratch a) (hfree : s.overlaps (coreCtx k) a.h a.off (a.off + a.n) = [])
  (hst : (s.handle (coreCtx k) a.h).st = 1) (hgood : badIn (s.handle (coreCtx k) a.h) a.off (a.off + a.n) = false)
include hstall hfree hst hgood

/-- An access that has waited for the scoreboard acts, to state u; its core goes on. -/
theorem scoreboardStallEnd_runs (hop : ∀ d m b c, a.op ≠ .atom d m b c true) (hacts : performScr s k a = u)
    (hothers : ∀ j, j ≠ k → u.core j = s.core j) (hmem : SameMemory s u) :
    ∃ t, RunsAtCore (.scoreboardStallEnd k) k s t ∧ t.ctxs = u.ctxs ∧ (t.core k).stall = .none ∧ (t.core k).prog.step = 1 ∧
      (t.core k).c = (u.core k).c := by
  have hexec := scoreboardStallEnd_acts hstall hfree hst hgood
  rw [hacts, scrNext_steps hop] at hexec
  refine ⟨_, ⟨hexec, fun j hj => ?_, hmem⟩, rfl, ?_⟩
  · exact (State.modCore_core_other _ _ _ _ (Ne.symm hj)).trans (hothers j hj)
  · rw [State.modCore_core_same]
    exact ⟨rfl, rfl, rfl⟩

theorem scoreboardStallEnd_store {v : Nat} (hop : a.op = .store v) : ∃ t, RunsAtCore (.scoreboardStallEnd k) k s t ∧
    t.handle (coreCtx k) a.h = (s.handle (coreCtx k) a.h).store a.off a.n v ∧
    (t.core k).stall = .none ∧ (t.core k).prog.step = 1 ∧ (t.core k).c = (s.core k).c := by
  obtain ⟨t, hruns, hctxs, hend⟩ := scoreboardStallEnd_runs hstall hfree hst hgood (by simp [hop])
    (u := s.modHandle (coreCtx k) a.h fun h => h.store a.off a.n v) (by simp only [performScr, hop]) (fun _ _ => rfl) ⟨rfl, rfl, rfl⟩
  refine ⟨t, hruns, ?_, hend⟩
  rw [State.handle, State.ctx, hctxs]
  exact State.modHandle_handle_same ..

theorem scoreboardStallEnd_loadV {d : Reg} {type : Byte} (hop : a.op = .loadV d type) : ∃ t, RunsAtCore (.scoreboardStallEnd k) k s t ∧
    (t.core k).stall = .none ∧ (t.core k).prog.step = 1 ∧ (t.core k).c = (s.core k).c ∧ ∀ y, t.ctx y = if y = coreCtx k then
      (s.ctx y).putVec d { bits := BitVec.ofNat 1024 (tread (s.handle (coreCtx k) a.h).bytes a.off a.n), tag := type } else s.ctx y := by
  obtain ⟨hcores, hmem, hctx⟩ := s.putVec_touch (coreCtx k) (s.ctx (coreCtx k)).site (s.ctx (coreCtx k)).slot d
    { bits := BitVec.ofNat 1024 (tread (s.handle (coreCtx k) a.h).bytes a.off a.n), tag := type } [d]
  have hcore (j : Nat) := congrArg (fun c => tget {} c j) hcores
  obtain ⟨t, hruns, hctxs, hrun, hstep, hc⟩ := scoreboardStallEnd_runs hstall hfree hst hgood (by simp [hop])
    (by simp only [performScr, hop]; rfl) (fun j _ => hcore j) hmem
  refine ⟨t, hruns, hrun, hstep, hc.trans (congrArg Core.c (hcore k)), fun y => ?_⟩
  rw [State.ctx, hctxs]
  exact hctx y

theorem scoreboardStallEnd_load {d : Reg} (hop : a.op = .load d) : ∃ t, RunsAtCore (.scoreboardStallEnd k) k s t ∧ t.ctxs = s.ctxs ∧
    (t.core k).stall = .none ∧ (t.core k).prog.step = 1 ∧ (t.core k).c = if d = 0#5 then (s.core k).c else
      tput {} d.toNat (dataReg (BitVec.ofNat 64 (tread (s.handle (coreCtx k) a.h).bytes a.off a.n))) (s.core k).c := by
  have honly := CoreOnly.wcOf k s d (dataReg (BitVec.ofNat 64 (tread (s.handle (coreCtx k) a.h).bytes a.off a.n)))
  obtain ⟨t, hruns, hctxs, hrun, hstep, hc⟩ := scoreboardStallEnd_runs hstall hfree hst hgood (by simp [hop])
    (by simp only [performScr, hop]) honly.2 honly.aside.1
  refine ⟨t, hruns, hctxs.trans honly.aside.2, hrun, hstep, ?_⟩
  rw [hc, State.wcOf_core]

end

/-- A zero fill's entry retires (R162). -/
theorem zeroFillComplete_retires {site : Nat} {e : Entry} (hentry : tget none (s.tile site).board id = some e) (hkind : e.kind = 1) :
    RunsAside (.zeroFillComplete site id) s (s.freeEntry (site, id)) := by
  refine ⟨?_, rfl, rfl, rfl, rfl⟩
  change execZeroFillComplete site id s = _
  simp only [execZeroFillComplete, hentry, hkind, if_true]

end

end Sys2Proof.Machine

namespace Sys2Proof.Proofs

open Sys2Proof Sys2Proof.Machine

/-- Settles O43: each event's next state is stated once, with what it leaves alone; a prefetch by induction on its lines.
A trail's bytes lie where log entry 32 places them (`State.trailAddr`). -/
theorem requestsCompleteAtTheirCore : Obligations.RequestsCompleteAtTheirCore := by
  unfold Obligations.RequestsCompleteAtTheirCore
  refine ⟨?request, ?scalar, ?cap, ?vector, ?engine, ?busy, ?reply, ?prefetch, ?trail, ?stall, ?scoreboard, ?zero⟩
  case request =>
    intro s u k id got tag q hq hdone hatomic hhcasx hgather
    exact exec_loadRequest hq hdone hatomic hhcasx hgather
  case scalar =>
    intro s k id x n d sg tag st q hq hkind hdone
    exact loadReply_writes hq hdone (by rw [hkind]; rfl)
  case cap =>
    intro s k id x d keep tag st q hq hkind hdone
    exact loadReply_writes hq hdone (by rw [hkind]; rfl)
  case vector =>
    intro s k id x sel old d type tag st q hq hkind hdone
    exact loadReply_vector hq hkind hdone
  case engine =>
    intro s u cl minor n b cmp d carried e q r hengine hcxl hcopy hq hdone hkind htick hact
    exact exec_atomicEngineRequest_serves hengine hcxl hcopy hq hdone hkind htick hact
  case busy =>
    intro s cl hsome htick
    exact exec_atomicEngineRequest_waits hsome htick
  case reply =>
    intro s k id x n m b cmp d carried a tag q hq hkind hjoin hdone hkill
    obtain ⟨t, hruns, hcore⟩ := atomicReply_returns hq hkind hjoin hdone hkill
    have hfree := tget_tput_same none none id (s.core k).reqs
    refine ⟨t, hruns, ?_⟩
    rw [hcore]
    split
    next hwaits => exact ⟨hfree, rfl, fun _ => ⟨rfl, rfl, rfl⟩, fun hnot => absurd hwaits hnot⟩
    next hnot => exact ⟨hfree, rfl, fun hwaits => absurd hwaits hnot, fun _ => ⟨rfl, rfl⟩⟩
  case prefetch =>
    intro s u k va len pa hpos hlen hdev hpage hroom
    exact prefRequest_fills hpos hlen hdev hpage hroom
  case trail =>
    intro s k hframes
    exact ⟨⟨_, trailSpill_writes hframes, rfl⟩, fun id line q hq hne hline => ⟨_, trailRefill_reads hframes hq hne hline, rfl⟩⟩
  case stall =>
    intro s k es hstall
    refine ⟨fun hroom => ?_, trailStallEnd_waits hstall⟩
    obtain ⟨t, hruns, hcore⟩ := trailStallEnd_appends hstall hroom
    refine ⟨t, hruns, ?_⟩
    rw [hcore]
    exact ⟨rfl, rfl, rfl⟩
  case scoreboard =>
    intro s k a hstall
    exact ⟨fun hfree hst hgood => ⟨fun v hop => scoreboardStallEnd_store hstall hfree hst hgood hop,
      fun d type hop => scoreboardStallEnd_loadV hstall hfree hst hgood hop, fun d hop => scoreboardStallEnd_load hstall hfree hst hgood hop⟩,
      scoreboardStallEnd_waits hstall⟩
  case zero =>
    intro s site id e hentry hkind
    exact ⟨_, zeroFillComplete_retires hentry hkind, rfl⟩

end Sys2Proof.Proofs

/-! PROOFS. What the trail forwards after a store (O16). A segment's byte is read through its granule's entry; each granule write of a store
lays its bytes over what the segment held. -/

namespace Sys2Proof.Machine

open Sys2Proof

/-! Bytes and bits of numbers (R4). -/

theorem foldl_bytes_lt {f : Nat → Nat} (hf : ∀ i, f i < 256) (n : Nat) :
    (List.range n).foldl (fun x i => x + f i * 256 ^ i) 0 < 256 ^ n := by
  induction n with
  | zero => exact Nat.one_pos
  | succ n ih =>
    rw [List.range_succ, List.foldl_append, List.foldl_cons, List.foldl_nil, Nat.pow_succ]
    have := Nat.mul_le_mul_right (256 ^ n) (Nat.le_of_lt_succ (hf n))
    omega

/-- A number put together from bytes has each of them at its place. -/
theorem foldl_bytes_byte {f : Nat → Nat} (hf : ∀ i, f i < 256) {n i : Nat} (hi : i < n) :
    (List.range n).foldl (fun x i => x + f i * 256 ^ i) 0 / 256 ^ i % 256 = f i := by
  induction n with
  | zero => omega
  | succ n ih =>
    rw [List.range_succ, List.foldl_append, List.foldl_cons, List.foldl_nil]
    rcases Nat.lt_succ_iff_lt_or_eq.mp hi with hlt | rfl
    · obtain ⟨d, rfl⟩ := Nat.exists_eq_add_of_lt hlt
      rw [show f (i + d + 1) * 256 ^ (i + d + 1) = f (i + d + 1) * 256 ^ d * 256 * 256 ^ i by ring,
        Nat.add_mul_div_right _ _ (by positivity), Nat.add_mul_mod_self_right, ih hlt]
    · rw [Nat.add_mul_div_right _ _ (by positivity), Nat.div_eq_of_lt (foldl_bytes_lt hf i), Nat.zero_add, Nat.mod_eq_of_lt (hf i)]

theorem mixBytes_byte {n i : Nat} (mask old new : Nat) (hi : i < n) :
    mixBytes n mask old new / 256 ^ i % 256 = (if mask / 2 ^ i % 2 == 1 then new else old) / 256 ^ i % 256 :=
  foldl_bytes_byte (fun _ => Nat.mod_lt _ (by decide)) hi

theorem mixBytes_lt (n mask old new : Nat) : mixBytes n mask old new < 256 ^ n := foldl_bytes_lt (fun _ => Nat.mod_lt _ (by decide)) n

theorem bitAt_or {w : Nat} (a b : BitVec w) (i : Nat) : bitAt (a ||| b) i = (bitAt a i || bitAt b i) := by
  have h : ∀ v : BitVec w, bitAt v i = v.toNat.testBit i := fun v => by
    rw [Nat.testBit_eq_decide_div_mod_eq]; exact beq_eq_decide _ _
  rw [h, h, h, BitVec.toNat_or, Nat.testBit_or]

/-- A run of n ones above o zeros. -/
theorem bitAt_ones {w n o i : Nat} (hi : i < w) :
    bitAt (BitVec.ofNat w ((2 ^ n - 1) * 2 ^ o)) i = decide (o ≤ i ∧ i < o + n) := by
  have hbit : bitAt (BitVec.ofNat w ((2 ^ n - 1) * 2 ^ o)) i = (((2 ^ n - 1) * 2 ^ o) % 2 ^ w).testBit i := by
    rw [Nat.testBit_eq_decide_div_mod_eq, ← BitVec.toNat_ofNat]; exact beq_eq_decide _ _
  rw [hbit, Nat.testBit_mod_two_pow, Nat.testBit_mul_two_pow, Nat.testBit_two_pow_sub_one]
  by_cases h : o ≤ i <;> simp [h, hi]; omega

/-! Segments (R87, R101). -/

/-- Byte i of a granule write, where it writes that byte. -/
def TrailEntry.byte (e : TrailEntry) (i : Nat) : Option Byte := if bitAt e.mask i then some (BitVec.ofNat 8 (e.data.toNat / 256 ^ i)) else none

/-- Byte va of a segment, where it holds that byte. -/
def segByte (t : List TrailEntry) (va : Nat) : Option Byte := (entryOf t (va / 16)).bind fun e => e.byte (va % 16)

/-- A core forwards from its unsealed segment first. -/
theorem Core.forward_cons (c : Core) (va : Nat) : c.forward va =
    (segByte c.trail va).or (((c.sealedSegs.filter fun g => decide (c.view < g.stamp)).reverse.map (·.entries)).findSome? (segByte · va)) := by
  change (c.trail :: _).findSome? (segByte · va) = _
  rw [List.findSome?_cons]
  cases segByte c.trail va <;> rfl

/-- A merge takes the newer entry's bytes, and keeps the older's elsewhere. -/
theorem TrailEntry.merge_byte (old new : TrailEntry) {i : Nat} (hi : i < 16) : (old.merge new).byte i = (new.byte i).or (old.byte i) := by
  have hlt : mixBytes 16 new.mask.toNat old.data.toNat new.data.toNat < 2 ^ 128 := (mixBytes_lt 16 _ _ _).trans_eq (by norm_num)
  have hdata : BitVec.ofNat 8 ((old.merge new).data.toNat / 256 ^ i) =
      BitVec.ofNat 8 ((if bitAt new.mask i then new.data.toNat else old.data.toNat) / 256 ^ i) := by
    apply BitVec.eq_of_toNat_eq
    simp only [TrailEntry.merge, BitVec.toNat_ofNat, Nat.mod_eq_of_lt hlt]
    exact mixBytes_byte _ _ _ hi
  simp only [TrailEntry.byte, hdata, show (old.merge new).mask = old.mask ||| new.mask from rfl, bitAt_or]
  cases bitAt new.mask i <;> simp

theorem entryOf_trailAdd (t : List TrailEntry) (e : TrailEntry) (g : Nat) :
    entryOf (trailAdd t e) g = if e.g = g then some (((entryOf t g).map (·.merge e)).getD e) else entryOf t g := by
  induction t with
  | nil => simp [trailAdd, entryOf]
  | cons x t ih =>
    simp only [entryOf, trailAdd] at ih ⊢
    by_cases hx : x.g = e.g
    · by_cases hg : e.g = g
      · simp [hx, hg, TrailEntry.merge]
      · simp [hx, hg, List.find?_cons_of_neg, TrailEntry.merge]
    · rw [if_neg hx]
      by_cases hg : x.g = g
      · rw [List.find?_cons_of_pos (by simpa using hg), List.find?_cons_of_pos (by simpa using hg), if_neg fun h => hx (hg.trans h.symm)]
      · rw [List.find?_cons_of_neg (by simpa using hg), List.find?_cons_of_neg (by simpa using hg), ih]

/-- A granule write lays its bytes over its granule's entry. -/
theorem segByte_trailAdd (t : List TrailEntry) (e : TrailEntry) (va : Nat) :
    segByte (trailAdd t e) va = (if e.g = va / 16 then e.byte (va % 16) else none).or (segByte t va) := by
  rw [segByte, segByte, entryOf_trailAdd]
  split
  · cases entryOf t (va / 16) with
    | none => simp
    | some x => exact x.merge_byte e (Nat.mod_lt _ (by decide))
  · rfl

/-! A store's granule writes (R86). -/

/-- The n low bytes of x written from byte o of granule g on. -/
def granulePart (g o n x : Nat) (tag : Bool) : TrailEntry :=
  { g := g, data := BitVec.ofNat 128 (x % 256 ^ n * 256 ^ o), mask := BitVec.ofNat 16 ((2 ^ n - 1) * 2 ^ o), tag := tag }

theorem granuleWrites_within {va n : Nat} (x : Nat) (tag : Bool) (hpos : 1 ≤ n) (hfit : va % 16 + n ≤ 16) :
    granuleWrites va n x tag = [granulePart (va / 16) (va % 16) n x tag] := by
  rw [granuleWrites, Nat.min_eq_left (by omega), if_neg (by omega), if_pos (Nat.le_refl n)]
  rfl

theorem granuleWrites_across {va n : Nat} (x : Nat) (tag : Bool) (hover : 16 < va % 16 + n) :
    granuleWrites va n x tag = [granulePart (va / 16) (va % 16) (16 - va % 16) x tag,
      granulePart (va / 16 + 1) 0 (n - (16 - va % 16)) (x / 256 ^ (16 - va % 16)) tag] := by
  have := Nat.mod_lt va (show 0 < 16 by decide)
  rw [granuleWrites, Nat.min_eq_right (by omega), if_neg (by omega), if_neg (by omega)]
  rfl

/-- A granule write's byte, by its address. -/
theorem granulePart_byte {g o n : Nat} (x : Nat) (tag : Bool) (hfit : o + n ≤ 16) (b : Nat) :
    (if (granulePart g o n x tag).g = b / 16 then (granulePart g o n x tag).byte (b % 16) else none) =
    if 16 * g + o ≤ b ∧ b < 16 * g + o + n then some (BitVec.ofNat 8 (x / 256 ^ (b - (16 * g + o)))) else none := by
  change (if g = b / 16 then _ else none) = _
  by_cases hg : g = b / 16
  · subst hg
    rw [if_pos rfl, TrailEntry.byte, granulePart, bitAt_ones (Nat.mod_lt _ (by decide))]
    by_cases hin : o ≤ b % 16 ∧ b % 16 < o + n
    · rw [if_pos (decide_eq_true hin), if_pos (by omega)]
      obtain ⟨j, hj⟩ := Nat.exists_eq_add_of_le hin.1
      obtain ⟨d, rfl⟩ : ∃ d, n = j + (1 + d) := ⟨n - j - 1, by omega⟩
      rw [show b - (16 * (b / 16) + o) = j by omega, hj]
      congr 1
      apply BitVec.eq_of_toNat_eq
      have hlt : x % 256 ^ (j + (1 + d)) * 256 ^ o < 2 ^ 128 := by
        calc x % 256 ^ (j + (1 + d)) * 256 ^ o < 256 ^ (j + (1 + d)) * 256 ^ o :=
              Nat.mul_lt_mul_of_pos_right (Nat.mod_lt _ (by positivity)) (by positivity)
          _ = 256 ^ (j + (1 + d) + o) := (Nat.pow_add ..).symm
          _ ≤ 256 ^ 16 := Nat.pow_le_pow_right (by decide) (by omega)
      rw [BitVec.toNat_ofNat, BitVec.toNat_ofNat, BitVec.toNat_ofNat, Nat.mod_eq_of_lt hlt, Nat.pow_add 256 o j,
        Nat.mul_comm (256 ^ o), Nat.mul_div_mul_right _ _ (by positivity), Nat.pow_add 256 j, Nat.mod_mul_right_div_self]
      exact Nat.mod_mod_of_dvd _ ⟨256 ^ d, by rw [Nat.pow_add, Nat.pow_one]⟩
    · rw [if_neg (by simpa using hin), if_neg (by omega)]
  · rw [if_neg hg, if_neg (by omega)]

/-- After a store the core forwards the stored bytes, and every other byte as before. -/
theorem Core.forward_store (c : Core) {va n : Nat} (x : Nat) (tag : Bool) (hpos : 1 ≤ n) (hn : n ≤ 16) (b : Nat) :
    ({ c with trail := trailAddAll c.trail (granuleWrites va n x tag) } : Core).forward b =
    if va ≤ b ∧ b < va + n then some (BitVec.ofNat 8 (x / 256 ^ (b - va))) else c.forward b := by
  have hva : 16 * (va / 16) + va % 16 = va := Nat.div_add_mod va 16
  rw [Core.forward_cons, Core.forward_cons c]
  dsimp only
  by_cases hfit : va % 16 + n ≤ 16
  · rw [granuleWrites_within x tag hpos hfit, trailAddAll, List.foldl_cons, List.foldl_nil, segByte_trailAdd, granulePart_byte x tag hfit, hva]
    split <;> rfl
  · have := Nat.mod_lt va (show 0 < 16 by decide)
    rw [granuleWrites_across x tag (by omega), trailAddAll, List.foldl_cons, List.foldl_cons, List.foldl_nil, segByte_trailAdd,
      segByte_trailAdd, granulePart_byte x tag (by omega), granulePart_byte _ tag (by omega), hva]
    by_cases hhigh : 16 * (va / 16 + 1) ≤ b ∧ b < va + n
    · rw [if_pos (by omega), Nat.div_div_eq_div_mul, ← Nat.pow_add]
      rw [show 16 - va % 16 + (b - (16 * (va / 16 + 1) + 0)) = b - va by omega, if_pos (show va ≤ b ∧ b < va + n by omega)]
      rfl
    · rw [if_neg (by omega)]
      by_cases hlow : va ≤ b ∧ b < va + n
      · rw [if_pos (by omega), if_pos hlow]; rfl
      · rw [if_neg (by omega), if_neg hlow]; rfl

end Sys2Proof.Machine

namespace Sys2Proof.Proofs

open Sys2Proof Sys2Proof.Machine

/-- Settles O16: what the core forwards at each address after a store (`Core.forward_store`). -/
theorem storedBytesAreForwarded : Obligations.StoredBytesAreForwarded := by
  unfold Obligations.StoredBytesAreForwarded
  intro c va n x tag hpos hn c'
  refine ⟨fun j hj => ?_, fun b hb => ?_⟩
  · rw [Core.forward_store c x tag hpos hn, if_pos (by omega), Nat.add_sub_cancel_left]
  · rw [Core.forward_store c x tag hpos hn, if_neg (by omega)]

end Sys2Proof.Proofs

/-! PROOFS. Scalar loads and stores that pass their checks (O14, O15): their bodies are said once for all forms, and run at the core that the
checker's entry leaves, which differs in the checker's state alone. -/

namespace Sys2Proof.Machine

open Sys2Proof

section
variable {i : Instr} {s s' u : State}

/-! Instructions of an activation. -/

/-- An instruction that the monitor may not run issues in an activation. -/
theorem Free.activation {j : Issue} (h : Free j s) (hmon : j.mon = false) (honly : j.monOnly = false) : s.monitor = false := by
  cases hm : s.monitor with
  | false => rfl
  | true =>
    have hmode := h.mode
    rw [hm, if_pos rfl, hmon, honly] at hmode
    rcases hmode with h | h <;> cases h

/-- A core with its checker's state set. -/
def Core.withSig (g : Sig) (c : Core) : Core := { c with sig := g }

/-- In an activation the checker's entry writes the core's checker alone. -/
theorem Checked.sets {j : Issue} {taken : Bool} (hc : Checked j s s' taken) (hmon : s.monitor = false) :
    ∃ g, s' = s.modMy (Core.withSig g) := by
  rw [Checked, hmon] at hc
  obtain ⟨_, _, g, -, -, -, -, rfl⟩ := hc
  exact ⟨g, rfl⟩

/-- A slot is free or not whatever the checker's state. -/
theorem State.freeSlot_withSig (s : State) (g : Sig) : (s.modMy (Core.withSig g)).freeSlot = s.freeSlot := by
  rw [State.freeSlot, State.modMy_my]
  rfl

theorem State.word0_withSig (s : State) (g : Sig) : (s.modMy (Core.withSig g)).word0 = s.word0 := by
  rw [State.word0, State.modMy_my]
  rfl

theorem State.declared_len (s : State) (i : Instr) : (s.declared i).len = (decl i).len := by
  unfold State.declared
  split <;> rfl

theorem State.post_pcNow (u : State) (e : Instr) : (u.post e).pcNow = u.pcNow := rfl

theorem State.modMy_pcNow {f : Core → Core} (hpc : (f u.my).pc = u.my.pc) : (u.modMy f).pcNow = u.pcNow := by
  unfold State.pcNow
  rw [State.modMy_my, hpc]
  rfl

/-! Loads (R101, R123, R124). -/

section
variable {a : Reg} {disp : Int} {n x slot : Nat} {kind : ReqKind} {tag memTag : Bool} {p : Perms} {g : Sig}

/-- A load that passes its check starts, whatever its form, with what the form reads of the core. -/
theorem exec_loadForm_starts (h : loadForm i s = some (a, disp, n, kind, tag, memTag)) : (decl i).mon = false ∧ (decl i).monOnly = false ∧
    s.declared i = decl i ∧ (∃ d, (∃ m signed, kind = .scalar d m signed) ∨ ∃ keep, kind = .cap d keep) ∧
    ∃ body : State → Act, exec i s = issue (s.declared i) body s ∧ ∀ u g, (∀ r, u.rc r = s.rc r) → u.my = s.my.withSig g →
      checkCap (s.rc a) ((s.rc a).addr + disp) n n { l := true } = none →
      body u = startLoad u kind ((s.rc a).addr + disp).toNat (placesAt ((s.rc a).addr + disp).toNat n) tag memTag := by
  cases i with
  | ld8N | ld8NLiteral | ld8S | ld8SLiteral | ld16N | ld16NLiteral | ld16S | ld16SLiteral | ld32N | ld32NLiteral | ld32S | ld32SLiteral
  | ld64 | ld64Literal =>
    cases h
    refine ⟨rfl, rfl, rfl, ⟨_, .inl ⟨_, _, rfl⟩⟩, _, rfl, fun u g hu _ hc => ?_⟩
    simp only [hu, hc]
  | ldc | ldcLiteral =>
    cases h
    refine ⟨rfl, rfl, rfl, ⟨_, .inr ⟨_, rfl⟩⟩, _, rfl, fun u g hu hmy hc => ?_⟩
    simp only [hu, hc, hmy]
    rfl
  | _ => cases h

/-- What the own trail holds of a load's bytes, and what it leaves to memory. -/
theorem splitForward_eq (c : Core) (ps : List (Nat × Nat)) : splitForward c ps = (ownBytes c ps, wantedBytes c ps) := by
  induction ps with
  | nil => rfl
  | cons p ps ih =>
    rw [splitForward, List.foldr_cons, ← splitForward, ih]
    cases hf : c.forward p.2 <;> simp [ownBytes, wantedBytes, hf, Nat.add_comm]

/-- A load that needs a byte of memory or of the trail area takes a slot and asks. -/
theorem startLoad_asks {va : Nat} {ps : List (Nat × Nat)} (hslot : u.freeSlot = some slot)
    (hwants : wantedBytes u.my ps ≠ [] ∨ u.my.refills (ps.map (·.2)) ≠ []) :
    startLoad u kind va ps tag memTag = ((u.modMy fun c => { c with reqs := tput none slot (some
      { kind := kind, v := u.my.view, va := va, want := wantedBytes u.my ps, got := ownBytes u.my ps, tag := tag, memTag := memTag
        refills := u.my.refills (ps.map (·.2)), pc := u.my.pc, word := u.word0 }) c.reqs }).post
      (if u.my.refills (ps.map (·.2)) = [] then .loadRequest u.myKey slot else .trailRefill u.myKey slot), .retire) := by
  have hno : ((wantedBytes u.my ps).isEmpty && (u.my.refills (ps.map (·.2))).isEmpty) = false := by
    rcases hwants with h | h <;> simp [h]
  simp only [startLoad, hslot, splitForward_eq, hno, Bool.false_eq_true, if_false, List.isEmpty_iff]

/-- A load that the trail's buffer holds whole delivers its bytes at once. -/
theorem startLoad_forwards {va : Nat} {ps : List (Nat × Nat)} (hslot : u.freeSlot = some slot) (hwants : wantedBytes u.my ps = [])
    (hrefills : u.my.refills (ps.map (·.2)) = []) :
    startLoad u kind va ps tag memTag = (deliver u u.myKey kind (ownBytes u.my ps) tag, .retire) := by
  simp only [startLoad, hslot, splitForward_eq, hwants, hrefills, List.isEmpty_nil, Bool.and_self, if_true]

/-- A scalar value or a capability is delivered to the register that the load names. -/
theorem deliver_loaded {d : Reg} {y : Nat} (hmon : u.monitor = false)
    (hkind : (∃ m signed, kind = .scalar d m signed) ∨ ∃ keep, kind = .cap d keep) :
    deliver u u.myKey kind y tag = u.wc (loadedReg kind y tag).1 (loadedReg kind y tag).2 := by
  have hwc : ∀ v, u.wcOf u.myKey d v = u.wc d v := fun v => by simp only [State.wc, State.wcOf, hmon, Bool.false_eq_true, if_false]; rfl
  rcases hkind with ⟨m, signed, rfl⟩ | ⟨keep, rfl⟩ <;> exact hwc _

/-! Stores (R126, R86, R107). -/

/-- A store that the segment and the trail have room for appends its granule writes. -/
theorem storeEntries_appends {es : List TrailEntry} (hstep : u.my.prog.step = 0) (hrel : u.my.prog.rel = none)
    (hseg : newGranules u.my.trail es ≤ u.segRoom u.myKey) (hroom : newGranules u.my.trail es ≤ u.trailRoom u.myKey) :
    storeEntries es u = ((u.append u.myKey es).spillNote u.myKey (u.trailTotal u.myKey), .retire) := by
  simp [storeEntries, hstep, hrel, Nat.not_lt.mpr hseg, Nat.not_lt.mpr hroom]

theorem State.trailTotal_withSig (s : State) (g : Sig) : (s.modMy (Core.withSig g)).trailTotal s.myKey = s.trailTotal s.myKey := by
  have hcore : (s.modMy (Core.withSig g)).core s.myKey = s.my.withSig g := State.modMy_core_same s _
  rw [State.trailTotal, State.sealedCount, hcore]
  rfl

theorem State.append_my (u : State) (es : List TrailEntry) :
    u.append u.myKey es = u.modMy fun c => { c with trail := trailAddAll u.my.trail es } := rfl

/-- The issuing core of an instruction that ended, but for what OnlyIssuer leaves open. -/
theorem OnlyIssuer.my {t : State} (h : OnlyIssuer u t) : ∃ c pc sig, t.my = { u.my with c := c, pc := pc, sig := sig, prog := {} } := by
  obtain ⟨c, pc, sig, hcore, -⟩ := h.mine
  exact ⟨c, pc, sig, by rw [State.my, h.near.key, hcore]⟩

theorem OnlyIssuer.memory {t : State} (h : OnlyIssuer u t) : t.rim = u.rim ∧ t.host = u.host := ⟨by rw [h.rest], by rw [h.rest]⟩

/-- Spills are posted behind an append, and nothing else. -/
theorem State.spillNote_posts (s : State) (k before : Nat) : ∃ a, s.spillNote k before = { s with agenda := a } :=
  List.foldlRecOn (motive := fun t => ∃ a, t = { s with agenda := a }) _ _ ⟨_, rfl⟩ fun _ ⟨a, h⟩ _ _ => ⟨_, by rw [h]; rfl⟩

theorem State.spillNote_kept (s : State) (k before : Nat) : (s.spillNote k before).my = s.my ∧ (s.spillNote k before).pcNow = s.pcNow ∧
    (s.spillNote k before).rim = s.rim ∧ (s.spillNote k before).host = s.host := by
  obtain ⟨a, h⟩ := s.spillNote_posts k before
  rw [h]
  exact ⟨rfl, rfl, rfl, rfl⟩

end

end

end Sys2Proof.Machine

namespace Sys2Proof.Proofs

open Sys2Proof Sys2Proof.Machine

/-- Settles O14: a load's body (`exec_loadForm_starts`) asks (`startLoad_asks`) or takes its trail's bytes (`startLoad_forwards`). -/
theorem loadsReadTheirVersion : Obligations.LoadsReadTheirVersion := by
  unfold Obligations.LoadsReadTheirVersion
  refine ⟨?asks, ?forwards⟩
  case asks =>
    intro i s s' a disp n kind tag memTag slot hform ⟨hfree, hc⟩ hcheck hslot ps spilled hwants
    obtain ⟨hmon, honly, hdecl, -, body, hexec, hbody⟩ := exec_loadForm_starts hform
    obtain ⟨g, rfl⟩ := hc.sets (hfree.activation (hdecl ▸ hmon) (hdecl ▸ honly))
    have hmy := State.modMy_my s (Core.withSig g)
    have hact := (hbody _ g hc.rc hmy hcheck).trans
      (startLoad_asks ((s.freeSlot_withSig g).trans hslot) (by rw [hmy]; exact hwants))
    obtain ⟨t, hnext, hends⟩ := issue_ends hfree hc hact (by simp [hmy, hfree.kill, Core.withSig])
    rw [State.post_pcNow, State.modMy_pcNow rfl, hc.pcNow, hmy, s.word0_withSig, State.declared_len] at hends
    exact ⟨t, hexec.trans hnext, hends⟩
  case forwards =>
    intro i s s' a disp n kind tag memTag slot hform ⟨hfree, hc⟩ hcheck hslot hmon ps hwants hrefills
    obtain ⟨-, -, -, ⟨d, hkind⟩, body, hexec, hbody⟩ := exec_loadForm_starts hform
    obtain ⟨g, rfl⟩ := hc.sets hmon
    have hmy := State.modMy_my s (Core.withSig g)
    have hact := (hbody _ g hc.rc hmy hcheck).trans
      (startLoad_forwards ((s.freeSlot_withSig g).trans hslot) (by rw [hmy]; exact hwants) (by rw [hmy]; exact hrefills))
    rw [deliver_loaded (by exact hmon) hkind, hmy] at hact
    obtain ⟨t, hnext, hends⟩ := issue_writes hfree hc hact
    exact ⟨t, hexec.trans hnext, State.declared_len s i ▸ hends⟩

/-- Settles O15: a store's body (`exec_storeForm`) appends (`storeEntries_appends`), and the spills it posts change the agenda alone. -/
theorem storesAppendToTheTrail : Obligations.StoresAppendToTheTrail := by
  unfold Obligations.StoresAppendToTheTrail
  intro i s s' a disp n x tag p hform ⟨hfree, hc⟩ hmon hstep hrel hcheck hhalf es hseg hroom
  obtain ⟨body, hexec, hbody⟩ := exec_storeForm hform
  obtain ⟨hkey, -, htrail, hprog, hseg', hroom', -⟩ := hc.rooms hmon
  have htag : ¬ (tag && !devHalf ((s.rc a).addr + disp).toNat) = true := by
    cases tag with
    | false => simp
    | true => simp [hhalf rfl]
  have hact := ((hbody s' hc.rc).2 hcheck).trans ((if_neg htag).trans (storeEntries_appends (hprog ▸ hstep) (hprog ▸ hrel)
    (by rw [htrail, hkey, hseg']; exact hseg) (by rw [htrail, hkey, hroom']; exact hroom)))
  obtain ⟨g, rfl⟩ := hc.sets hmon
  have hmy := State.modMy_my s (Core.withSig g)
  rw [State.append_my, htrail, hkey, s.trailTotal_withSig] at hact
  obtain ⟨hmy', hpc, hrim, hhost⟩ := State.spillNote_kept ((s.modMy (Core.withSig g)).modMy fun c => { c with trail := trailAddAll s.my.trail es })
    s.myKey (s.trailTotal s.myKey)
  rw [State.modMy_my, hmy] at hmy'
  rw [State.modMy_pcNow rfl, hc.pcNow] at hpc
  obtain ⟨t, hnext, hends⟩ := issue_ends hfree hc hact (by rw [hmy']; exact hfree.kill)
  rw [hpc, State.declared_len] at hends
  obtain ⟨c, pc, sg, htmy⟩ := hends.frame.my
  refine ⟨t, hexec.trans hnext, hends, by rw [htmy, hmy'], fun b => ?_, fun b => ?_⟩
  · rw [State.rimByte, hends.frame.memory.1, hrim, State.modMy_rim, State.modMy_rim, State.rimByte]
  · rw [State.hostByte, hends.frame.memory.2, hhost, State.modMy_host, State.modMy_host, State.hostByte]

end Sys2Proof.Proofs

/-! PROOFS. Acquires and phases (O24). What translating, reading and writing memory leaves alone is said once, for the releases and folds below
too. -/

namespace Sys2Proof.Machine

open Sys2Proof

/-! Two writes of one entry. -/

section
variable {α : Type}

theorem tdel_tins (k : Nat) (w : α) (t : Tbl α) : tdel k (tins k w t) = tdel k t := by
  induction t with
  | nil => simp [tins, tdel]
  | cons e t ih =>
    obtain ⟨j, v⟩ := e
    simp only [tdel] at ih ⊢
    rw [tins]
    split
    · simp
    · split
      · subst ‹k = j›
        simp
      · rw [List.filter_cons, List.filter_cons, ih]

theorem tins_tins (k : Nat) (v w : α) (t : Tbl α) : tins k v (tins k w t) = tins k v t := by
  induction t with
  | nil => simp [tins]
  | cons e t ih =>
    obtain ⟨j, x⟩ := e
    by_cases hlt : k < j
    · simp [tins, hlt]
    · by_cases heq : k = j
      · simp [tins, heq]
      · simp [tins, hlt, heq, ih]

/-- A second write replaces the first, where that was no write of the default. -/
theorem tput_tput [DecidableEq α] {d w : α} (hw : w ≠ d) (v : α) (k : Nat) (t : Tbl α) : tput d k v (tput d k w t) = tput d k v t := by
  rw [tput, tput, tput, if_neg hw]
  split
  · exact tdel_tins k w t
  · exact tins_tins k v w t

end

section
variable {s t u : State}

theorem State.modMy_modMy {f : Core → Core} (hf : f u.my ≠ {}) (g : Core → Core) : (u.modMy f).modMy g = u.modMy fun c => g (f c) := by
  have hmy := State.modMy_my u f
  rw [State.modMy, State.modCore, State.modMy_myKey, ← State.modMy_myKey u f, ← State.my, hmy, State.modMy_cores, State.modMy_myKey,
    tput_tput hf]
  rfl

/-- A core in an activation is not one that nothing has touched. -/
theorem Core.ne_default {c : Core} (h : c.act.isSome = true) : c ≠ {} := by
  rintro rfl
  cases h

/-! What memory accesses leave alone. -/

/-- Memory, its channels, slices, figures and messages to the host may differ; contexts, cores, tiles and publications do not. -/
structure MemSide (s t : State) : Prop where
  tick : t.tick = s.tick
  clusters : t.clusters = s.clusters
  tiles : t.tiles = s.tiles
  ctxs : t.ctxs = s.ctxs
  cores : t.cores = s.cores
  regions : t.regions = s.regions
  pubs : t.pubs = s.pubs
  held : t.held = s.held
  focus : t.focus = s.focus

theorem MemSide.refl (s : State) : MemSide s s := ⟨rfl, rfl, rfl, rfl, rfl, rfl, rfl, rfl, rfl⟩

theorem MemSide.trans (h : MemSide s t) (k : MemSide t u) : MemSide s u where
  tick := k.tick.trans h.tick
  clusters := k.clusters.trans h.clusters
  tiles := k.tiles.trans h.tiles
  ctxs := k.ctxs.trans h.ctxs
  cores := k.cores.trans h.cores
  regions := k.regions.trans h.regions
  pubs := k.pubs.trans h.pubs
  held := k.held.trans h.held
  focus := k.focus.trans h.focus

theorem MemSide.foldl {α : Type} {f : State → α → State} (hf : ∀ v a, MemSide v (f v a)) (l : List α) (s : State) : MemSide s (l.foldl f s) :=
  List.foldlRecOn l f (MemSide.refl s) fun v hv a _ => hv.trans (hf v a)

theorem MemSide.modSlice (s : State) (i : Nat) (f : Slice → Slice) : MemSide s (s.modSlice i f) := ⟨rfl, rfl, rfl, rfl, rfl, rfl, rfl, rfl, rfl⟩

theorem MemSide.modPart (s : State) (i : Nat) (f : Partition → Partition) : MemSide s (s.modPart i f) :=
  ⟨rfl, rfl, rfl, rfl, rfl, rfl, rfl, rfl, rfl⟩

theorem MemSide.queues (h : Queues s t) : MemSide s t := by
  obtain ⟨_, _, rfl⟩ := h
  exact ⟨rfl, rfl, rfl, rfl, rfl, rfl, rfl, rfl, rfl⟩

theorem MemSide.rimTouch (s : State) (p : Nat) (reg : Option Nat) (write : Bool) (pa n : Nat) : MemSide s (s.rimTouch p reg write pa n) :=
  .queues (s.rimTouch_queues p reg write pa n)

theorem MemSide.freeBytes (s : State) (n : Nat) : MemSide s (s.freeBytes n).2 := by
  induction n generalizing s with
  | zero => exact .refl s
  | succ n ih =>
    rw [State.freeBytes]
    have hfree : MemSide s s.free.2 := ⟨rfl, rfl, rfl, rfl, rfl, rfl, rfl, rfl, rfl⟩
    exact hfree.trans (ih _)

/-! Translations: they leave the slices' chains alone too. -/

/-- Lines in the slices' caches are as before, beside what no memory access changes. -/
structure Translates (s t : State) : Prop extends MemSide s t where
  chains : ∀ i, (t.slice i).chains = (s.slice i).chains

theorem Translates.refl (s : State) : Translates s s := ⟨.refl s, fun _ => rfl⟩

theorem Translates.trans (h : Translates s t) (k : Translates t u) : Translates s u :=
  ⟨h.toMemSide.trans k.toMemSide, fun i => (k.chains i).trans (h.chains i)⟩

theorem Translates.foldl {α : Type} {f : State → α → State} (hf : ∀ v a, Translates v (f v a)) (l : List α) (s : State) :
    Translates s (l.foldl f s) :=
  List.foldlRecOn l f (Translates.refl s) fun v hv a _ => hv.trans (hf v a)

theorem Translates.rimTouch (s : State) (p : Nat) (reg : Option Nat) (write : Bool) (pa n : Nat) :
    Translates s (s.rimTouch p reg write pa n) := by
  refine ⟨.rimTouch s p reg write pa n, fun i => ?_⟩
  obtain ⟨_, _, htouch⟩ := s.rimTouch_queues p reg write pa n
  rw [htouch]
  rfl

theorem Translates.modSlice (s : State) (i : Nat) {f : Slice → Slice} (hf : ∀ l, (f l).chains = l.chains) : Translates s (s.modSlice i f) := by
  refine ⟨.modSlice s i f, fun j => ?_⟩
  rw [State.modSlice_slice]
  split
  · subst ‹i = j›
    exact hf _
  · rfl

theorem Translates.chargeHost (s : State) (p port n : Nat) : Translates s (s.chargeHost p port n) :=
  ⟨⟨rfl, rfl, rfl, rfl, rfl, rfl, rfl, rfl, rfl⟩, fun _ => rfl⟩

theorem Translates.addStb (s : State) (p sl : Nat) (e : StbEntry) : Translates s (s.addStb p sl e) := by
  unfold State.addStb
  exact .modSlice s sl fun _ => rfl

theorem Translates.setLeaf (s : State) (p sl pteAt : Nat) (f : Nat → Nat) (reg : Option Nat) : Translates s (s.setLeaf p sl pteAt f reg) := by
  have hwrite : Translates s (s.rimWrite (s.part p) pteAt 8 (f (s.rimRead (s.part p) pteAt 8))) :=
    ⟨⟨rfl, rfl, rfl, rfl, rfl, rfl, rfl, rfl, rfl⟩, fun _ => rfl⟩
  exact (hwrite.trans (.rimTouch _ p reg true pteAt 8)).trans (.modSlice _ sl fun _ => rfl)

theorem Translates.markLeaf (s : State) (p sl pteAt pte : Nat) (f : Nat → Nat) (reg : Nat) :
    Translates s (s.markLeaf p sl pteAt pte f reg) := by
  unfold State.markLeaf
  split
  · exact .setLeaf ..
  · exact .modSlice s sl fun _ => rfl

/-- The walk's reads queue at their channels. -/
theorem Translates.walk (s : State) (p reg : Nat) (l : List Nat) :
    Translates s (l.foldl (fun s a => s.rimTouch p (some reg) false a 8) s) :=
  .foldl (fun v a => .rimTouch v p (some reg) false a 8) l s

theorem Translates.translateDev (s : State) (p sl va : Nat) (acc : Access) (reg : Nat) (v : Stamp) (dirty : Bool) :
    Translates s (translateDev s p sl va acc reg v dirty).2 := by
  unfold Machine.translateDev
  dsimp only
  split
  · rename_i hfound
    split at hfound <;> obtain ⟨-, rfl⟩ := Prod.mk.inj hfound
    · exact .refl s
    · exact .walk s p reg _
  · rename_i f w hfound
    have hwalk : Translates s w := by
      split at hfound <;> obtain ⟨-, rfl⟩ := Prod.mk.inj hfound
      · exact .refl s
      · exact .walk s p reg _
    clear hfound
    have hstb (e : StbEntry) : Translates s (w.addStb p sl e) := hwalk.trans (.addStb w p sl e)
    repeat' split
    all_goals with_reducible first
      | exact hwalk
      | exact hstb _
      | exact hwalk.trans (.markLeaf ..)
      | exact (hstb _).trans (.markLeaf ..)

theorem Translates.askAts (s : State) (p sl page : Nat) (acc : Access) (vf : Nat) (who : Asker) : Translates s (s.askAts p sl page acc vf who) := by
  unfold State.askAts
  dsimp only
  split <;> exact ⟨⟨rfl, rfl, rfl, rfl, rfl, rfl, rfl, rfl, rfl⟩, fun _ => rfl⟩

theorem Translates.translateHost (s : State) (p sl va : Nat) (acc : Access) (reg : Nat) (who : Asker) :
    Translates s (translateHost s p sl va acc reg who).2 := by
  unfold Machine.translateHost
  dsimp only
  repeat' split
  all_goals with_reducible first
    | exact .refl s
    | exact .askAts ..

theorem Translates.translateFor (s : State) (p va : Nat) (acc : Access) (reg : Nat) (v : Stamp) (who : Asker) (dirty : Bool) :
    Translates s (translateFor s p va acc reg v who dirty).2 := by
  unfold Machine.translateFor
  dsimp only
  split
  · exact .translateDev ..
  · exact .translateHost ..

theorem Translates.translate (s : State) (p va : Nat) (acc : Access) (reg : Nat) (v : Stamp) (who : Asker) :
    Translates s (translate s p va acc reg v who).2 := .translateFor ..

/-! Lines read and written. -/

theorem MemSide.chain (s : State) (p sl l : Nat) (reg : Option Nat) : MemSide s (s.chain p sl l reg).2 := by
  unfold State.chain
  dsimp only
  split
  · exact .refl s
  · exact (MemSide.rimTouch s p reg false (l * 64) 64).trans ⟨rfl, rfl, rfl, rfl, rfl, rfl, rfl, rfl, rfl⟩

theorem MemSide.readPa (s : State) (p sl pa n : Nat) (dev : Bool) (reg : Nat) (v : Option Stamp) :
    MemSide s (s.readPa p sl pa n dev reg v).2 := by
  unfold State.readPa
  dsimp only
  have hchain := MemSide.chain s p sl (pa / 64) (some reg)
  repeat' split
  all_goals with_reducible first
    | exact .refl s
    | exact hchain
    | exact hchain.trans (.freeBytes _ n)
    | exact (Translates.chargeHost ..).toMemSide

/-- A load's bytes are gathered at the slices. -/
theorem MemSide.gather (s : State) (p reg : Nat) (v : Stamp) (who : Asker) (ps : List (Nat × Nat)) (got : Nat) (tag : Bool) :
    MemSide s (gather s p reg v who got tag ps).2 := by
  induction ps generalizing s got tag with
  | nil => exact .refl s
  | cons q ps ih =>
    obtain ⟨j, va⟩ := q
    have htr := (Translates.translate s p va .load reg v who).toMemSide
    rw [Machine.gather]
    split
    · rename_i pa w hw
      rw [hw] at htr
      have hread := htr.trans (.readPa w p (w.homeOf p va) pa 1 (devHalf va) reg (some v))
      split
      · rename_i hx
        rw [hx] at hread
        exact hread.trans (ih ..)
      · rename_i hx
        rw [hx] at hread
        exact hread
    · rename_i hw
      rw [hw] at htr
      exact htr
    · rename_i hw
      rw [hw] at htr
      exact htr

theorem MemSide.areaTouch (s : State) (x : Nat) (write : Bool) (pa n : Nat) : MemSide s (s.areaTouch x write pa n) :=
  .queues (s.areaTouch_queues x write pa n)

theorem MemSide.trailTouch (s : State) (k : Nat) (write : Bool) (is : List Nat) : MemSide s (s.trailTouch k write is) := by
  unfold State.trailTouch
  split
  · exact .refl s
  · exact .foldl (fun v l => .areaTouch ..) _ s

theorem MemSide.readOwn (s : State) (va n : Nat) : MemSide s (readOwn s va n).2 := by
  unfold Machine.readOwn
  dsimp only
  have htouch := MemSide.trailTouch s s.myKey false (s.my.refills ((placesAt va n).map (·.2)))
  generalize s.trailTouch s.myKey false (s.my.refills ((placesAt va n).map (·.2))) = w at htouch ⊢
  have hgather := htouch.trans (.gather w (w.corePart w.myKey) w.myRegion w.my.view (.core w.myKey) (splitForward s.my (placesAt va n)).2
    (splitForward s.my (placesAt va n)).1 false)
  generalize Machine.gather w (w.corePart w.myKey) w.myRegion w.my.view (.core w.myKey) (splitForward s.my (placesAt va n)).1 false
    (splitForward s.my (placesAt va n)).2 = r at hgather ⊢
  obtain ⟨g, t⟩ := r
  cases g with
  | ok | abort => exact hgather
  | wait => exact hgather.trans ⟨rfl, rfl, rfl, rfl, rfl, rfl, rfl, rfl, rfl⟩

/-- The focus core and its context are those found. -/
theorem MemSide.my (h : MemSide s t) : t.myKey = s.myKey ∧ t.my = s.my ∧ t.monitor = s.monitor := by
  have htile (i : Nat) : t.tile i = s.tile i := by rw [State.tile, h.tiles]; rfl
  have hmon : t.monitor = s.monitor := by rw [State.monitor, State.mcore, htile, h.focus]; rfl
  have hkey : t.myKey = s.myKey := by
    rw [State.myKey, State.me, State.myCtx, hmon, State.mcore, htile, State.running, htile, h.focus]; rfl
  exact ⟨hkey, by rw [State.my, hkey, State.core, h.cores]; rfl, hmon⟩

/-! What the checker's entry leaves of an activation. -/

theorem Checked.prog {j : Issue} {s' : State} {taken : Bool} (hc : Checked j s s' taken) : s'.my.prog = s.my.prog := by
  obtain ⟨g, hmy⟩ := hc.my
  rw [hmy]

theorem Checked.tick {j : Issue} {s' : State} {taken : Bool} (hc : Checked j s s' taken) : s'.tick = s.tick := by rw [hc.eq]

theorem Free.act {j : Issue} {s' : State} {taken : Bool} (hf : Free j s) (hc : Checked j s s' taken) (hmon : j.mon = false)
    (honly : j.monOnly = false) : s'.my.act.isSome = true := by
  obtain ⟨g, hmy⟩ := hc.my
  rw [hmy]
  exact hf.stream.resolve_left (by rw [hf.activation hmon honly]; decide)

/-! Waits for FP (R103, R104). -/

/-- The wait of an acquire: what it was asked for is kept, and the core stalls until FP reaches its target. -/
theorem waitFp_saveAcq (hact : u.my.act.isSome = true) (a : AcqKind) (st : Stamp) (after : AfterFp) :
    waitFp (u.saveAcq a) st after = (u.modMy fun c => { c with acq := a, stall := .fp st after }, .done) := by
  rw [waitFp, State.saveAcq, State.modMy_modMy (Core.ne_default hact)]

theorem execAcqa_body : ∃ body : State → Act, exec .acqa s = issue (decl .acqa) body s ∧ ∀ u : State,
    (u.my.prog.step = 1 → body u = (u, .retire)) ∧
    (u.my.prog.step ≠ 1 → body u = waitFp (u.saveAcq .all) u.allTarget .retire) :=
  ⟨_, rfl, fun _ => ⟨fun h => if_pos h, fun h => if_neg h⟩⟩

/-- ACQ's body at an activation's step: the end, or the wait for the list's target. -/
theorem execAcq_body (a b : Reg) : ∃ body : State → Act, exec (.acq a b) s = issue (decl (.acq a b)) body s ∧ ∀ u : State,
    (u.my.prog.step = 1 → body u = (u, .retire)) ∧
    (u.my.prog.step ≠ 1 → (u.rd b).toNat = 0 → body u = waitFp (u.saveAcq (.list [])) 0 .retire) ∧
    ∀ x tag v, u.my.prog.step ≠ 1 → 1 ≤ (u.rd b).toNat → (u.rd b).toNat ≤ 64 →
      checkCap (u.rc a) (u.rc a).addr (4 * (u.rd b).toNat) 4 { l := true } = none →
      readOwn u (u.rc a).addr (4 * (u.rd b).toNat) = (.ok x tag, v) →
      body u = waitFp (v.saveAcq (.list (acqEntries (v.gridSize v.myRegion) x (u.rd b).toNat)))
        (v.listTarget v.myRegion (acqEntries (v.gridSize v.myRegion) x (u.rd b).toNat)) .retire := by
  refine ⟨_, rfl, fun u => ⟨fun h => if_pos h, fun h hn => ?_, fun x tag v h hpos hle hc hr => ?_⟩⟩
  · simp only [h, hn, if_false, if_true, Nat.not_lt_zero]
  · simp only [h, if_false, Nat.not_lt.mpr hle, Nat.ne_of_gt hpos, hc, hr]

/-- PHASE's body once its release is made. -/
theorem execPhase_body (a : Reg) : ∃ body : State → Act, exec (.phase a) s = issue (decl (.phase a)) body s ∧ ∀ u : State,
    (u.my.prog.step = 1 → body u = (u, .retire)) ∧
    ∀ st, u.my.prog.step ≠ 1 → u.my.prog.rel = some st → body u = waitFp (u.joinParts.saveAcq .all) u.allTarget .retire := by
  refine ⟨_, rfl, fun u => ⟨fun h => if_pos h, fun st h hrel => (if_neg h).trans ?_⟩⟩
  have hjoin : u.joinParts.my.prog.rel = some st := by rw [State.joinParts, State.modMy_my]; exact hrel
  simp only [withRelease, hjoin]
  rfl

/-- FP has reached the target of a wait: the view is FP, and the instruction goes on to its end. -/
theorem exec_fpWaitComplete {k : Nat} {st : Stamp} (hdue : (s.core k).due = none) (hstall : (s.core k).stall = .fp st .retire)
    (hreach : st ≤ s.fpOf k) : exec (.fpWaitComplete k) s =
      .next ((s.setView k (s.fpOf k)).modCore k fun c => { c with stall := .none, prog := { c.prog with step := 1 } }) := by
  change execFpWaitComplete k s = _
  simp only [execFpWaitComplete, hdue, hstall, hreach, if_true]

theorem exec_fpWaitComplete_waits {k : Nat} {st : Stamp} {after : AfterFp} (hdue : (s.core k).due = none)
    (hstall : (s.core k).stall = .fp st after) (hbefore : s.fpOf k < st) : exec (.fpWaitComplete k) s = .next s := by
  change execFpWaitComplete k s = _
  simp only [execFpWaitComplete, hdue, hstall, Nat.not_le.mpr hbefore, if_false]

/-- An instruction of an activation whose body waits: the state it leaves. -/
theorem issue_waits {j : Issue} {s s' v : State} {body : State → Act} (hf : Free j s) (hc : Checked j s s' false)
    (hb : body s' = (v, .done)) : issue j body s = .next v := by
  obtain ⟨g, h⟩ := issue_next hf hc hb rfl
  exact h

/-- An instruction of an activation that has nothing more to do ends. -/
theorem issue_ends_self {j : Issue} {s s' : State} {body : State → Act} (hf : Free j s) (hc : Checked j s s' false)
    (hb : body s' = (s', .retire)) : ∃ t, issue j body s = .next t ∧ Ends s t (s.pcNow + j.len) := by
  obtain ⟨t, hnext, hends⟩ := issue_ends hf hc hb (hc.kill hf)
  exact ⟨t, hnext, hc.pcNow ▸ hends.of_self hc⟩

end

end Sys2Proof.Machine

namespace Sys2Proof.Proofs

open Sys2Proof Sys2Proof.Machine

/-- Settles O24: the bodies of ACQ, ACQA and PHASE at their two steps, and FPWaitComplete between them. -/
theorem acquiresAdvanceTheView : Obligations.AcquiresAdvanceTheView := by
  unfold Obligations.AcquiresAdvanceTheView
  refine ⟨⟨?acqa, ?acqNone, ?acqList, ?acqEnd, ?acqaEnd, ?reached, ?before⟩, ?phase⟩
  case acqa =>
    intro s s' ⟨hfree, hc⟩ hstep
    obtain ⟨body, hexec, hbody⟩ := execAcqa_body (s := s)
    have hact := hfree.act hc rfl rfl
    rw [← hc.prog] at hstep
    exact ⟨_, hexec.trans (issue_waits hfree hc (((hbody s').2 hstep).trans (waitFp_saveAcq hact _ _ _))), by rw [State.allTarget, hc.tick]; rfl⟩
  case acqNone =>
    intro a b s s' ⟨hfree, hc⟩ hstep hn
    obtain ⟨body, hexec, hbody⟩ := execAcq_body (s := s) a b
    rw [← hc.prog] at hstep
    rw [← hc.rd] at hn
    exact ⟨_, hexec.trans (issue_waits hfree hc (((hbody s').2.1 hstep hn).trans (waitFp_saveAcq (hfree.act hc rfl rfl) _ _ _))), rfl⟩
  case acqList =>
    intro a b s s' v x tag ⟨hfree, hc⟩ hstep n hpos hle hcheck hread ts
    obtain ⟨body, hexec, hbody⟩ := execAcq_body (s := s) a b
    rw [← hc.prog] at hstep
    have hkept : MemSide s' v := by
      have h := MemSide.readOwn s' (s.rc a).addr (4 * n)
      rw [hread] at h
      exact h
    have hbody := (hbody s').2.2 x tag v hstep
    rw [hc.rd, hc.rc] at hbody
    refine ⟨_, hexec.trans (issue_waits hfree hc ((hbody hpos hle hcheck hread).trans (waitFp_saveAcq ?_ _ _ _))), rfl⟩
    rw [hkept.my.2.1]
    exact hfree.act hc rfl rfl
  case acqEnd =>
    intro a b s s' ⟨hfree, hc⟩ hstep
    obtain ⟨body, hexec, hbody⟩ := execAcq_body (s := s) a b
    rw [← hc.prog] at hstep
    rw [hexec]
    exact issue_ends_self hfree hc ((hbody s').1 hstep)
  case acqaEnd =>
    intro s s' ⟨hfree, hc⟩ hstep
    obtain ⟨body, hexec, hbody⟩ := execAcqa_body (s := s)
    rw [← hc.prog] at hstep
    rw [hexec]
    exact issue_ends_self hfree hc ((hbody s').1 hstep)
  case reached =>
    intro s k st hdue hstall hreach
    refine ⟨_, exec_fpWaitComplete hdue hstall hreach, ?_, ?_, ?_, fun j hj => ?_, rfl⟩
    · simp [State.setView]
    · simp [State.setView]
    · simp [State.setView]
    · rw [State.modCore_core_other _ _ _ _ (Ne.symm hj), State.setView, State.modCore_core_other _ _ _ _ (Ne.symm hj)]
  case before => exact fun s k st after hdue hstall hbefore => exec_fpWaitComplete_waits hdue hstall hbefore
  case phase =>
    intro a s s' ⟨hfree, hc⟩ hrel
    obtain ⟨body, hexec, hbody⟩ := execPhase_body (s := s) a
    obtain ⟨st, hst⟩ := Option.ne_none_iff_exists'.mp hrel
    rw [hexec, ← hc.prog]
    refine ⟨fun hstep => ?_, fun hstep => ?_⟩
    · have hact := hfree.act hc rfl rfl
      have hwait := (hbody s').2 st hstep (hc.prog ▸ hst)
      rw [waitFp_saveAcq (by rw [State.joinParts, State.modMy_my]; exact hact), State.joinParts, State.modMy_modMy (Core.ne_default hact)] at hwait
      exact ⟨_, issue_waits hfree hc hwait, by rw [State.allTarget, hc.tick]; rfl⟩
    · obtain ⟨t, hnext, hends⟩ := issue_ends_self hfree hc ((hbody s').1 hstep)
      rw [State.pcNow, hfree.activation rfl rfl] at hends
      exact ⟨t, hnext, hends⟩

end Sys2Proof.Proofs

/-! PROOFS. Atomics before their engine, and the engine's act (O19, O20). -/

namespace Sys2Proof.Machine

open Sys2Proof

section
variable {i : Instr} {s s' u : State}

section
variable {minor n x y slot : Nat} {o : Order} {d a : Reg} {carried : Stamp}

/-- The request of an atomic takes a slot and stands before its engine; one that acquires waits for the reply (R139, R141). -/
def atomGo (minor n : Nat) (o : Order) (d a : Reg) (x y slot : Nat) (carried : Stamp) (u : State) : Act :=
  let q : Req := { kind := .atomic d minor n x y carried, v := u.my.view, va := (u.rc a).addr, want := [], pc := u.my.pc, word := u.word0 }
  let t := (u.modMy fun c => { c with reqs := tput none slot (some q) c.reqs }).askEngine u.myKey slot (u.rc a).addr (clusterOf u.focus.site)
  if Order.acquires o then (t.modMy fun c => { c with stall := .reply slot }, .done) else (t, .retire)

/-- The body of every atomic: its end, its wait for the stamp it took, and, its release made, its request. -/
theorem atomic_body (minor : Nat) (o : Order) (n : Nat) (d a b : Reg) (opnd cmp : State → Nat) (pair : Bool) (s : State) :
    ∃ body : State → Act, atomic minor o n d a b opnd cmp pair s =
      issue { cr := [d, a, b] ++ if pair then [d + 1#5, b + 1#5] else [] } body s ∧ ∀ u : State,
      (u.my.prog.step = 1 → body u = (u, .retire)) ∧
      (u.my.prog.step = 2 → body u = waitFp u u.my.prog.value .retire) ∧
      ∀ slot carried, u.my.prog.step = 0 → checkCap (u.rc a) (u.rc a).addr n n { l := true, s := true } = none → u.freeSlot = some slot →
        u.duplex u.myRegion = false → (o = .rel ∨ o = .ar → u.my.prog.rel = some carried) → (o = .plain ∨ o = .acq → carried = 0) →
        body u = atomGo minor n o d a (opnd u) (cmp u) slot carried u := by
  refine ⟨_, rfl, fun u => ⟨fun hstep => if_pos hstep, fun hstep => by simp [hstep], fun slot carried hstep hc hslot hdup hrel hplain => ?_⟩⟩
  have hnote : ∀ va x y, u.noteAtom va x y minor = u := fun _ _ _ => by simp [State.noteAtom, hdup]
  cases o with
  | plain | acq =>
    obtain rfl := hplain (by simp)
    simp [hstep, hc, Order.releases, hslot, hnote, atomGo]
  | rel | ar => simp [hstep, hc, Order.releases, withRelease, hrel, hslot, hnote, atomGo]

/-- An atomic's form gives its body's operands. -/
theorem exec_atomForm (h : atomForm i s = some (minor, o, n, d, a, x, y)) : (decl i).mon = false ∧ (decl i).monOnly = false ∧
    (decl i).len = 4 ∧ s.declared i = decl i ∧ ∃ body : State → Act, exec i s = issue (s.declared i) body s ∧
    ∀ u : State, (∀ r, u.rd r = s.rd r) →
      (u.my.prog.step = 1 → body u = (u, .retire)) ∧
      (u.my.prog.step = 2 → body u = waitFp u u.my.prog.value .retire) ∧
      ∀ slot carried, u.my.prog.step = 0 → checkCap (u.rc a) (u.rc a).addr n n { l := true, s := true } = none → u.freeSlot = some slot →
        u.duplex u.myRegion = false → (o = .rel ∨ o = .ar → u.my.prog.rel = some carried) → (o = .plain ∨ o = .acq → carried = 0) →
        body u = atomGo minor n o d a x y slot carried u := by
  cases i with
  | atomAdd o' w d' a' b | atomAnd o' w d' a' b | atomOr o' w d' a' b | atomXor o' w d' a' b | atomMinS o' w d' a' b
  | atomMinN o' w d' a' b | atomMaxS o' w d' a' b | atomMaxN o' w d' a' b | atomSwap o' w d' a' b | cas o' w d' a' b
  | atomfAdd o' w d' a' b | cas2 o' d' a' b =>
    cases h
    obtain ⟨body, hexec, hbody⟩ := atomic_body _ _ _ d a b _ _ _ s
    refine ⟨rfl, rfl, rfl, rfl, body, hexec, fun u hu => ?_⟩
    simp only [← hu]
    exact hbody u
  | _ => cases h

theorem State.askEngine_my (u : State) (k id va src : Nat) : (u.askEngine k id va src).my = u.my := rfl

theorem State.askEngine_pcNow (u : State) (k id va src : Nat) : (u.askEngine k id va src).pcNow = u.pcNow := rfl

/-! The engine's stamp (R108). -/

theorem stampTick_mkStamp_le (tick org : Nat) : tick ≤ stampTick (mkStamp tick org) := by
  unfold stampTick mkStamp
  omega

/-- It lies above the line's newest version, the stamp carried and the engine's last, and not before the tick. -/
theorem atomicStamp_above (s : State) (cl : Nat) (newest carried : Stamp) :
    stampTick newest < stampTick (atomicStamp s cl newest carried) ∧ stampTick carried < stampTick (atomicStamp s cl newest carried) ∧
    s.tick ≤ stampTick (atomicStamp s cl newest carried) ∧ (s.cluster cl).engLast < stampTick (atomicStamp s cl newest carried) := by
  have h := stampTick_mkStamp_le (max s.tick (max (stampTick newest + 1) (max (stampTick carried + 1) ((s.cluster cl).engLast + 1)))) (0x1E400 + cl)
  rw [← atomicStamp] at h
  omega

end

end

end Sys2Proof.Machine

namespace Sys2Proof.Proofs

open Sys2Proof Sys2Proof.Machine

/-- Settles O19: an atomic's body (`exec_atomForm`) at its three steps. -/
theorem atomicsStandBeforeTheirEngine : Obligations.AtomicsStandBeforeTheirEngine := by
  unfold Obligations.AtomicsStandBeforeTheirEngine
  refine ⟨?asks, ?waits⟩
  case asks =>
    intro i s s' minor n o d a x y slot carried hform ⟨hfree, hc⟩ hmon hstep hcheck hslot hrel hplain hdup q u
    obtain ⟨-, -, hlen, hdecl, body, hexec, hbody⟩ := exec_atomForm hform
    have hact := (hbody s' hc.rd).2.2 slot carried
    rw [hc.prog, hc.rc] at hact
    obtain ⟨g, rfl⟩ := hc.sets hmon
    have hgo := hact hstep hcheck ((s.freeSlot_withSig g).trans hslot) hdup hrel hplain
    have hgo : body (s.modMy (Core.withSig g)) = if Order.acquires o then (u.modMy fun c => { c with stall := .reply slot }, .done) else (u, .retire) := by
      rw [hgo, atomGo, hc.rc, s.word0_withSig, State.modMy_my]
      rfl
    refine ⟨fun ho => ?_, fun ho => ?_⟩
    · rw [if_pos (by rcases ho with rfl | rfl <;> rfl)] at hgo
      exact hexec.trans (issue_waits hfree hc hgo)
    · rw [if_neg (by rcases ho with rfl | rfl <;> decide)] at hgo
      have hkill : u.my.killLater = none := by
        rw [State.askEngine_my, State.modMy_my, State.modMy_my]
        exact hfree.kill
      obtain ⟨t, hnext, hends⟩ := issue_ends hfree hc hgo hkill
      rw [State.askEngine_pcNow, State.modMy_pcNow rfl, hc.pcNow, hdecl, hlen] at hends
      exact ⟨t, hexec.trans hnext, hends⟩
  case waits =>
    intro i s s' minor n o d a x y hform ⟨hfree, hc⟩ hmon
    obtain ⟨-, -, hlen, hdecl, body, hexec, hbody⟩ := exec_atomForm hform
    obtain ⟨hend, hwait, -⟩ := hbody s' hc.rd
    rw [hc.prog] at hend hwait
    refine ⟨fun hstep => hexec.trans (issue_waits hfree hc (hwait hstep)), fun hstep => ?_⟩
    obtain ⟨t, hnext, hends⟩ := issue_ends_self hfree hc (hend hstep)
    rw [hdecl, hlen] at hends
    exact ⟨t, hexec.trans hnext, hends⟩

/-- Settles O20: the engine's act on a device line that is neither poisoned nor in a swap area. -/
theorem enginesActOnTheNewestVersion : Obligations.EnginesActOnTheNewestVersion := by
  unfold Obligations.EnginesActOnTheNewestVersion
  intro s s1 cl p reg va n pa f carried who htr hdev hclean hpublic sl r old
  obtain ⟨hnewest, hcarried, htick, hlast⟩ := atomicStamp_above r.2 cl r.1.newestStamp carried
  refine ⟨atomicStamp r.2 cl r.1.newestStamp carried, hnewest, hcarried, htick, hlast, ?_⟩
  simp only [engineAct, htr, hdev, hclean, hpublic, Bool.and_false, Bool.false_eq_true, if_false, if_true]
  rfl

end Sys2Proof.Proofs

/-! PROOFS. Releases (O23): one with nothing to publish is over at once, another seals its segment and sends its notices. -/

namespace Sys2Proof.Machine

open Sys2Proof

section
variable {s t u : State} {k : Nat}

/-! A release that is over (R92, R95, R314). -/

/-- A trigger is retired at its core and at its host's window. -/
theorem State.retireTrigger_eq (s : State) (k : Nat) : ∃ act cores vfs, s.retireTrigger k = { s with cores := cores, vfs := vfs } ∧
    (s.retireTrigger k).core k = { s.core k with act := act } ∧ ∀ j, j ≠ k → (s.retireTrigger k).core j = s.core j := by
  unfold State.retireTrigger
  cases hact : (s.core k).act with
  | none => exact ⟨(s.core k).act, _, _, rfl, rfl, fun _ _ => rfl⟩
  | some a =>
    dsimp only
    split
    · exact ⟨(s.core k).act, _, _, rfl, rfl, fun _ _ => rfl⟩
    · have hcore : (s.modCore k fun c => { c with act := some { a with released := true } }).core k =
          { s.core k with act := some { a with released := true } } := State.modCore_core_same ..
      have hothers : ∀ j, j ≠ k → (s.modCore k fun c => { c with act := some { a with released := true } }).core j = s.core j :=
        fun j hj => State.modCore_core_other _ _ _ _ (Ne.symm hj)
      repeat' split
      all_goals exact ⟨_, _, _, rfl, hcore, hothers⟩

/-- What a release leaves of its core where it holds no message: the checkpoint, and the next segment. -/
theorem State.finishRelease_quiet (ck : Option Checkpoint) (hheld : (s.core k).held = []) : ∃ act cores regions vfs,
    s.finishRelease k ck = { s with cores := cores, regions := regions, vfs := vfs } ∧
    (s.finishRelease k ck).core k = { s.core k with act := act, ckpt := ck, seg := (s.core k).seg + 1, atoms := [], digests := [] } ∧
    ∀ j, j ≠ k → (s.finishRelease k ck).core j = s.core j := by
  obtain ⟨act, cores, vfs, heq, hcore, hothers⟩ := s.retireTrigger_eq k
  let v := ((s.retireTrigger k).modCore k fun c => { c with ckpt := ck, seg := c.seg + 1, atoms := [], digests := [] }).modRegion
    (ctxRegion (coreCtx k)) fun g => { g with watch := (s.retireTrigger k).tick }
  have hcore' : v.core k = { s.core k with act := act, ckpt := ck, seg := (s.core k).seg + 1, atoms := [], digests := [] } := by
    rw [State.modRegion_core, State.modCore_core_same, hcore]
  have hothers' (j : Nat) (hj : j ≠ k) : v.core j = s.core j := by
    rw [State.modRegion_core, State.modCore_core_other _ _ _ _ (Ne.symm hj), hothers j hj]
  have hfinish : s.finishRelease k ck = v := by
    rw [State.finishRelease, State.sendHeld]
    exact if_pos (by rw [List.isEmpty_iff]; exact (congrArg Core.held hcore').trans hheld)
  have hv : v = { s with cores := v.cores, regions := v.regions, vfs := vfs } := by
    simp only [v, heq]
    rfl
  exact ⟨act, _, _, _, hfinish.trans hv, hfinish ▸ hcore', hfinish ▸ hothers'⟩

/-- An instruction's progress does not show in the state it ends in. -/
theorem Ends.of_prog {f : Core → Core} {p : Progress} {next : Nat} (hf : f u.my = { u.my with prog := p }) (h : Ends (u.modMy f) t next) :
    Ends u t next where
  frame := ((Near.of_my _ _ _ _ hf fun _ => ⟨rfl, rfl, rfl⟩).trans h.frame.near).only h.frame.prog
  regs r := by
    have hc : (u.modMy f).my.c = u.my.c := by rw [State.modMy_my, hf]
    exact (h.regs r).trans (rc_congr (u := u) (t := u.modMy f) rfl hc rfl r)
  pc := h.pc

theorem State.beginRelease_empty (ck : Option Checkpoint) (after : AfterRel) (hheld : s.heldOf k = []) (htrail : (s.core k).trail = []) :
    s.beginRelease k ck after = (.empty, s) := by
  rw [State.beginRelease, hheld, htrail]
  rfl

/-- A release that has begun waits for its publication. -/
theorem withRelease_starts {ck : Option Checkpoint} {next : State → Stamp → Act} {id : Nat} {st : Stamp} (hrel : u.my.prog.rel = none)
    (hready : u.releaseReady u.myKey = true) (hdup : u.duplex u.myRegion = false)
    (hbegin : u.beginRelease u.myKey ck .again = (.started id st, t)) : withRelease u ck next = (t, .done) := by
  simp [withRelease, hrel, hready, hdup, hbegin]

/-- A release with nothing to publish, and no message held or leaving, goes on at once. -/
theorem withRelease_empty {ck : Option Checkpoint} {next : State → Stamp → Act} (hrel : u.my.prog.rel = none)
    (hready : u.releaseReady u.myKey = true) (hdup : u.duplex u.myRegion = false) (hheld : u.heldOf u.myKey = []) (htrail : u.my.trail = [])
    (hleaving : (u.finishRelease u.myKey ck).my.leaving = []) :
    withRelease u ck next =
      next ((u.finishRelease u.myKey ck).modMy fun c => { c with prog := { c.prog with rel := some 0, compared := false } }) 0 := by
  simp [withRelease, hrel, hready, hdup, State.beginRelease_empty ck .again hheld htrail, hleaving]

/-! A release that seals its segment (R89, R90, R92). -/

/-- Posts one by one are posts together. -/
theorem foldl_post {α : Type} (f : α → Instr) (l : List α) (s : State) :
    l.foldl (fun s e => s.post (f e)) s = s.postAll (l.map fun e => .event (f e)) := by
  induction l generalizing s with
  | nil => exact s.postAll_nil.symm
  | cons a l ih =>
    rw [List.foldl_cons, ih]
    exact State.postAll_append s [.event (f a)] _

/-- The notices of a publication are posted to its shares' slices. -/
theorem State.sendNotices_some {id : Nat} {p : Pub} (h : s.pub id = some p) (flip : Bool) : s.sendNotices id flip =
    s.postAll (p.shares.map fun e => .event (if flip then .flipNotice id e.1 true else .sliceNotice id e.1 true)) := by
  simp only [State.sendNotices, h]
  exact foldl_post (fun e => if flip then .flipNotice id e.1 true else .sliceNotice id e.1 true) p.shares s

/-- The publication of core k's unsealed segment ws under a stamp. -/
def State.newPub (s : State) (k : Nat) (st : Stamp) (ws : List TrailEntry) (ck : Option Checkpoint) (after : AfterRel) : Pub :=
  { part := s.corePart k, region := ctxRegion (coreCtx k), core := k, stamp := st, shares := sharesOf (s.part (s.corePart k)) ws, ckpt := ck,
    after := after }

/-- Core k after its unsealed segment was sealed as a publication. -/
def Core.seal (id : Nat) (st : Stamp) (c : Core) : Core :=
  { c with trail := [], stall := .release id, sealedSegs := c.sealedSegs ++ [{ pub := id, stamp := st, entries := c.trail }] }

/-- The held chunks of core k's segment go with its publication (R176). -/
def State.pubHeld (s : State) (k id : Nat) : State :=
  { s with held := s.held.map fun (h : Held) => if h.core == k && h.pub.isNone then { h with pub := some id } else h }

theorem State.pubHeld_kept (s : State) (k id : Nat) : (s.pubHeld k id).pubs = s.pubs ∧ (s.pubHeld k id).ctxs = s.ctxs ∧
    (s.pubHeld k id).tiles = s.tiles ∧ (s.pubHeld k id).cores = s.cores ∧ (s.pubHeld k id).agenda = s.agenda ∧
    (s.pubHeld k id).focus = s.focus := ⟨rfl, rfl, rfl, rfl, rfl, rfl⟩

/-- The state of a release whose pages have been translated, its notices not yet sent. -/
def State.sealSeg (s : State) (k : Nat) (ws : List TrailEntry) (ck : Option Checkpoint) (after : AfterRel) : State :=
  (((s.takeStamp k).2.bump.setPub s.seq (some (s.newPub k (s.takeStamp k).1 ws ck after))).pubHeld k s.seq).modCore k
    (Core.seal s.seq (s.takeStamp k).1)

theorem State.sealSeg_pubs (s : State) (k : Nat) (ws : List TrailEntry) (ck : Option Checkpoint) (after : AfterRel) :
    (s.sealSeg k ws ck after).pubs = tput none s.seq (some (s.newPub k (s.takeStamp k).1 ws ck after)) s.pubs := rfl

theorem MemSide.translatePages (s : State) (p reg : Nat) (st : Stamp) (who : Asker) (ws : List TrailEntry) (l : List Nat) :
    MemSide s (translatePages s p reg st who ws l).2 := by
  induction l generalizing s with
  | nil => exact .refl s
  | cons pg l ih =>
    rw [Machine.translatePages]
    dsimp only
    split
    · exact .refl s
    · have htr := (Translates.translate s p (((ws.filter fun e => e.g / 4096 == pg).map (·.g)).min?.getD 0 * 16)
        (if (ws.filter fun e => e.g / 4096 == pg).any (·.tag) then .tstore else .store) reg st who).toMemSide
      split
      · rename_i hw
        rw [hw] at htr
        exact htr.trans (ih _)
      · rename_i hw
        rw [hw] at htr
        exact htr
      · rename_i hw
        rw [hw] at htr
        exact htr

theorem MemSide.stamps (h : MemSide s t) (k : Nat) : t.coreId k = s.coreId k ∧ t.originOf k = s.originOf k ∧ t.corePart k = s.corePart k := by
  refine ⟨?_, ?_, ?_⟩
  · rw [State.coreId, State.ctx, h.ctxs]; rfl
  · rw [State.originOf, State.ctx, h.ctxs]; rfl
  · rw [State.corePart, State.ctxPart, State.region, h.regions]; rfl

/-- A monitor's update that keeps its mode and context leaves the focus core's key. -/
theorem State.modMcore_keeps_key (s : State) (c : CoreId) {f : MCore → MCore} (hf : ∀ m, (f m).mode = m.mode ∧ (f m).trapCtx = m.trapCtx) :
    (s.modMcore c f).myKey = s.myKey := by
  have hmcore (d : CoreId) : ((s.modMcore c f).mcore d).mode = (s.mcore d).mode ∧ ((s.modMcore c f).mcore d).trapCtx = (s.mcore d).trapCtx := by
    unfold State.mcore State.modMcore
    rw [State.modTile_tile]
    split
    · rename_i hsite
      rw [hsite]
      cases hc : c.compute <;> cases hd : d.compute <;> simp [Tile.mcore, hf]
    · exact ⟨rfl, rfl⟩
  have hslots := State.modMcore_slots s c f s.focus.site
  rw [State.myKey, State.me, State.myCtx, State.monitor, State.modMcore_focus, (hmcore s.focus).1, (hmcore s.focus).2, State.running, hslots.1,
    hslots.2]
  rfl

/-- The state of a release under way: its core's segment is sealed, the stamp taken and the publication entered. -/
theorem State.sealSeg_kept (s : State) (k : Nat) (ws : List TrailEntry) (ck : Option Checkpoint) (after : AfterRel) :
    (s.sealSeg k ws ck after).myKey = s.myKey ∧ (s.sealSeg k ws ck after).core k = (s.core k).seal s.seq (s.takeStamp k).1 ∧
    (s.sealSeg k ws ck after).coreId k = s.coreId k ∧ ((s.sealSeg k ws ck after).mcore (s.coreId k)).stampTick = some s.tick ∧
    (s.sealSeg k ws ck after).agenda = s.agenda := by
  have hstamp : (s.takeStamp k).2 = s.modMcore (s.coreId k) fun m => { m with stampTick := some s.tick } := rfl
  have htile (i : Nat) : (s.sealSeg k ws ck after).tile i = (s.takeStamp k).2.tile i := by
    simp only [State.tile, State.sealSeg, State.modCore_tiles, State.pubHeld_kept, State.setPub_tiles, State.bump_tiles]
  have hctx (x : Nat) : (s.sealSeg k ws ck after).ctx x = s.ctx x := by
    simp only [State.ctx, State.sealSeg, State.modCore_ctxs, State.pubHeld_kept, State.setPub_ctxs, State.bump_ctxs, hstamp, State.modMcore_ctxs]
  have hfocus : (s.sealSeg k ws ck after).focus = s.focus := by
    simp only [State.sealSeg, State.modCore_focus, State.pubHeld_kept, State.setPub_focus, State.bump_focus, hstamp, State.modMcore_focus]
  refine ⟨?_, ?_, by simp only [State.coreId, hctx], ?_, ?_⟩
  · rw [← s.modMcore_keeps_key (s.coreId k) (f := fun m => { m with stampTick := some s.tick }) fun _ => ⟨rfl, rfl⟩, ← hstamp]
    have hfocus' : (s.takeStamp k).2.focus = s.focus := rfl
    simp only [State.myKey, State.me, State.myCtx, State.monitor, State.mcore, State.running, htile, hfocus, hfocus']
  · rw [State.sealSeg, State.modCore_core_same]
    simp only [State.core, State.pubHeld_kept, State.setPub_cores, State.bump_cores, hstamp, State.modMcore_cores]
  · rw [State.mcore, htile, hstamp]
    exact congrArg MCore.stampTick (s.modMcore_mcore (s.coreId k) fun m => { m with stampTick := some s.tick })
  · simp only [State.sealSeg, State.modCore_agenda, State.pubHeld_kept, State.setPub_agenda, State.bump_agenda, hstamp, State.modMcore_agenda]

/-- A release of the trail alone, whose pages translate, seals it under the tick's stamp and sends its notices. -/
theorem State.beginRelease_seals {s1 : State} (ck : Option Checkpoint) (after : AfterRel) (hheld : s.heldOf k = []) (htrail : (s.core k).trail ≠ [])
    (hstamp : s.mayStamp k = true)
    (hpages : translatePages s (s.corePart k) (ctxRegion (coreCtx k)) (mkStamp s.tick (s.originOf k)) (.core k) (s.core k).trail
      (pagesOf (s.core k).trail) = (none, s1)) :
    s.beginRelease k ck after = (.started s1.seq (s1.takeStamp k).1, (s1.sealSeg k (s.core k).trail ck after).postAll
      ((sharesOf (s1.part (s.corePart k)) (s.core k).trail).map fun e => .event (.sliceNotice s1.seq e.1 true))) := by
  have hkept := MemSide.translatePages s (s.corePart k) (ctxRegion (coreCtx k)) (mkStamp s.tick (s.originOf k)) (.core k) (s.core k).trail
    (pagesOf (s.core k).trail)
  rw [hpages] at hkept
  have hpub : (s1.sealSeg k (s.core k).trail ck after).pub s1.seq = some (s1.newPub k (s1.takeStamp k).1 (s.core k).trail ck after) := by
    rw [State.pub, State.sealSeg_pubs, tget_tput_same]
  have hnotices := State.sendNotices_some hpub false
  have hws : (s.heldOf k).flatMap (·.writes) ++ (s.core k).trail = (s.core k).trail := by rw [hheld]; rfl
  have hpart := (hkept.stamps k).2.2
  simp only [State.beginRelease, hws, hstamp, hpages, List.isEmpty_iff, htrail, if_false, Bool.not_true, Bool.false_eq_true]
  rw [← hpart]
  exact congrArg (Prod.mk _) hnotices

/-! REL (R133). -/

/-- What REL's body does. -/
def relBody (a : Reg) (u : State) : Act := withRelease u (some (u.relCkpt a)) fun u _ => (u, .retire)

theorem coreCtx_coreKey (x : Nat) (b : Bool) : coreCtx (coreKey x b) = x := by
  cases b <;> simp only [coreCtx, coreKey, bit01, Bool.false_eq_true, if_true, if_false] <;> omega

theorem State.releaseReady_withSig (s : State) (g : Sig) : (s.modMy (Core.withSig g)).releaseReady s.myKey = s.releaseReady s.myKey := by
  have hcore : (s.modMy (Core.withSig g)).core s.myKey = s.my.withSig g := State.modMy_core_same s _
  rw [State.releaseReady, hcore]
  rfl

/-- The checkpoint of REL: the instruction behind it, with the registers that c(A)'s low half names (R92, R133). -/
theorem Checked.relCkpt {j : Issue} {taken : Bool} (hc : Checked j s t taken) (a : Reg) : (t.relCkpt a).pc = s.my.pc + 4 ∧
    (t.relCkpt a).regs = s.my.c.filter fun e => decide ((s.rd a).toNat % 2 ^ 32 / 2 ^ e.1 % 2 = 1) := by
  obtain ⟨g, hmy⟩ := hc.my
  rw [State.relCkpt, State.mkCkpt, hc.rd, hmy]
  exact ⟨rfl, rfl⟩

end

end Sys2Proof.Machine

namespace Sys2Proof.Proofs

open Sys2Proof Sys2Proof.Machine

/-- Settles O23: REL ends where its release is empty (`withRelease_empty`), and seals its segment elsewhere (`State.beginRelease_seals`). -/
theorem releasesEndOrSeal : Obligations.ReleasesEndOrSeal := by
  unfold Obligations.ReleasesEndOrSeal
  refine ⟨?ends, ?seals⟩
  case ends =>
    intro a s s' ⟨hfree, hc⟩ hrel hready hdup hheld htrail hmsgs hleaving
    obtain ⟨g, rfl⟩ := hc.sets (hfree.activation rfl rfl)
    have hmy := State.modMy_my s (Core.withSig g)
    obtain ⟨act, cores, regions, vfs, heq, hcore, -⟩ := State.finishRelease_quiet (s := s.modMy (Core.withSig g)) (k := s.myKey)
      (some ((s.modMy (Core.withSig g)).relCkpt a)) ((congrArg Core.held hmy).trans hmsgs)
    have hkept := hc.relCkpt a
    generalize hck : (s.modMy (Core.withSig g)).relCkpt a = ck at heq hcore hkept
    generalize hu : (s.modMy (Core.withSig g)).finishRelease s.myKey (some ck) = u at heq hcore
    have hmon : u.monitor = false := by rw [heq]; exact hfree.activation rfl rfl
    have humy : u.my = { s.my.withSig g with act := act, ckpt := some ck, seg := s.my.seg + 1, atoms := [], digests := [] } := by
      rw [State.my, show u.myKey = s.myKey by rw [heq]; rfl, hcore]
      exact congrArg (fun c : Core => { c with act := act, ckpt := some ck, seg := c.seg + 1, atoms := [], digests := [] }) hmy
    have hact := withRelease_empty (u := s.modMy (Core.withSig g)) (next := fun s _ => (s, .retire)) (ck := some ck)
      (by rw [hmy]; exact hrel) ((s.releaseReady_withSig g).trans hready) hdup hheld (by rw [hmy]; exact htrail)
      (by rw [State.modMy_myKey, hu, humy]; exact hleaving)
    rw [State.modMy_myKey, hu] at hact
    obtain ⟨t, hnext, hends⟩ := issue_ends hfree hc (body := relBody a) (by rw [relBody, hck]; exact hact)
      (by rw [State.modMy_my, humy]; exact hfree.kill)
    rw [State.modMy_pcNow rfl, State.pcNow, hmon, humy] at hends
    exact ⟨t, u, hnext, hends.of_prog rfl, rfl, ⟨ck, by rw [humy], hkept⟩, by rw [humy]⟩
  case seals =>
    intro a s s' s1 ⟨hfree, hc⟩ hrel hready hdup hheld htrail hstamp k st hpages
    obtain ⟨g, rfl⟩ := hc.sets (hfree.activation rfl rfl)
    have hmy := State.modMy_my s (Core.withSig g)
    have hcore : (s.modMy (Core.withSig g)).core k = s.my.withSig g := hmy
    have hkept := MemSide.translatePages (s.modMy (Core.withSig g)) (s.corePart k) s.myRegion st (.core k) s.my.trail (pagesOf s.my.trail)
    rw [hpages] at hkept
    have htick : s1.takeStamp k = (st, (s1.takeStamp k).2) := by
      rw [State.takeStamp, hkept.tick, (hkept.stamps k).2.1]
      rfl
    have hregion : ctxRegion (coreCtx k) = s.myRegion := congrArg ctxRegion (coreCtx_coreKey s.me s.focus.compute)
    have hseal := State.beginRelease_seals (s := s.modMy (Core.withSig g)) (k := k) (s1 := s1) (some ((s.modMy (Core.withSig g)).relCkpt a)) .again
      hheld (by rw [hcore]; exact htrail) hstamp (by rw [hcore, hregion]; exact hpages)
    have hact : relBody a (s.modMy (Core.withSig g)) = _ := withRelease_starts (by rw [hmy]; exact hrel) ((s.releaseReady_withSig g).trans hready)
      hdup hseal
    obtain ⟨hkey, hcore', hid, hmcore, hagenda⟩ := s1.sealSeg_kept k s.my.trail (some ((s.modMy (Core.withSig g)).relCkpt a)) .again
    have hpub : (s1.sealSeg k s.my.trail (some ((s.modMy (Core.withSig g)).relCkpt a)) .again).pub s1.seq =
        some { part := s.corePart k, region := s.myRegion, core := k, stamp := st, shares := sharesOf (s1.part (s.corePart k)) s.my.trail
               ckpt := some ((s.modMy (Core.withSig g)).relCkpt a), after := .again } := by
      rw [State.pub, State.sealSeg_pubs, tget_tput_same, State.newPub, (hkept.stamps k).2.2, hregion, htick]
      rfl
    have hparts : (s.modMy (Core.withSig g)).corePart k = s.corePart k := rfl
    rw [hcore, hparts] at hact
    rw [show (s.my.withSig g).trail = s.my.trail from rfl] at hact
    generalize s1.sealSeg k s.my.trail (some ((s.modMy (Core.withSig g)).relCkpt a)) .again = v at hact hkey hcore' hid hmcore hagenda hpub
    have hvmy : v.my = (s.my.withSig g).seal s1.seq st := by
      rw [State.my, hkey, hkept.my.1, State.modMy_myKey, hcore', htick, State.core, hkept.cores]
      exact congrArg (Core.seal s1.seq st) hmy
    refine ⟨_, issue_waits hfree hc hact, ?_, ?_, ?_, ?_, ?_, ?_⟩
    · exact congrArg Core.trail hvmy
    · exact congrArg Core.stall hvmy
    · rw [hkept.my.2.1, hmy]
      exact congrArg Core.sealedSegs hvmy
    · change (v.mcore (v.coreId k)).stampTick = _
      rw [hid, hmcore, hkept.tick]
      rfl
    · exact hpub
    · change v.agenda ++ _ = _
      rw [hagenda]

end Sys2Proof.Proofs

/-! PROOFS. Publication (O44): notices, replies, commits and withdrawals change where a publication stands at its slices, and its last
acknowledgment ends the release. -/

namespace Sys2Proof.Machine

open Sys2Proof

section
variable {s t u : State} {id sl k : Nat} {p : Pub} {h : Share}

/-! What the slices' steps change: publications, a partition's figures, and the agenda. -/

/-- Publications, partitions and the agenda may differ, and nothing else. -/
def Publishes (s t : State) : Prop := ∃ pubs parts agenda, t = { s with pubs := pubs, parts := parts, agenda := agenda }

theorem Publishes.trans (hs : Publishes s t) (ht : Publishes t u) : Publishes s u := by
  obtain ⟨_, _, _, rfl⟩ := hs
  obtain ⟨_, _, _, rfl⟩ := ht
  exact ⟨_, _, _, rfl⟩

theorem Publishes.aside {e : Instr} (hs : Publishes s t) (hexec : exec e s = .next t) : RunsAside e s t := by
  obtain ⟨_, _, _, rfl⟩ := hs
  exact ⟨hexec, rfl, rfl, rfl, rfl⟩

theorem Publishes.setShare (s : State) (id sl : Nat) (st : ShareSt) : Publishes s (s.setShare id sl st) := ⟨_, _, _, rfl⟩

theorem Publishes.postAll (s : State) (ts : List Turn) : Publishes s (s.postAll ts) := ⟨_, _, _, rfl⟩

/-- A publication as it was changed. -/
theorem State.modPub_pub (f : Pub → Pub) (hp : s.pub id = some p) : (s.modPub id f).pub id = some (f p) := by
  rw [State.pub_modPub, hp]
  rfl

/-- A publication with one slice's share moved on. -/
def Pub.atShare (p : Pub) (sl : Nat) (st : ShareSt) : Pub :=
  { p with shares := tput none sl ((tget none p.shares sl).map fun h => { h with st := st }) p.shares }

theorem State.setShare_pub (st : ShareSt) (hp : s.pub id = some p) : (s.setShare id sl st).pub id = some (p.atShare sl st) :=
  State.modPub_pub _ hp

theorem State.shareAt_of_pub (hp : s.pub id = some p) : s.shareAt id sl = (tget none p.shares sl).map fun h => h.st := by
  rw [State.shareAt, hp]
  rfl

/-- A slice's share stands where it was put. -/
theorem State.setShare_shareAt (st : ShareSt) (hp : s.pub id = some p) (hh : tget none p.shares sl = some h) :
    (s.setShare id sl st).shareAt id sl = some st := by
  rw [State.shareAt_of_pub (State.setShare_pub st hp), Pub.atShare, tget_tput_same, hh]
  rfl

/-- Replies that are complete post the core's step. -/
theorem State.checkReplies_posts (s : State) (id : Nat) : ∃ ts, s.checkReplies id = s.postAll ts := by
  unfold State.checkReplies
  split
  · split
    · exact ⟨_, rfl⟩
    · exact ⟨[], s.postAll_nil.symm⟩
  · exact ⟨[], s.postAll_nil.symm⟩

/-- The figure of rejected notices with one more. -/
def Partition.reject (q : Partition) : Partition := { q with ctr := { q.ctr with rejects := q.ctr.rejects + 1 } }

/-- What a slice that its frontier has passed, or has not, makes of a notice (R93). -/
structure Noticed (s t : State) (id sl : Nat) (p : Pub) (st : ShareSt) : Prop where
  frame : Publishes s t
  share : t.shareAt id sl = some (if p.stamp ≤ s.frontier sl then .rejected else st)
  rejects : (t.part p.part).ctr.rejects = (s.part p.part).ctr.rejects + if p.stamp ≤ s.frontier sl then 1 else 0

theorem Noticed.rejected (hp : s.pub id = some p) (hh : tget none p.shares sl = some h) (hpassed : p.stamp ≤ s.frontier sl) (st : ShareSt) :
    Noticed s ((s.rejectAt id sl).checkReplies id) id sl p st := by
  obtain ⟨ts, hts⟩ := (s.rejectAt id sl).checkReplies_posts id
  have hreject : s.rejectAt id sl = (s.setShare id sl .rejected).modPart p.part Partition.reject := by
    simp only [State.rejectAt, hp]
    rfl
  rw [hts, hreject]
  refine ⟨⟨_, _, _, rfl⟩, ?_, ?_⟩
  · rw [if_pos hpassed]
    exact State.setShare_shareAt .rejected hp hh
  · rw [if_pos hpassed]
    exact congrArg (fun q : Partition => q.ctr.rejects) (State.modPart_part_same (s.setShare id sl .rejected) p.part Partition.reject)

theorem Noticed.stands (hp : s.pub id = some p) (hh : tget none p.shares sl = some h) (hpassed : ¬ p.stamp ≤ s.frontier sl) (st : ShareSt)
    (ts : List Turn) : Noticed s ((s.setShare id sl st).postAll ts) id sl p st := by
  refine ⟨⟨_, _, _, rfl⟩, ?_, ?_⟩
  · rw [if_neg hpassed]
    exact State.setShare_shareAt st hp hh
  · rw [if_neg hpassed]
    rfl

/-- A notice that arrives: rejected, accepted, or delayed for want of room (R93). -/
theorem State.noticeAt_noticed (hp : s.pub id = some p) (hh : tget none p.shares sl = some h) (hsent : h.st = .sent)
    (hin : p.withdrawn = false) (room : Bool) : Noticed s (s.noticeAt id sl room) id sl p (if room then .accepted else .delayed) := by
  simp only [State.noticeAt, hp, hh, hsent, hin, bne_self_eq_false, Bool.false_eq_true, if_false]
  by_cases hpassed : p.stamp ≤ s.frontier sl
  · rw [if_pos hpassed]
    exact .rejected hp hh hpassed _
  · rw [if_neg hpassed]
    cases room with
    | true =>
      obtain ⟨ts, hts⟩ := (s.setShare id sl .accepted).checkReplies_posts id
      rw [if_pos rfl, hts]
      exact .stands hp hh hpassed _ ts
    | false => exact State.postAll_nil (s.setShare id sl .delayed) ▸ Noticed.stands hp hh hpassed .delayed []

/-- A delayed notice is accepted in the end, or rejected where the frontier has passed it meanwhile (R93, R97). -/
theorem State.acceptDelayed_noticed (hp : s.pub id = some p) (hh : tget none p.shares sl = some h) (hdelayed : h.st = .delayed)
    (hin : p.withdrawn = false) : Noticed s (s.acceptDelayed id sl) id sl p .accepted := by
  simp only [State.acceptDelayed, hp, Option.bind_some, hh, hdelayed, hin, beq_self_eq_true, Bool.false_eq_true, if_false, if_true]
  by_cases hpassed : p.stamp ≤ s.frontier sl
  · rw [if_pos hpassed]
    exact .rejected hp hh hpassed _
  · rw [if_neg hpassed]
    obtain ⟨ts, hts⟩ := (s.setShare id sl .accepted).checkReplies_posts id
    rw [hts]
    exact .stands hp hh hpassed _ ts

/-! Replies, commits and withdrawals (R92, R94). -/

theorem Pub.allShares_get {f : ShareSt → Bool} (hall : p.allShares f = true) (hh : tget none p.shares sl = some h) : f h.st = true := by
  have hmem := mem_of_tget hh (by simp)
  simpa using List.all_eq_true.mp hall _ hmem

/-- A publication that its core has committed. -/
def Pub.commit (p : Pub) : Pub := { p with committed := true }

/-- A publication under a new stamp, its notices sent again. -/
def Pub.restamp (st : Stamp) (p : Pub) : Pub :=
  { p with stamp := st, shares := p.shares.map fun (e : Nat × Option Share) => (e.1, e.2.map fun h => { h with st := .sent }) }

theorem Pub.restamp_share (st : Stamp) (p : Pub) (sl : Nat) :
    tget none (p.restamp st).shares sl = (tget none p.shares sl).map fun h => { h with st := .sent } :=
  tget_map (f := fun (e : Nat × Option Share) => (e.1, e.2.map fun h => { h with st := .sent })) (fun _ => rfl) rfl p.shares

/-- A core whose sealed segment of a publication has a new stamp. -/
def Core.restamp (id : Nat) (st : Stamp) (c : Core) : Core :=
  { c with sealedSegs := c.sealedSegs.map fun (g : SealedSeg) => if g.pub == id then { g with stamp := st } else g }

/-- All its notices accepted, a release commits. -/
theorem State.releaseReplies_commits (hp : s.pub id = some p) (hopen : p.committed = false) (hin : p.withdrawn = false)
    (hall : p.allShares (· == .accepted) = true) :
    s.releaseReplies id = (s.modPub id Pub.commit).postAll (p.shares.map fun e => .event (.sliceCommit id e.1)) := by
  simp only [State.releaseReplies, hp, hopen, hin, hall, Bool.false_eq_true, if_false, if_true]
  exact foldl_post (fun e => .sliceCommit id e.1) p.shares (s.modPub id Pub.commit)

/-- The state in which a release of core k has a new stamp. -/
def State.restamped (s : State) (id k : Nat) : State :=
  ((s.takeStamp k).2.modPub id (Pub.restamp (s.takeStamp k).1)).modCore k (Core.restamp id (s.takeStamp k).1)

theorem State.takeStamp_kept (s : State) (k : Nat) : ∃ tiles, (s.takeStamp k).2 = { s with tiles := tiles } ∧
    ∀ j, (s.takeStamp k).2.core j = s.core j := ⟨_, rfl, fun _ => rfl⟩

theorem State.restamped_kept (hp : s.pub id = some p) :
    (s.restamped id k).pub id = some (p.restamp (s.takeStamp k).1) ∧ (∀ j, j ≠ k → (s.restamped id k).core j = s.core j) ∧
      ((s.restamped id k).core k).c = (s.core k).c ∧ SameMemory s (s.restamped id k) := by
  obtain ⟨tiles, hstate, hcore⟩ := s.takeStamp_kept k
  unfold State.restamped
  generalize (s.takeStamp k).1 = st
  generalize (s.takeStamp k).2 = u at hstate hcore ⊢
  have hpu : u.pub id = some p := by rw [hstate]; exact hp
  refine ⟨State.modPub_pub (Pub.restamp st) hpu, fun j hj => (State.modCore_core_other _ _ _ _ (Ne.symm hj)).trans (hcore j), ?_, ?_⟩
  · rw [← hcore k]
    rw [State.modCore_core_same]
    rfl
  · rw [hstate]
    exact ⟨rfl, rfl, rfl⟩

/-- All its notices rejected, a release takes a new stamp. -/
theorem State.releaseReplies_restamps (hp : s.pub id = some p) (hopen : p.committed = false) (hin : p.withdrawn = false)
    (hh : tget none p.shares sl = some h) (hall : p.allShares (· == .rejected) = true) (hmay : s.mayStamp p.core = true) :
    s.releaseReplies id = (s.restamped id p.core).sendNotices id (match p.after with | .flip _ _ => true | _ => false) := by
  have hno : p.allShares (· == .accepted) = false := by
    by_contra hyes
    rw [Bool.not_eq_false] at hyes
    have hacc := Pub.allShares_get (f := (· == .accepted)) hyes hh
    rw [eq_of_beq (Pub.allShares_get (f := (· == .rejected)) hall hh)] at hacc
    exact absurd hacc (by decide)
  simp only [State.releaseReplies, hp, hopen, hin, hno, hall, hmay, Bool.false_eq_true, if_false, if_true]
  rfl

/-- A committed notice is taken by its slice. -/
theorem State.commitAt_commits (hp : s.pub id = some p) (hh : tget none p.shares sl = some h) (hacc : h.st = .accepted)
    (hcom : p.committed = true) : ∃ ts, s.commitAt id sl = (s.setShare id sl .committed).postAll ts := by
  simp only [State.commitAt, hp, Option.bind_some, hh, Option.map_some, hacc, hcom, beq_self_eq_true, Bool.and_self, if_true,
    State.setShare_pub .committed hp]
  split
  · exact ⟨_, rfl⟩
  · exact ⟨[], (State.postAll_nil _).symm⟩

/-- A notice of an attempt that is not committed is removed. -/
theorem State.withdrawAt_removes (hp : s.pub id = some p) (hopen : p.committed = false) (hin : p.withdrawn = false) :
    ∃ ts, s.withdrawAt id sl = (s.setShare id sl .rejected).postAll ts := by
  have hin' : (p.atShare sl .rejected).withdrawn = false := hin
  simp only [State.withdrawAt, hp, hopen, Bool.false_eq_true, if_false, State.setShare_pub .rejected hp, hin']
  split
  · exact ⟨_, rfl⟩
  · exact ⟨[], (State.postAll_nil _).symm⟩

/-! The end of a publication (R92, R95). -/

theorem State.dropIfFolded_pubs (s : State) (id : Nat) : ∃ pubs, s.dropIfFolded id = { s with pubs := pubs } := by
  unfold State.dropIfFolded
  split
  · split
    · exact ⟨_, rfl⟩
    · exact ⟨_, rfl⟩
  · exact ⟨_, rfl⟩

theorem State.modCore_congr {f g : Core → Core} (hfg : f (s.core k) = g (s.core k)) : s.modCore k f = s.modCore k g := by
  rw [State.modCore, State.modCore, hfg]

/-- A core whose release has been published under a stamp. -/
def Core.publish (st : Stamp) (c : Core) : Core :=
  { c with tail := max c.tail st, stall := .none, prog := { c.prog with rel := some st, compared := false } }

/-- The last acknowledgment of a release that its core waits for, and that holds no message. -/
theorem State.published_ends (hp : s.pub id = some p) (hnew : p.published = false) (hcom : p.committed = true)
    (hall : p.allShares (fun x => x == .committed || x == .folded) = true) (hafter : p.after = .again)
    (hstall : (s.core p.core).stall = .release id) (halive : (s.core p.core).killed = .no) (hheld : (s.core p.core).held = []) :
    ∃ act, SameMemory s (s.published id) ∧
      (s.published id).core p.core = { (s.core p.core).publish p.stamp with
        act := act, ckpt := p.ckpt, seg := (s.core p.core).seg + 1, atoms := [], digests := [] } ∧
      ∀ j, j ≠ p.core → (s.published id).core j = s.core j := by
  let v := (s.modPub id fun p => { p with published := true }).modCore p.core fun c => { c with tail := max c.tail p.stamp }
  have hv : v.core p.core = { s.core p.core with tail := max (s.core p.core).tail p.stamp } := State.modCore_core_same ..
  let w := v.modCore p.core fun c => { c with stall := .none, prog := { c.prog with rel := some p.stamp, compared := false } }
  have hw : w.core p.core = (s.core p.core).publish p.stamp := (State.modCore_core_same ..).trans (by rw [hv]; rfl)
  have hothers (j : Nat) (hj : j ≠ p.core) : w.core j = s.core j :=
    (State.modCore_core_other _ _ _ _ (Ne.symm hj)).trans (State.modCore_core_other _ _ _ _ (Ne.symm hj))
  have hmem : w.rim = s.rim ∧ w.rimTags = s.rimTags ∧ w.host = s.host := by simp [w, v]
  have hpublished : s.published id = (w.finishRelease p.core p.ckpt).dropIfFolded id := by
    simp only [State.published, hp, hnew, hcom, hall, hafter, Bool.not_true, Bool.or_false, Bool.false_eq_true, if_false]
    refine congrArg (fun x : State => (x.finishRelease p.core p.ckpt).dropIfFolded id) (State.modCore_congr ?_)
    simp [hstall, halive]
  clear_value w
  obtain ⟨act, cores, regions, vfs, heq, hcore, hrest⟩ := State.finishRelease_quiet (s := w) (k := p.core) p.ckpt (by rw [hw]; exact hheld)
  obtain ⟨pubs, hdrop⟩ := (w.finishRelease p.core p.ckpt).dropIfFolded_pubs id
  rw [hpublished, hdrop]
  refine ⟨act, ?_, ?_, fun j hj => ?_⟩
  · rw [heq]
    exact hmem
  · change (w.finishRelease p.core p.ckpt).core p.core = _
    rw [hcore, hw]
    rfl
  · change (w.finishRelease p.core p.ckpt).core j = _
    rw [hrest j hj, hothers j hj]

end

end Sys2Proof.Machine

namespace Sys2Proof.Proofs

open Sys2Proof Sys2Proof.Machine

/-- Settles O44: the slices' steps (`State.noticeAt_noticed`, `State.acceptDelayed_noticed`, `State.commitAt_commits`,
`State.withdrawAt_removes`), the core's on its replies, and the end (`State.published_ends`). -/
theorem segmentsArePublished : Obligations.SegmentsArePublished := by
  unfold Obligations.SegmentsArePublished
  refine ⟨?notice, ?delayed, ?replies, ?acks, ?published⟩
  case notice =>
    intro s e pub sl room p h he hp hh hsent hin
    obtain ⟨hframe, hshare, hrejects⟩ := State.noticeAt_noticed hp hh hsent hin room
    refine ⟨s.noticeAt pub sl room, hframe.aside ?_, ?_, hrejects⟩
    · rcases he with rfl | rfl <;> rfl
    · rw [hshare]
  case delayed =>
    intro s pub sl p h hp hh hdelayed hin
    obtain ⟨hframe, hshare, hrejects⟩ := State.acceptDelayed_noticed hp hh hdelayed hin
    exact ⟨s.acceptDelayed pub sl, hframe.aside rfl, hshare, hrejects⟩
  case replies =>
    intro s pub sl p h hp hh hopen hin
    refine ⟨fun hall => ?_, fun hall hmay => ?_⟩
    · have hnext : exec (.releaseReplies pub) s = .next (s.releaseReplies pub) := rfl
      rw [State.releaseReplies_commits hp hopen hin hall] at hnext
      exact ⟨_, Publishes.aside ⟨_, _, _, rfl⟩ hnext, State.modPub_pub Pub.commit hp, rfl⟩
    · have hnext : exec (.releaseReplies pub) s = .next (s.releaseReplies pub) := rfl
      obtain ⟨hpub, hothers, hc, hmem⟩ := State.restamped_kept (k := p.core) hp
      rw [State.releaseReplies_restamps hp hopen hin hh hall hmay, State.sendNotices_some hpub] at hnext
      refine ⟨_, ⟨hnext, hothers, hmem⟩, ?_, congrArg (Option.map fun q : Pub => q.stamp) hpub, hc⟩
      refine (State.shareAt_of_pub hpub).trans ?_
      rw [Pub.restamp_share, hh]
      rfl
  case acks =>
    intro s pub sl p h hp hh hacc
    refine ⟨fun hcom => ?_, fun hopen hin => ?_⟩
    · obtain ⟨ts, hts⟩ := State.commitAt_commits hp hh hacc hcom
      exact ⟨_, Publishes.aside ⟨_, _, _, rfl⟩ (congrArg Host.Outcome.next hts), State.setShare_shareAt .committed hp hh⟩
    · obtain ⟨ts, hts⟩ := State.withdrawAt_removes (sl := sl) hp hopen hin
      exact ⟨_, Publishes.aside ⟨_, _, _, rfl⟩ (congrArg Host.Outcome.next hts), State.setShare_shareAt .rejected hp hh⟩
  case published =>
    intro s pub p hp hnew hcom hall hafter hstall halive hheld
    obtain ⟨act, hmem, hcore, hothers⟩ := State.published_ends hp hnew hcom hall hafter hstall halive hheld
    exact ⟨s.published pub, ⟨rfl, hothers, hmem⟩, by rw [hcore]; rfl, by rw [hcore]; rfl, by rw [hcore]; rfl, by rw [hcore], by rw [hcore]; rfl⟩

end Sys2Proof.Proofs

/-! PROOFS. Folding, the frontier and the boundaries (O45). A line that a slice folds costs it at most one version, so a publication that the
version store has room for is folded whole. -/

namespace Sys2Proof.Machine

open Sys2Proof

/-! Sums over a table: one entry changes, one term changes. -/

section
variable {α : Type} {d : α} {k : Nat} {t : Tbl α}

theorem tget_absent (h : ∀ e ∈ t, e.1 ≠ k) : tget d t k = d := by
  induction t with
  | nil => rfl
  | cons e t ih =>
    rw [tget, if_neg (h e (by simp)), ih fun e he => h e (List.mem_cons_of_mem _ he)]

theorem tdel_absent (h : ∀ e ∈ t, e.1 ≠ k) : tdel k t = t :=
  List.filter_eq_self.2 fun e he => by simpa using h e he

/-- What f says of a table's values, summed. -/
def tsum (f : α → Nat) (t : Tbl α) : Nat := (t.map fun e => f e.2).sum

theorem tsum_tdel {f : α → Nat} (hd : f d = 0) (ht : t.Pairwise fun e e' => e.1 < e'.1) : tsum f (tdel k t) + f (tget d t k) = tsum f t := by
  induction t with
  | nil => simp [tdel, tsum, hd]
  | cons e t ih =>
    obtain ⟨hhead, htail⟩ := List.pairwise_cons.1 ht
    by_cases hk : e.1 = k
    · have habs : ∀ x ∈ t, x.1 ≠ k := fun x hx => by have := hhead x hx; omega
      have hdel : tdel k (e :: t) = t := by
        rw [tdel, List.filter_cons, if_neg (by simpa using hk)]
        exact tdel_absent habs
      rw [hdel, tget, if_pos hk, tsum, tsum, List.map_cons, List.sum_cons, Nat.add_comm]
    · have hdel : tdel k (e :: t) = e :: tdel k t := by rw [tdel, List.filter_cons, if_pos (by simpa using hk), tdel]
      have hrest := ih htail
      simp only [tsum, hdel, tget, if_neg hk, List.map_cons, List.sum_cons] at hrest ⊢
      omega

theorem tsum_tins {f : α → Nat} (hd : f d = 0) (v : α) (ht : t.Pairwise fun e e' => e.1 < e'.1) :
    tsum f (tins k v t) + f (tget d t k) = tsum f t + f v := by
  induction t with
  | nil => simp [tins, tsum, hd]
  | cons e t ih =>
    obtain ⟨j, w⟩ := e
    obtain ⟨hhead, htail⟩ := List.pairwise_cons.1 ht
    rw [tins]
    split
    · have habs : tget d ((j, w) :: t) k = d := tget_absent fun x hx => by
        rcases List.mem_cons.1 hx with rfl | hx
        · show j ≠ k; omega
        · have := hhead x hx; omega
      rw [habs, hd]
      simp [tsum, Nat.add_comm]
    · split
      · subst ‹k = j›
        simp only [tsum, tget, if_true, List.map_cons, List.sum_cons]
        omega
      · have hrest := ih htail
        rw [tget, if_neg (Ne.symm ‹¬k = j›)]
        simp only [tsum, List.map_cons, List.sum_cons] at hrest ⊢
        omega

theorem tsum_tput [DecidableEq α] {f : α → Nat} (hd : f d = 0) (v : α) (ht : Tbl.wf d t = true) :
    tsum f (tput d k v t) + f (tget d t k) = tsum f t + f v := by
  obtain ⟨-, hsorted⟩ := (Tbl.wf_iff d t).1 ht
  rw [tput]
  split
  · subst ‹v = d›
    rw [tsum_tdel hd hsorted, hd]
    rfl
  · exact tsum_tins hd v hsorted

end

section
variable {s t u : State} {p sl l n m reg : Nat}

/-! Host memory and poison bits stand beside the slices. -/

theorem Translates.host (s : State) (h : List Host.Cell) : Translates s { s with host := h } :=
  ⟨⟨rfl, rfl, rfl, rfl, rfl, rfl, rfl, rfl, rfl⟩, fun _ => rfl⟩

theorem Translates.poison (s : State) (x : Tbl Bool) : Translates s { s with poison := x } :=
  ⟨⟨rfl, rfl, rfl, rfl, rfl, rfl, rfl, rfl, rfl⟩, fun _ => rfl⟩

theorem Translates.modPart (s : State) (i : Nat) (f : Partition → Partition) : Translates s (s.modPart i f) := ⟨.modPart s i f, fun _ => rfl⟩

/-! Versions kept (R96, R99, R100). -/

/-- Versions kept of a line. -/
def versions (c : Option Chain) : Nat := (c.map fun c => c.writes.length).getD 0

theorem Slice.kept_eq (x : Slice) : x.kept = tsum versions x.chains := by
  rw [Slice.kept, tsum, List.sum_eq_foldl, List.foldl_map]
  rfl

theorem length_insertWrite (w : LineWrite) (ws : List LineWrite) : (insertWrite w ws).length = ws.length + 1 := by
  induction ws with
  | nil => rfl
  | cons x t ih =>
    rw [insertWrite]
    split
    · rfl
    · rw [List.length_cons, ih, List.length_cons]

/-- Memory alone is touched, and slice sl keeps at most n versions more; its table stays canonical. -/
structure Grows (sl n : Nat) (s t : State) : Prop extends MemSide s t where
  wf : Tbl.wf none (s.slice sl).chains = true → Tbl.wf none (t.slice sl).chains = true
  kept : Tbl.wf none (s.slice sl).chains = true → (t.slice sl).kept ≤ (s.slice sl).kept + n

theorem Translates.grows (h : Translates s t) (sl : Nat) : Grows sl 0 s t where
  toMemSide := h.toMemSide
  wf hs := by rw [h.chains]; exact hs
  kept _ := by rw [Slice.kept, h.chains]; exact Nat.le_refl _

theorem Grows.refl (sl : Nat) (s : State) : Grows sl 0 s s := (Translates.refl s).grows sl

theorem Grows.trans (h : Grows sl n s t) (k : Grows sl m t u) : Grows sl (n + m) s u where
  toMemSide := h.toMemSide.trans k.toMemSide
  wf hs := k.wf (h.wf hs)
  kept hs := by have := h.kept hs; have := k.kept (h.wf hs); omega

theorem Grows.mono (h : Grows sl n s t) (hn : n ≤ m) : Grows sl m s t := ⟨h.toMemSide, h.wf, fun hs => (h.kept hs).trans (by omega)⟩

theorem Grows.foldl {α : Type} {f : State → α → State} (hf : ∀ v a, Grows sl n v (f v a)) (l : List α) (s : State) :
    Grows sl (n * l.length) s (l.foldl f s) := by
  induction l generalizing s with
  | nil => exact .refl sl s
  | cons a l ih => exact ((hf s a).trans (ih (f s a))).mono (by rw [List.length_cons, Nat.mul_succ, Nat.add_comm])

/-- A line written anew costs the versions it then keeps. -/
theorem Grows.putChain {c c' : Chain} (hc : tget none (s.slice sl).chains l = some c) (hlen : c'.writes.length ≤ c.writes.length + 1) :
    Grows sl 1 s (s.modSlice sl fun x => { x with chains := tput none l (some c') x.chains }) where
  toMemSide := .modSlice ..
  wf hs := by
    rw [State.modSlice_slice_same]
    exact Tbl.wf_tput none (some c') l hs
  kept hs := by
    have hput := tsum_tput (f := versions) (k := l) rfl (some c') hs
    rw [hc] at hput
    rw [State.modSlice_slice_same, Slice.kept_eq, Slice.kept_eq]
    dsimp only
    simp only [versions, Option.map_some, Option.getD_some] at hput
    omega

/-- A line read from rim memory costs no version, and what makes room for it had none. -/
theorem Slice.addLine_kept {x : Slice} {c : Chain} (hc : c.writes = []) (hwf : Tbl.wf none x.chains = true) :
    Tbl.wf none (x.addLine l c).chains = true ∧ (x.addLine l c).kept ≤ x.kept := by
  have hadd {t : Tbl (Option Chain)} (ht : Tbl.wf none t = true) : tsum versions (tput none l (some c) t) ≤ tsum versions t := by
    have hput := tsum_tput (f := versions) (k := l) rfl (some c) ht
    simp only [versions, Option.map_some, hc, List.length_nil, Option.getD_some] at hput
    omega
  have hdel (j : Nat) : tsum versions (tput none j none x.chains) ≤ tsum versions x.chains := by
    have hput := tsum_tput (f := versions) (k := j) rfl none hwf
    simp only [versions, Option.map_none, Option.getD_none] at hput
    omega
  rw [Slice.kept_eq, Slice.kept_eq, Slice.addLine]
  dsimp only
  split
  · exact ⟨Tbl.wf_tput none _ l hwf, hadd hwf⟩
  · split
    · exact ⟨Tbl.wf_tput none _ l (Tbl.wf_tput none _ _ hwf), (hadd (Tbl.wf_tput none _ _ hwf)).trans (hdel _)⟩
    · exact ⟨Tbl.wf_tput none _ l hwf, hadd hwf⟩

theorem Slice.addLine_holds (x : Slice) (l : Nat) (c : Chain) : tget none (x.addLine l c).chains l = some c := tget_tput_same none (some c) l _

theorem Grows.addLine (s : State) (sl l : Nat) {c : Chain} (hc : c.writes = []) : Grows sl 0 s (s.modSlice sl fun x => x.addLine l c) where
  toMemSide := .modSlice ..
  wf hs := by
    rw [State.modSlice_slice_same]
    exact (Slice.addLine_kept hc hs).1
  kept hs := by
    rw [State.modSlice_slice_same]
    exact (Slice.addLine_kept hc hs).2

theorem Grows.chain (s : State) (p sl l : Nat) (reg : Option Nat) :
    Grows sl 0 s (s.chain p sl l reg).2 ∧ tget none ((s.chain p sl l reg).2.slice sl).chains l = some (s.chain p sl l reg).1 := by
  unfold State.chain
  dsimp only
  split
  · exact ⟨.refl sl s, ‹_›⟩
  · refine ⟨(((Translates.rimTouch ..).trans (.modPart ..)).grows sl).trans (.addLine _ sl l rfl), ?_⟩
    rw [State.modSlice_slice_same]
    exact Slice.addLine_holds ..

theorem Grows.enterWrite (s : State) (p sl l : Nat) (w : LineWrite) : Grows sl 1 s (s.enterWrite p sl l w) := by
  obtain ⟨hchain, hheld⟩ := Grows.chain s p sl l (some w.region)
  unfold State.enterWrite
  dsimp only
  generalize s.chain p sl l (some w.region) = r at hchain hheld ⊢
  have hput := hchain.trans (Grows.putChain (c' := { r.1 with writes := insertWrite w r.1.writes }) hheld
    (Nat.le_of_eq (length_insertWrite w r.1.writes)))
  generalize r.2.modSlice sl (fun x => { x with chains := tput none l (some { r.1 with writes := insertWrite w r.1.writes }) x.chains }) = v
    at hput ⊢
  generalize ({ r.1 with writes := insertWrite w r.1.writes } : Chain).newest = n
  have hwrite : Translates v ((v.rimWrite (v.part p) (l * 64) 64 n.1.toNat).setRimLineTags (v.part p) l n.2) :=
    ⟨⟨rfl, rfl, rfl, rfl, rfl, rfl, rfl, rfl, rfl⟩, fun _ => rfl⟩
  have hrim := hput.trans ((hwrite.trans (.rimTouch _ p (some w.region) true (l * 64) 64)).grows sl)
  split
  · exact hrim.trans ((Translates.poison _ _).grows sl)
  · exact hrim

theorem Translates.hostWriteLine (s : State) (p sl pa : Nat) (w : LineWrite) : Translates s (s.hostWriteLine p sl pa w) := by
  refine .foldl (fun v i => ?_) _ s
  dsimp only
  split
  · split
    · exact .chargeHost ..
    · exact (Translates.chargeHost v p _ 1).trans (.host _ _)
  · exact .refl v

/-! Folds (R96, R79, R100). -/

theorem Translates.readHeld (s : State) (p id sl : Nat) : Translates s (s.readHeld p id sl) := by
  refine .foldl (fun v h => ?_) _ s
  split
  · exact .rimTouch ..
  · exact .refl v

theorem Translates.translateClean (s : State) (p va : Nat) (acc : Access) (reg : Nat) (v : Stamp) (who : Asker) :
    Translates s (translateClean s p va acc reg v who).2 := .translateFor ..

theorem Grows.foldLine (s : State) (p sl reg : Nat) (st : Stamp) (l : Nat) (es : List TrailEntry) : Grows sl 1 s (s.foldLine p sl reg st l es) := by
  have htr := (Translates.translateClean s p (64 * l) (if es.any (·.tag) then .tstore else .store) reg st .device).grows sl
  unfold State.foldLine
  dsimp only
  split
  · rename_i hw
    rw [hw] at htr
    split
    · exact htr.trans (.enterWrite ..)
    · exact (htr.trans ((Translates.hostWriteLine ..).grows sl)).mono (by omega)
  · rename_i hw
    rw [hw] at htr
    exact htr.mono (by omega)

theorem Grows.edgeLine (s : State) (p sl reg : Nat) (f : Stamp) (g : Staging) (i : Nat) : Grows sl 1 s (s.edgeLine p sl reg f g i) := by
  unfold State.edgeLine
  dsimp only
  split
  · exact (Grows.refl sl s).mono (by omega)
  · exact (Grows.chain ..).1.trans (.enterWrite ..)

theorem Grows.flipPage (s : State) (p sl reg : Nat) (f : Stamp) (last page : Nat) : Grows sl 1024 s (s.flipPage p sl reg f last page) := by
  unfold State.flipPage
  split
  · exact (Grows.refl sl s).mono (by omega)
  · rename_i g _
    have hflip (v : State) :
        Grows sl 0 v (v.modSlice sl fun l => { l with staging := tput none page (some { g with flip := some f }) l.staging }) := by
      refine Translates.grows ?_ sl
      exact .modSlice v sl fun _ => rfl
    dsimp only
    split
    · have hedge := Grows.foldl (sl := sl) (fun v i => Grows.edgeLine v p sl reg f g i) (List.range 1024) s
      exact (hedge.trans (hflip _)).mono (by rw [List.length_range])
    · exact (hflip s).mono (by omega)

theorem Slice.noRoom_false {x : Slice} (h : x.kept < versionRoom) : x.noRoom = false := by
  rw [Slice.noRoom, decide_eq_false_iff_not]
  omega

/-- A round over items, as far as the version store of slice sl has room: each item done changes the state by f, and leaves the list of what
is to be done as drop says. -/
def roundOf {α β : Type} (sl : Nat) (f : State → α → State) (drop : α → List β → List β) (r : List β × State) (as : List α) :
    List β × State :=
  as.foldl (fun r a => if (r.2.slice sl).noRoom then r else (drop a r.1, f r.2 a)) r

section
variable {α β : Type} {f : State → α → State} {drop : α → List β → List β}

theorem roundOf_side (hf : ∀ v a, Grows sl n v (f v a)) (as : List α) (r : List β × State) : MemSide r.2 (roundOf sl f drop r as).2 := by
  induction as generalizing r with
  | nil => exact .refl r.2
  | cons a as ih =>
    rw [roundOf, List.foldl_cons]
    split
    · exact ih r
    · exact (hf r.2 a).toMemSide.trans (ih (drop a r.1, f r.2 a))

/-- Where there is room for all, all items are done. -/
theorem roundOf_all (hf : ∀ v a, Grows sl n v (f v a)) (hn : 0 < n) (as : List α) (r : List β × State)
    (hwf : Tbl.wf none (r.2.slice sl).chains = true) (hroom : (r.2.slice sl).kept + n * as.length ≤ versionRoom) :
    roundOf sl f drop r as = (as.foldl (fun x a => drop a x) r.1, as.foldl f r.2) := by
  induction as generalizing r with
  | nil => rfl
  | cons a as ih =>
    rw [List.length_cons, Nat.mul_succ] at hroom
    have hgrow := hf r.2 a
    rw [roundOf, List.foldl_cons, if_neg (by rw [Slice.noRoom_false (by omega)]; exact Bool.false_ne_true)]
    exact ih (drop a r.1, f r.2 a) (hgrow.wf hwf) (by have := hgrow.kept hwf; dsimp only; omega)

end

/-- Filters one after the other leave what none of them drops. -/
theorem mem_foldl_filter {α β : Type} {f : α → β → Bool} {as : List α} {bs : List β} {b : β} :
    b ∈ as.foldl (fun x a => x.filter (f a)) bs ↔ b ∈ bs ∧ ∀ a ∈ as, f a b = true := by
  induction as generalizing bs with
  | nil => simp
  | cons a as ih => rw [List.foldl_cons, ih, List.mem_filter, List.forall_mem_cons, and_assoc]

theorem State.foldWrites_eq (s : State) (p sl reg : Nat) (st : Stamp) (ws : List TrailEntry) : s.foldWrites p sl reg st ws =
    roundOf sl (fun v l => v.foldLine p sl reg st l (ws.filter fun e => e.g / 4 == l)) (fun l => List.filter fun e => e.g / 4 != l) (ws, s)
      (ws.map (·.g / 4)).dedup := rfl

theorem State.flipPages_eq (s : State) (p sl reg : Nat) (st : Stamp) (last : Nat) (pages : List Nat) : s.flipPages p sl reg st last pages =
    roundOf sl (fun v g => v.flipPage p sl reg st last g) (fun g => List.filter (· != g)) (pages, s) pages := rfl

theorem State.foldWrites_side (s : State) (p sl reg : Nat) (st : Stamp) (ws : List TrailEntry) : MemSide s (s.foldWrites p sl reg st ws).2 := by
  rw [State.foldWrites_eq]
  exact roundOf_side (fun v l => .foldLine ..) _ (ws, s)

theorem State.flipPages_side (s : State) (p sl reg : Nat) (st : Stamp) (last : Nat) (pages : List Nat) :
    MemSide s (s.flipPages p sl reg st last pages).2 := by
  rw [State.flipPages_eq]
  exact roundOf_side (fun v g => .flipPage ..) _ (pages, s)

/-- Where the version store has room for a version of each line, every write folds (R100; log entry 7). -/
theorem State.foldWrites_all {st : Stamp} {ws : List TrailEntry} (hwf : Tbl.wf none (s.slice sl).chains = true)
    (hroom : (s.slice sl).kept + (ws.map (·.g / 4)).dedup.length ≤ versionRoom) :
    (s.foldWrites p sl reg st ws).1 = [] ∧ Grows sl (ws.map (·.g / 4)).dedup.length s (s.foldWrites p sl reg st ws).2 := by
  have hline (v : State) (l : Nat) : Grows sl 1 v (v.foldLine p sl reg st l (ws.filter fun e => e.g / 4 == l)) := .foldLine ..
  rw [State.foldWrites_eq, roundOf_all hline Nat.one_pos _ (ws, s) hwf (by rw [Nat.one_mul]; exact hroom)]
  refine ⟨List.eq_nil_iff_forall_not_mem.2 fun e he => ?_, (Grows.foldl hline _ s).mono (by omega)⟩
  obtain ⟨hmem, hall⟩ := mem_foldl_filter.1 he
  exact absurd (hall (e.g / 4) (List.mem_dedup.2 (List.mem_map_of_mem hmem))) (by simp)

/-- Where the version store has room for them, every page flips. -/
theorem State.flipPages_all {st : Stamp} {last : Nat} {pages : List Nat} (hwf : Tbl.wf none (s.slice sl).chains = true)
    (hroom : (s.slice sl).kept + 1024 * pages.length ≤ versionRoom) : (s.flipPages p sl reg st last pages).1 = [] := by
  rw [State.flipPages_eq, roundOf_all (fun v g => Grows.flipPage ..) (by omega) _ (pages, s) hwf hroom]
  refine List.eq_nil_iff_forall_not_mem.2 fun g hg => ?_
  obtain ⟨hmem, hall⟩ := mem_foldl_filter.1 hg
  exact absurd (hall g hmem) (by simp)

/-! What ends a fold (R96, R177): chunks dropped, frames freed, pressure raised, the segment out of the table. -/

/-- Slices but for their chains, partitions, publications and held chunks may differ. -/
structure Rests (s t : State) : Prop where
  cores : t.cores = s.cores
  mem : SameMemory s t
  chains : ∀ i, (t.slice i).chains = (s.slice i).chains

theorem Rests.refl (s : State) : Rests s s := ⟨rfl, ⟨rfl, rfl, rfl⟩, fun _ => rfl⟩

theorem Rests.trans (h : Rests s t) (k : Rests t u) : Rests s u := by
  obtain ⟨hcores, ⟨hrim, htags, hhost⟩, hchains⟩ := h
  obtain ⟨kcores, ⟨krim, ktags, khost⟩, kchains⟩ := k
  exact ⟨kcores.trans hcores, ⟨krim.trans hrim, ktags.trans htags, khost.trans hhost⟩, fun i => (kchains i).trans (hchains i)⟩

theorem Rests.modPub (s : State) (id : Nat) (f : Pub → Pub) : Rests s (s.modPub id f) := ⟨rfl, ⟨rfl, rfl, rfl⟩, fun _ => rfl⟩

theorem Rests.dropIfFolded (s : State) (id : Nat) : Rests s (s.dropIfFolded id) := by
  obtain ⟨_, hdrop⟩ := s.dropIfFolded_pubs id
  rw [hdrop]
  exact ⟨rfl, ⟨rfl, rfl, rfl⟩, fun _ => rfl⟩

/-- Publications are as before too. -/
structure Tidies (s t : State) : Prop extends Rests s t where
  pubs : t.pubs = s.pubs

theorem Tidies.refl (s : State) : Tidies s s := ⟨.refl s, rfl⟩

theorem Tidies.trans (h : Tidies s t) (k : Tidies t u) : Tidies s u := ⟨h.toRests.trans k.toRests, k.pubs.trans h.pubs⟩

theorem Tidies.modSlice (s : State) (i : Nat) {f : Slice → Slice} (hf : ∀ l, (f l).chains = l.chains) : Tidies s (s.modSlice i f) :=
  ⟨⟨rfl, ⟨rfl, rfl, rfl⟩, (Translates.modSlice s i hf).chains⟩, rfl⟩

theorem Tidies.modPart (s : State) (i : Nat) (f : Partition → Partition) : Tidies s (s.modPart i f) :=
  ⟨⟨rfl, ⟨rfl, rfl, rfl⟩, fun _ => rfl⟩, rfl⟩

theorem Tidies.post (s : State) (e : Instr) : Tidies s (s.post e) := ⟨⟨rfl, ⟨rfl, rfl, rfl⟩, fun _ => rfl⟩, rfl⟩

theorem Tidies.trimOverflow (s : State) (p sl : Nat) : Tidies s (s.trimOverflow p sl) := by
  unfold State.trimOverflow
  dsimp only
  split
  · exact .refl s
  · refine Tidies.trans ?_ (.modPart ..)
    exact .modSlice s sl fun _ => rfl

theorem Tidies.dropHeld (s : State) (p : Nat) (f : Held → Bool) : Tidies s (s.dropHeld p f) := by
  have hgone : Tidies s { s with held := s.held.filter fun h => !f h } := ⟨⟨rfl, ⟨rfl, rfl, rfl⟩, fun _ => rfl⟩, rfl⟩
  refine List.foldlRecOn (s.held.filter f) _ hgone fun v hv h _ => hv.trans (Tidies.trans ?_ (.trimOverflow _ p h.slice))
  split
  · exact .refl v
  · exact .modSlice v h.slice fun _ => rfl

theorem Tidies.raisePressure (s : State) (p sl : Nat) : Tidies s (s.raisePressure p sl) := by
  unfold State.raisePressure
  split
  · exact .refl s
  · refine Tidies.trans ?_ (.modPart ..)
    exact .modSlice s sl fun _ => rfl

theorem State.dropIfFolded_pub {id : Nat} {q : Pub} (h : (s.dropIfFolded id).pub id = some q) : s.pub id = some q := by
  unfold State.dropIfFolded at h
  split at h
  · split at h
    · rw [State.pub_setPub] at h
      cases h
    · exact h
  · exact h

/-! The fold of a publication (R96, R100). -/

/-- What a slice folds of its share of a publication: the share that is left, and the state. -/
def State.foldShare (s : State) (id sl : Nat) (p : Pub) (h : Share) : Share × State :=
  let a := (if h.begun then s else s.readHeld p.part id sl).foldWrites p.part sl p.region p.stamp h.writes
  let b := if a.1.isEmpty then a.2.flipPages p.part sl p.region p.stamp p.lastPage h.pages else (h.pages, a.2)
  ({ h with writes := a.1, pages := b.1, begun := true }, b.2)

/-- A slice's share of a publication, put anew. -/
def State.putShare (s : State) (id sl : Nat) (h : Share) : State :=
  s.modPub id fun p => { p with shares := tput none sl (some h) p.shares }

/-- A share that nothing is left of is folded. -/
def State.endFold (s : State) (id sl part : Nat) : State :=
  let s := (((s.setShare id sl .folded).dropHeld part fun h => h.pub == some id && h.slice == sl).dropIfFolded id).raisePressure part sl
  if (s.foldable sl).isSome && !(s.slice sl).noRoom then s.post (.segmentFold sl) else s

section
variable {id : Nat} {p : Pub} {h : Share}

theorem State.foldAt_room (hfold : s.foldable sl = some id) (hp : s.pub id = some p) (hh : tget none p.shares sl = some h)
    (hroom : (s.slice sl).noRoom = false) : s.foldAt sl =
      let r := s.foldShare id sl p h
      if !r.1.writes.isEmpty || !r.1.pages.isEmpty then (r.2.putShare id sl r.1).raisePressure p.part sl
      else (r.2.putShare id sl r.1).endFold id sl p.part := by
  simp only [State.foldAt, hfold, hp, Option.bind_some, hh, Option.map_some, hroom, Bool.false_eq_true, if_false]
  rfl

theorem State.foldAt_full (hfold : s.foldable sl = some id) (hp : s.pub id = some p) (hh : tget none p.shares sl = some h)
    (hfull : (s.slice sl).noRoom = true) : s.foldAt sl = s.raisePressure p.part sl := by
  simp only [State.foldAt, hfold, hp, Option.bind_some, hh, Option.map_some, hfull, if_true]

theorem State.begun_translates (s : State) (id sl : Nat) (p : Pub) (h : Share) :
    Translates s (if h.begun then s else s.readHeld p.part id sl) := by
  split
  · exact .refl s
  · exact .readHeld ..

theorem State.foldShare_side (s : State) (id sl : Nat) (p : Pub) (h : Share) : MemSide s (s.foldShare id sl p h).2 := by
  have hwrites := (s.begun_translates id sl p h).toMemSide.trans (State.foldWrites_side _ p.part sl p.region p.stamp h.writes)
  unfold State.foldShare
  dsimp only
  generalize State.foldWrites _ p.part sl p.region p.stamp h.writes = a at hwrites ⊢
  split
  · exact hwrites.trans (State.flipPages_side ..)
  · exact hwrites

/-- With room for a version of each line, and for the edges of pages, nothing is left of the share. -/
theorem State.foldShare_all (hwf : Tbl.wf none (s.slice sl).chains = true)
    (hroom : (s.slice sl).kept + ((h.writes.map (·.g / 4)).dedup.length + 1024 * h.pages.length) ≤ versionRoom) :
    (s.foldShare id sl p h).1.writes = [] ∧ (s.foldShare id sl p h).1.pages = [] := by
  have hbegun := (s.begun_translates id sl p h).grows sl
  unfold State.foldShare
  dsimp only
  generalize (if h.begun then s else s.readHeld p.part id sl) = v at hbegun ⊢
  have hkept := hbegun.kept hwf
  obtain ⟨hnil, hgrow⟩ := State.foldWrites_all (p := p.part) (reg := p.region) (st := p.stamp) (hbegun.wf hwf) (ws := h.writes) (by omega)
  have hkept' := hgrow.kept (hbegun.wf hwf)
  rw [hnil, List.isEmpty_nil, if_pos rfl]
  exact ⟨rfl, State.flipPages_all (hgrow.wf (hbegun.wf hwf)) (by omega)⟩

theorem State.putShare_pub (h : Share) (hp : s.pub id = some p) :
    (s.putShare id sl h).pub id = some { p with shares := tput none sl (some h) p.shares } :=
  State.modPub_pub (fun p : Pub => { p with shares := tput none sl (some h) p.shares }) hp

theorem Rests.endFold (s : State) (id sl part : Nat) : Rests s (s.endFold id sl part) := by
  have hdrop := (Rests.modPub s id _).trans (Tidies.dropHeld (s.setShare id sl .folded) part fun h => h.pub == some id && h.slice == sl).toRests
  have hend := (hdrop.trans (.dropIfFolded _ id)).trans (Tidies.raisePressure _ part sl).toRests
  unfold State.endFold
  dsimp only
  split
  · exact hend.trans (Tidies.post ..).toRests
  · exact hend

/-- A fold that ends leaves the share folded, where its publication is still in the table. -/
theorem State.endFold_share (part : Nat) (hp : s.pub id = some p) (hh : tget none p.shares sl = some h) {x : ShareSt}
    (hx : (s.endFold id sl part).shareAt id sl = some x) : x = .folded := by
  have hpubs : (s.endFold id sl part).pubs =
      (((s.setShare id sl .folded).dropHeld part fun h => h.pub == some id && h.slice == sl).dropIfFolded id).pubs := by
    unfold State.endFold
    dsimp only
    split
    · exact (Tidies.raisePressure ..).pubs
    · exact (Tidies.raisePressure ..).pubs
  cases hq : (s.endFold id sl part).pub id with
  | none =>
    rw [State.shareAt, hq] at hx
    cases hx
  | some q =>
    have hq' := hq
    rw [State.pub, hpubs] at hq'
    have hold := State.dropIfFolded_pub hq'
    rw [State.pub, (Tidies.dropHeld ..).pubs] at hold
    have hshare := State.setShare_shareAt .folded hp hh
    rw [State.shareAt_of_pub hq] at hx
    rw [State.shareAt_of_pub hold, hx] at hshare
    exact Option.some.inj hshare

/-- A fold changes no core; all its writes and pages done, the share is folded. -/
theorem State.foldAt_folds (hfold : s.foldable sl = some id) (hp : s.pub id = some p) (hh : tget none p.shares sl = some h)
    (hkept : (s.slice sl).kept < versionRoom) : (s.foldAt sl).cores = s.cores ∧
      (Tbl.wf none (s.slice sl).chains = true →
        (s.slice sl).kept + ((h.writes.map (·.g / 4)).dedup.length + 1024 * h.pages.length) ≤ versionRoom →
        ∀ x, (s.foldAt sl).shareAt id sl = some x → x = .folded) := by
  have hside := s.foldShare_side id sl p h
  have hleft (v : State) (g : Share) : Rests v (v.putShare id sl g) := .modPub ..
  rw [State.foldAt_room hfold hp hh (Slice.noRoom_false hkept)]
  dsimp only
  refine ⟨?_, fun hwf hroom x hx => ?_⟩
  · split
    · exact ((hleft _ _).trans (Tidies.raisePressure ..).toRests).cores.trans hside.cores
    · exact ((hleft _ _).trans (.endFold ..)).cores.trans hside.cores
  · obtain ⟨hwrites, hpages⟩ := State.foldShare_all (id := id) (p := p) hwf hroom
    rw [hwrites, hpages, if_neg (by simp)] at hx
    have hpub : (s.foldShare id sl p h).2.pub id = some p := by rw [State.pub, hside.pubs]; exact hp
    have hshare : tget none (tput none sl (some (s.foldShare id sl p h).1) p.shares) sl = some (s.foldShare id sl p h).1 := tget_tput_same ..
    exact State.endFold_share p.part (State.putShare_pub _ hpub) hshare hx

/-- The writes of one line are one fold of it (R96, R79). -/
theorem State.foldWrites_line {st : Stamp} {ws : List TrailEntry} {part : Nat} (hne : ws ≠ []) (hall : ∀ e ∈ ws, e.g / 4 = l)
    (hroom : (s.slice sl).noRoom = false) : s.foldWrites part sl reg st ws = ([], s.foldLine part sl reg st l ws) := by
  have hmap : ws.map (·.g / 4) = List.replicate ws.length l := List.eq_replicate_iff.2 ⟨List.length_map .., by simpa using hall⟩
  have hlines : (ws.map (·.g / 4)).dedup = [l] := by rw [hmap, List.replicate_dedup (by simpa using hne)]
  have hleft : ws.filter (fun e => e.g / 4 != l) = [] := List.filter_eq_nil_iff.2 fun e he => by simp [hall e he]
  have hdone : ws.filter (fun e => e.g / 4 == l) = ws := List.filter_eq_self.2 fun e he => by simp [hall e he]
  simp only [State.foldWrites, hlines, List.foldl_cons, List.foldl_nil, hroom, Bool.false_eq_true, if_false, hleft, hdone]

/-- A fold of writes of one line of the device half enters them as one write of it. -/
theorem State.foldAt_line {pa : Nat} (hfold : s.foldable sl = some id) (hp : s.pub id = some p) (hh : tget none p.shares sl = some h)
    (hkept : (s.slice sl).kept < versionRoom) (hne : h.writes ≠ []) (hall : ∀ e ∈ h.writes, e.g / 4 = l) (hpages : h.pages = [])
    (hdev : devHalf (64 * l) = true)
    (htr : translateClean (if h.begun then s else s.readHeld p.part id sl) p.part (64 * l) (if h.writes.any (·.tag) then .tstore else .store)
      p.region p.stamp .device = (.ok pa, u)) :
    Rests (u.enterWrite p.part sl (pa / 64) (lineOfWrites p.stamp p.region h.writes)) (s.foldAt sl) := by
  have hroom : ((if h.begun then s else s.readHeld p.part id sl).slice sl).noRoom = false := by
    rw [Slice.noRoom, Slice.kept, (s.begun_translates id sl p h).chains]
    exact Slice.noRoom_false hkept
  have hshare : s.foldShare id sl p h = ({ h with writes := [], pages := [], begun := true },
      u.enterWrite p.part sl (pa / 64) (lineOfWrites p.stamp p.region h.writes)) := by
    simp only [State.foldShare, State.foldWrites_line hne hall hroom, State.foldLine, htr, hdev, hpages, if_true, List.isEmpty_nil]
    rfl
  have hend (v : State) (g : Share) : Rests v ((v.putShare id sl g).endFold id sl p.part) := (Rests.modPub ..).trans (.endFold ..)
  rw [State.foldAt_room hfold hp hh (Slice.noRoom_false hkept), hshare]
  simp only [List.isEmpty_nil, Bool.not_true, Bool.or_self, Bool.false_eq_true, if_false]
  exact hend _ _

/-- A full version store folds nothing; its oldest version raises the partition's pressure, where none did (R100; log entry 43). -/
theorem State.raisePressure_full {part : Nat} (hfull : (s.slice sl).noRoom = true) :
    ((s.raisePressure part sl).slice sl).full = true ∧
      ((s.part part).pressure = none → ((s.raisePressure part sl).part part).pressure = (s.slice sl).oldest) := by
  unfold State.raisePressure
  rw [hfull, if_neg (by decide)]
  refine ⟨?_, fun hnone => ?_⟩
  · rw [State.modPart_slice, State.modSlice_slice_same]
  · rw [State.modPart_part_same, State.modSlice_part, hnone]

end

/-! The frontier and the floor (R98 to R100). -/

theorem State.postAll_part (s : State) (ts : List Turn) (p : Nat) : (s.postAll ts).part p = s.part p := rfl

/-- A reduction moves FP and the floor up, and changes no core and no memory. -/
theorem State.reduce_advances (s : State) (p : Nat) : (s.reduce p).cores = s.cores ∧ SameMemory s (s.reduce p) ∧
    ((s.reduce p).part p).fp = max (s.part p).fp ((((s.part p).sliceIds.map s.frontier).min?).getD (s.part p).fp) ∧
    (s.part p).floor ≤ ((s.reduce p).part p).floor := by
  unfold State.reduce
  dsimp only
  generalize hfp : max (s.part p).fp ((((s.part p).sliceIds.map s.frontier).min?).getD (s.part p).fp) = fp
  generalize hfloor : max (s.part p).floor (((s.floorViews p fp).min?).getD fp) = floor
  have hpart := State.modPart_part_same s p fun q => { q with fp := fp, floor := floor }
  have hcores : (s.modPart p fun q => { q with fp := fp, floor := floor }).cores = s.cores := rfl
  have hmem : SameMemory s (s.modPart p fun q => { q with fp := fp, floor := floor }) := ⟨rfl, rfl, rfl⟩
  generalize (s.modPart p fun q => { q with fp := fp, floor := floor }) = v at hpart hcores hmem ⊢
  obtain ⟨x, hslices⟩ := foldl_modSlice id (fun _ l =>
    { { l with chains := l.chains.map fun (e : Nat × Option Chain) => (e.1, e.2.map fun (c : Chain) => c.freeTo floor) } with
      full := Slice.noRoom { l with chains := l.chains.map fun (e : Nat × Option Chain) => (e.1, e.2.map fun (c : Chain) => c.freeTo floor) }
      hostAtoms := l.hostAtoms.filter fun (e : Nat × Stamp) => decide (fp < e.2) }) (s.part p).sliceIds v
  dsimp only [id] at hslices
  rw [hslices, foldl_post]
  refine ⟨hcores, hmem, ?_, ?_⟩
  · rw [State.postAll_part, State.modPart_part_same]
    change (v.part p).fp = fp
    rw [hpart]
  · rw [State.postAll_part, State.modPart_part_same]
    change _ ≤ (v.part p).floor
    rw [hpart, ← hfloor]
    exact Nat.le_max_left _ _

/-! Flips that the floor has passed (R115), and boundaries (R100, R105). -/

theorem State.setLeaf_rim (s : State) (p sl pteAt : Nat) (f : Nat → Nat) (reg : Option Nat) :
    (s.setLeaf p sl pteAt f reg).rim = rimPut (s.part p) s.rim pteAt 8 (f (s.rimRead (s.part p) pteAt 8)) ∧
      (s.setLeaf p sl pteAt f reg).cores = s.cores ∧ ∀ i, (s.setLeaf p sl pteAt f reg).part i = s.part i := by
  obtain ⟨_, _, htouch⟩ := (s.rimWrite (s.part p) pteAt 8 (f (s.rimRead (s.part p) pteAt 8))).rimTouch_queues p reg true pteAt 8
  rw [State.setLeaf, htouch]
  exact ⟨rfl, rfl, fun _ => rfl⟩

/-- The leaf of a page that its staged frame stands for. -/
def Staging.leaf (g : Staging) (e : Nat) : Nat := pteClear 5 (e % 2 ^ 16 + g.new / 2 ^ 16 * 2 ^ 16 + e / 2 ^ 48 * 2 ^ 48)

theorem State.shadowFinalise_passed {page : Nat} {g : Staging} {f : Stamp} (hg : tget none (s.slice sl).staging page = some g)
    (hf : g.flip = some f) (hpassed : f ≤ (s.part (((s.cluster (sl / 4)).part).getD 0)).floor) : s.shadowFinalise sl page =
      ((s.setLeaf (((s.cluster (sl / 4)).part).getD 0) sl g.pteAt g.leaf (some g.region)).modSlice sl fun l =>
        { l with staging := tput none page none l.staging }).modPart (((s.cluster (sl / 4)).part).getD 0) fun q =>
          { q with shadow := q.shadow ++ [g.old] } := by
  simp only [State.shadowFinalise, hg, hf, Option.any_some, hpassed, decide_true, if_true]
  rfl

theorem State.shadowFinalise_waits {page : Nat} {g : Staging} {f : Stamp} (hg : tget none (s.slice sl).staging page = some g)
    (hf : g.flip = some f) (hbelow : (s.part (((s.cluster (sl / 4)).part).getD 0)).floor < f) : s.shadowFinalise sl page = s := by
  simp only [State.shadowFinalise, hg, hf, Option.any_some, Nat.not_le.2 hbelow, decide_false, Bool.false_eq_true, if_false]

/-- A core whose view moves to v. -/
def Core.viewAt (v : Stamp) (c : Core) : Core := { c with view := v, sealedSegs := c.sealedSegs.filter fun g => decide (v < g.stamp) }

/-- A view moved, and the boundary shown by f. -/
theorem State.boundary_core (s : State) (k : Nat) (v : Stamp) (f : Core → Core) :
    ((s.setView k v).modCore k f).core k = f ((s.core k).viewAt v) ∧
      (∀ j, j ≠ k → ((s.setView k v).modCore k f).core j = s.core j) ∧ SameMemory s ((s.setView k v).modCore k f) := by
  refine ⟨?_, fun j hj => ?_, rfl, rfl, rfl⟩
  · rw [State.modCore_core_same, State.setView, State.modCore_core_same]
    rfl
  · rw [State.modCore_core_other _ _ _ _ (Ne.symm hj), State.setView, State.modCore_core_other _ _ _ _ (Ne.symm hj)]

end

end Sys2Proof.Machine

namespace Sys2Proof.Proofs

open Sys2Proof Sys2Proof.Machine

/-- Settles O45: folds (`State.foldAt_folds`, `State.foldAt_line`, `State.foldAt_full`), reductions (`State.reduce_advances`), flips that the
floor has passed, and boundaries. -/
theorem foldsAndFrontierAdvance : Obligations.FoldsAndFrontierAdvance := by
  unfold Obligations.FoldsAndFrontierAdvance
  refine ⟨?fold, ?reduce, ?finalise, ?boundary⟩
  case fold =>
    intro s sl id p h hfold hp hh
    refine ⟨fun hkept => ?_, fun hfull => ?_⟩
    · obtain ⟨hcores, hall⟩ := State.foldAt_folds hfold hp hh hkept
      refine ⟨s.foldAt sl, rfl, hcores, hall, fun l pa u hne hline hpages hdev htr => ?_⟩
      have hrest := State.foldAt_line hfold hp hh hkept hne hline hpages hdev htr
      exact ⟨hrest.mem.1, hrest.chains sl⟩
    · have hfull' : (s.slice sl).noRoom = true := by simpa [Slice.noRoom] using hfull
      have htidy := Tidies.raisePressure s p.part sl
      obtain ⟨hslice, hpressure⟩ := State.raisePressure_full (part := p.part) hfull'
      exact ⟨_, ⟨congrArg Host.Outcome.next (State.foldAt_full hfold hp hh hfull'), htidy.cores, htidy.mem⟩, hslice, htidy.pubs, hpressure⟩
  case reduce =>
    intro s p henabled
    obtain ⟨hcores, hmem, hfp, hfloor⟩ := s.reduce_advances p
    exact ⟨s.reduce p, ⟨congrArg Host.Outcome.next (if_pos henabled), hcores, hmem⟩, hfp, hfloor⟩
  case finalise =>
    intro s sl page g f hg hf
    refine ⟨fun hpassed => ?_, fun hbelow => congrArg Host.Outcome.next (State.shadowFinalise_waits hg hf hbelow)⟩
    obtain ⟨hrim, hcores, hparts⟩ := s.setLeaf_rim (((s.cluster (sl / 4)).part).getD 0) sl g.pteAt g.leaf (some g.region)
    refine ⟨_, congrArg Host.Outcome.next (State.shadowFinalise_passed hg hf hpassed), hcores, hrim, ?_, ?_⟩
    · rw [State.modPart_slice, State.modSlice_slice_same]
      dsimp only
      exact tget_tput_same ..
    · rw [State.modPart_part_same, State.modSlice_part, hparts]
  case boundary =>
    intro s k
    refine ⟨fun hdue => ?_, fun hdue => ?_, fun hdue => ?_, fun hdue => ?_⟩
    · obtain ⟨hcore, hothers, hmem⟩ := s.boundary_core k (s.fpOf k) fun c => { c with horizonBit := true }
      exact ⟨_, ⟨congrArg Host.Outcome.next (if_pos hdue), hothers, hmem⟩, by rw [hcore]; rfl, by rw [hcore],
        by rw [hcore]; rfl, by rw [hcore]; rfl⟩
    · exact congrArg Host.Outcome.next (if_neg (by rw [hdue]; decide))
    · obtain ⟨hcore, hothers, hmem⟩ := s.boundary_core k (s.fpOf k) fun c => { c with pressureBit := true }
      exact ⟨_, ⟨congrArg Host.Outcome.next (if_pos hdue), hothers, hmem⟩, by rw [hcore]; rfl, by rw [hcore],
        by rw [hcore]; rfl, by rw [hcore]; rfl⟩
    · exact congrArg Host.Outcome.next (if_neg (by rw [hdue]; decide))

end Sys2Proof.Proofs

/-! PROOFS. Stopped steps and their units (O52). -/

namespace Sys2Proof.Machine

open Sys2Proof

/-- Tile 0 is listed twice, which no canonical table does: it reads as the first entry, whose step was stopped at tick 256; the second, which no
read sees, is as of a step stopped at tick 0. -/
def twiceHeld : State := { State.reset with tick := 256, tiles := [(0, { matHeld := some 256 }), (0, { matHeld := some 0 })] }

/-- Where no glide is due, stopped steps give their units up, tile by tile of those listed as held over (R397; log entry 77). -/
theorem execGlideStart_notDue {s : State} (h : s.glideDue = false) : exec .glideStart s =
    .next (((s.tiles.filter fun e => e.2.heldOver s.tick).map (·.1)).foldl (fun s i =>
      (s.modTile i fun t => { t with matHeld := none }).releaseUnits (clusterOf i) 8) s) := by
  rw [show exec .glideStart s = execGlideStart s from rfl, execGlideStart, h, if_neg Bool.false_ne_true]

theorem twiceHeld_glideDue : twiceHeld.glideDue = false := by decide

theorem twiceHeld_heldOver : (twiceHeld.tiles.filter fun e => e.2.heldOver twiceHeld.tick).map (·.1) = [0] := by decide

/-- The event takes the units of the step whose window is still open. -/
theorem twiceHeld_drops {t : State} (h : exec .glideStart twiceHeld = .next t) : (t.tile 0).matHeld = none := by
  rw [execGlideStart_notDue twiceHeld_glideDue, twiceHeld_heldOver] at h
  rw [← Host.Outcome.next.inj h]
  rfl

end Sys2Proof.Machine

namespace Sys2Proof.Proofs

open Sys2Proof Sys2Proof.Machine

/-- Refutes O52, in the clause about stopped steps outside a glide: where the table of tiles lists tile 0 twice, the entry that no read sees has
its window over, and GLIDE_START takes the units of the tile's step, whose own window is open (`twiceHeld_drops`), where the clause keeps
the tile as it is. The clause lacks the hypothesis that the table of tiles is canonical. -/
theorem not_faultsAreHandled : ¬ Obligations.FaultsAreHandled := by
  unfold Obligations.FaultsAreHandled
  rintro ⟨⟨-, -, -, -, -, -, -, -, -, -, -, -, -, -, hglide⟩, -⟩
  obtain ⟨-, hstopped, -⟩ := hglide twiceHeld
  obtain ⟨t, ⟨hexec, -⟩, -, hheld⟩ := hstopped twiceHeld_glideDue
  obtain ⟨-, hkept⟩ := hheld 0 256 rfl
  have htile : t.tile 0 = twiceHeld.tile 0 := hkept (by decide)
  have hnone := twiceHeld_drops hexec
  rw [htile] at hnone
  exact absurd hnone (by decide)

end Sys2Proof.Proofs

/-! PROOFS. PREF (O25) and the instructions that read a figure (O21). -/

namespace Sys2Proof.Machine

open Sys2Proof

section
variable {s s' u : State}

/-- An event posted behind the checker's entry is posted behind the state that the instruction found, but for the checker. -/
theorem Near.post_withSig (s : State) (g : Sig) (e : Instr) (hmon : s.monitor = false) :
    Near (s.post e) ((s.modMy (Core.withSig g)).post e) :=
  Near.of_my (u := s.post e) (f := Core.withSig g) _ _ _ _ rfl fun h => absurd (hmon.symm.trans h) (by decide)

/-- PREF asks where it names from 1 to 2^16 bytes of device memory that its capability lets it read (R136). -/
def prefAsks (c : CReg) (len n : Nat) : Prop :=
  1 ≤ len ∧ len ≤ 65536 ∧ devHalf c.addr = true ∧ checkCap c c.addr n 1 { l := true } = none

/-- The test in PREF's body is that of `prefAsks`. -/
theorem prefAsks_iff (c : CReg) (len n : Nat) : prefAsks c len n ↔
    (len = 0 || decide (65536 < len) || !devHalf c.addr || (checkCap c c.addr n 1 { l := true }).isSome) = false := by
  simp only [prefAsks, Bool.or_eq_false_iff, decide_eq_false_iff_not, Bool.not_eq_false', Option.isSome_eq_false_iff, Option.isNone_iff_eq_none,
    and_assoc, Nat.not_lt, Nat.one_le_iff_ne_zero, ne_eq]

/-- PREF issues under its declaration with a body that retires, whether it asks or not (R136). -/
theorem exec_pref (a b : Reg) (s : State) : ∃ body : State → Act, exec (.pref a b) s = issue (s.declared (.pref a b)) body s ∧ ∀ u,
    let len := if b = 0#5 then 64 else (u.rd b).toNat
    let n := min len (65536 - (u.rc a).addr % 65536)
    (prefAsks (u.rc a) len n → body u = (u.post (.prefRequest u.myKey (u.rc a).addr n), .retire)) ∧
    (¬ prefAsks (u.rc a) len n → body u = (u, .retire)) := by
  refine ⟨_, rfl, fun u => ⟨fun h => ?_, fun h => ?_⟩⟩
  · exact if_neg (Bool.not_eq_true _ ▸ (prefAsks_iff ..).1 h)
  · exact if_pos (Bool.not_eq_false _ ▸ mt (prefAsks_iff ..).2 h)

/-- QSTAT ends with the depth of its queue in c(D), the entries pushed in this cycle among them (R353). -/
theorem exec_qstat_writes {d : Reg} {k : BitVec 3} (h : Starts (.qstat d k) s s' false) :
    ∃ t, exec (.qstat d k) s = .next t ∧ EndsWith s t (s.pcNow + 4) d (dataReg (BitVec.ofNat 64 ((s.ctx s.me).depth k.toNat))) := by
  obtain ⟨hfree, hc⟩ := h
  obtain ⟨g, rfl⟩ := hc.sets (hfree.activation rfl rfl)
  exact issue_writes hfree hc rfl

/-- The compute core of tile 0 in an activation, an entry pushed to queue 0 of its context in this cycle. -/
def pushedNow : State :=
  { (State.reset.placeInstr 32 0).modCtx (ctxKey 1 0) fun c => { c with qNew := [(0, [0#64])] } with agenda := [], focus := ⟨0, true⟩ }

theorem pushedNow_depth : (pushedNow.ctx pushedNow.me).depth 0 = 1 := by decide +kernel

/-- QSTAT of that queue starts there, where no signature table is checked. -/
theorem pushedNow_starts : Starts (.qstat 3#5 0#3) pushedNow (pushedNow.modMy (Core.withSig pushedNow.my.sig)) false where
  left := ⟨.inr (by decide +kernel), by decide +kernel, by decide +kernel, rfl, by decide +kernel, .inr (by decide +kernel), by decide +kernel⟩
  right := by
    have hmon : pushedNow.monitor = false := by decide +kernel
    have hact : pushedNow.my.act = some loadAct := by decide +kernel
    rw [Checked, hmon, if_neg Bool.false_ne_true]
    refine ⟨loadAct, [], pushedNow.my.sig, hact, ?_, ?_, rfl, rfl⟩
    · simp only [State.sigTable, hact, hmon, Bool.false_or]
      rfl
    · decide +kernel

end

end Sys2Proof.Machine

namespace Sys2Proof.Proofs

open Sys2Proof Sys2Proof.Machine

/-- Settles O25: PREF's body retires behind its request or without one (`exec_pref`), with the registers that the instruction found. -/
theorem prefAsksAndNeverTraps : Obligations.PrefAsksAndNeverTraps := by
  unfold Obligations.PrefAsksAndNeverTraps
  intro a b s s' ⟨hfree, hc⟩ c len n asks
  obtain ⟨body, hexec, hbody⟩ := exec_pref a b s
  specialize hbody s'
  rw [hc.rc, hc.rd] at hbody
  obtain ⟨hasks, hnone⟩ := hbody
  refine ⟨fun h => ?asks, fun h => ?none⟩
  case asks =>
    have hmon := hfree.activation rfl rfl
    obtain ⟨g, rfl⟩ := hc.sets hmon
    obtain ⟨t, hnext, hends⟩ := issue_ends hfree hc (hasks h) (hc.kill hfree)
    refine ⟨t, hexec.trans hnext, ((Near.post_withSig s g _ hmon).trans hends.frame.near).only hends.frame.prog, fun r => ?_, ?_⟩
    · exact (hends.regs r).trans (hc.rc r)
    · rw [hends.pc, State.post_pcNow, hc.pcNow]
      rfl
  case none =>
    rw [hexec]
    exact issue_ends_self hfree hc (hnone h)

/-- Refutes O21, in the clause of QSTAT: with an entry pushed to queue 0 in this cycle and none before, QSTAT writes 1, the entries in the queue
(`exec_qstat_writes`), where the clause has it write 0, those that may be popped. -/
theorem not_figuresAreRead : ¬ Obligations.FiguresAreRead := by
  unfold Obligations.FiguresAreRead
  intro ⟨hreads, _⟩
  obtain ⟨t, hnext, hwrites⟩ := exec_qstat_writes pushedNow_starts
  obtain ⟨t', hnext', hclaim⟩ := hreads (.qstat 3#5 0#3) pushedNow _ 3#5 0#64 (by decide +kernel) pushedNow_starts (.inr (by decide +kernel))
  obtain rfl : t = t' := Host.Outcome.next.inj (hnext.symm.trans hnext')
  have hvalue := (hwrites.regs 3#5).symm.trans (hclaim.regs 3#5)
  rw [show (0#3).toNat = 0 from rfl, pushedNow_depth] at hvalue
  exact absurd hvalue (by decide)

end Sys2Proof.Proofs

/-! PROOFS. Instructions that wait: for a register of an outstanding request, and for current (O12). What each vector instruction asks of tags is
compared with its form once for each shape of instruction. -/

namespace Sys2Proof.Machine

open Sys2Proof

section
variable {i : Instr} {s s' u : State} {f : VForm} {m : Option Mask} {d a b : Reg}

/-! Hazards (R121). -/

/-- The state adds to a declaration only whether the format registers make the instruction illegal. -/
theorem State.declared_eq (s : State) (i : Instr) : s.declared i = { decl i with illegal := (s.declared i).illegal } := by
  unfold State.declared
  split <;> rfl

/-- An instruction of an activation that passes decode and meets an outstanding request changes nothing. -/
theorem issue_hazard {j : Issue} {body : State → Act} (hmon : s.monitor = false) (hact : s.my.act.isSome = true) (honly : j.monOnly = false)
    (hrole : j.computeOnly = true → s.focus.compute = true) (hlegal : j.illegal = false) (hrange : s.regRange j = none)
    (hhazard : s.hazard j = true) : issue j body s = .next s := by
  have hstream : s.my.act.isNone = false := by rw [Option.isNone_eq_false_iff, hact]
  have hcore : (j.computeOnly && !s.focus.compute) = false := by
    cases hc : j.computeOnly with
    | false => rfl
    | true => rw [hrole hc]; rfl
  simp only [issue, hmon, hstream, hcore, hlegal, honly, hrange, hhazard, Bool.not_false, Bool.and_self, Bool.and_false, Bool.false_and,
    Bool.or_self, Bool.false_eq_true, if_false, if_true]

/-! Tags (R261). -/

/-- u has s's vector registers, and its tags name the same kinds. -/
structure SameTags (s u : State) : Prop where
  vr : ∀ r, u.vr r = s.vr r
  kind : ∀ t, u.kind t = s.kind t

theorem SameTags.maskOk (h : SameTags s u) (m : Option Mask) : u.maskOk m = s.maskOk m := by
  simp only [State.maskOk, h.vr]

theorem SameTags.keepOk (h : SameTags s u) (m : Option Mask) (d : Reg) (tag : Byte) : u.keepOk m d tag = s.keepOk m d tag := by
  simp only [State.keepOk, h.vr]

theorem SameTags.maskSource (h : SameTags s u) (mr : Option (BitVec 2)) (a : Reg) : Machine.maskSource u mr a = Machine.maskSource s mr a := by
  simp only [Machine.maskSource, h.vr]

theorem SameTags.vdotOk (h : SameTags s u) (d a b : Reg) : Machine.vdotOk u d a b = Machine.vdotOk s d a b := by
  simp only [Machine.vdotOk, h.vr, h.kind]

@[simp] theorem State.maskOk_none (s : State) : s.maskOk none = true := rfl
@[simp] theorem State.keepOk_none (s : State) (d : Reg) (tag : Byte) : s.keepOk none d tag = true := rfl

/-- The checker's entry leaves the vector registers and what tags name. -/
theorem SameTags.withSig (s : State) (g : Sig) : SameTags s (s.modMy (Core.withSig g)) where
  vr _ := rfl
  kind t := by
    rw [State.kind, State.modMy_my]
    rfl

/-! The start of the unit. -/

/-- The instruction starts its unit, in every state with the tags of s. -/
def StartsUnit (i : Instr) (s : State) : Prop :=
  (s.declared i).mon = false ∧ (s.declared i).monOnly = false ∧
    ∃ body : State → Act, exec i s = issue (s.declared i) body s ∧ ∀ u, SameTags s u → ∃ rs next, body u = vecStart rs u next

/-- The declaration of a vector instruction. -/
def vecIssue (len : Nat) (cr vr : List Reg) : Issue := { len := len, computeOnly := true, cr := cr, vr := vr }

/-- A vector instruction of majors 0x20 to 0x24 whose tags pass starts its unit. -/
theorem vecOp_starts {len : Nat} {cr vr : List Reg} {ok : State → Bool} {macs : State → Nat} {eff : State → State}
    (hexec : exec i s = vecOp len cr vr ok macs eff s) (hdecl : s.declared i = vecIssue len cr vr) (hok : ∀ u, SameTags s u → ok u = true) :
    StartsUnit i s := by
  rw [StartsUnit, hdecl]
  refine ⟨rfl, rfl, _, hexec, fun u hu => ⟨vr, _, if_neg ?_⟩⟩
  rw [hok u hu]
  decide

/-! The shapes of instructions: where the form's tags pass, so do those of the instruction. -/

theorem vbin_starts {op : VBin} (hexec : exec i s = vbin op m d a b s) (hdecl : s.declared i = vecIssue 4 [] ([d, a, b] ++ maskRegs m))
    (hok : (vbinForm op m d a b s).ok = true) : StartsUnit i s := by
  rw [vbin] at hexec
  refine vecOp_starts hexec hdecl fun u hu => ?_
  rw [vbinForm] at hok
  split at hok
  · simpa only [hu.maskOk, hu.keepOk, hu.vr, hu.kind, ‹s.kind _ = _›, Option.any_some] using hok
  · cases hok

theorem vun_starts {op : VUn} (hexec : exec i s = vun op m d a s) (hdecl : s.declared i = vecIssue 4 [] ([d, a] ++ maskRegs m))
    (hok : (vunForm op m d a s).ok = true) : StartsUnit i s := by
  rw [vun] at hexec
  refine vecOp_starts hexec hdecl fun u hu => ?_
  rw [vunForm] at hok
  split at hok
  · simpa only [hu.maskOk, hu.keepOk, hu.vr, hu.kind, ‹s.kind _ = _›, Option.any_some] using hok
  · cases hok

theorem vlog_starts {op : VLog} (hexec : exec i s = vlog op m d a b s) (hdecl : s.declared i = vecIssue 4 [] ([d, a, b] ++ maskRegs m))
    (hok : (vlogForm op m d a b s).ok = true) : StartsUnit i s := by
  refine vecOp_starts hexec hdecl fun u hu => ?_
  rw [vlogForm] at hok
  split at hok
  next k j hk hj => simpa only [vplain, hu.maskOk, hu.keepOk, hu.vr, hu.kind, hk, hj] using hok
  next => cases hok

theorem vlog1_starts {op : VLog1} (hexec : exec i s = vlog1 op m d a s) (hdecl : s.declared i = vecIssue 4 [] ([d, a] ++ maskRegs m))
    (hok : (vlog1Form op m d a s).ok = true) : StartsUnit i s := by
  refine vecOp_starts hexec hdecl fun u hu => ?_
  rw [vlog1Form] at hok
  split at hok
  next k hk => simpa only [vplain, hu.maskOk, hu.keepOk, hu.vr, hu.kind, hk, Option.any_some] using hok
  next => cases hok

theorem vcmp_starts {op : VCmp} (hexec : exec i s = vcmp op m d a b s) (hdecl : s.declared i = vecIssue 4 [] ([d, a, b] ++ maskRegs m))
    (hok : (vcmpForm op m d a b s).ok = true) : StartsUnit i s := by
  refine vecOp_starts hexec hdecl fun u hu => ?_
  rw [vcmpForm] at hok
  split at hok
  next k hk => simpa only [vmaskForm, hu.maskOk, hu.keepOk, hu.vr, hu.kind, hk, Option.any_some, Bool.and_assoc] using hok
  next => cases hok

theorem vmask_starts {src : List Reg} {x : State → Nat} {n : Nat} {el : Nat → Nat} {ok : Bool} (hexec : exec i s = vmask m d src x s)
    (hdecl : s.declared i = vecIssue 4 [] (d :: src ++ maskRegs m)) (hsrc : ok = src.all fun r => (s.vr r).tag == 0x40#8)
    (hok : (vmaskForm m d ok n el s).ok = true) : StartsUnit i s := by
  refine vecOp_starts hexec hdecl fun u hu => ?_
  subst hsrc
  simpa only [vmaskForm, hu.maskOk, hu.keepOk, hu.vr] using hok

theorem vperm_starts {bytes : Bool} {ok : Kind → Kind → Bool} {pick : State → Kind → Kind → Nat → Option Nat}
    {pick' : Kind → Kind → Nat → Option Nat} (hexec : exec i s = vperm m d a b ok pick s)
    (hdecl : s.declared i = vecIssue 4 [] ([d, a, b] ++ maskRegs m))
    (hbytes : ∀ k j, ok k j = (!bytes || (decide (8 ≤ k.width) && k.width == j.width)))
    (hok : (vpermForm m d a b bytes pick' s).ok = true) : StartsUnit i s := by
  refine vecOp_starts hexec hdecl fun u hu => ?_
  rw [vpermForm] at hok
  split at hok
  next k j hk hj => simpa only [vplain, hu.maskOk, hu.keepOk, hu.vr, hu.kind, hk, hj, hbytes] using hok
  next => cases hok

theorem vred_starts {op : VRed} {mr : Option (BitVec 2)} (hexec : exec i s = vred op mr d a b s)
    (hdecl : s.declared i = vecIssue 4 [] ([d, a, b] ++ srcRegs mr)) (hok : (vredForm op mr d a b s).ok = true) : StartsUnit i s := by
  rw [vred] at hexec
  refine vecOp_starts hexec hdecl fun u hu => ?_
  rw [vredForm] at hok
  split at hok
  next k hk => simpa only [hu.maskOk, hu.vr, hu.kind, hk, Option.any_some] using hok
  next => cases hok

/-- A vector instruction whose form asks for tags that the registers have starts its unit (R261). -/
theorem exec_vecForm (h : vecForm i s = some f) (hok : f.ok = true) : StartsUnit i s := by
  cases i with
  | vadd | vsub | vmul | vfma | vfms | vmin | vmax | vdiv => cases h; exact vbin_starts rfl rfl hok
  | vsqrt | vrcp | vrsq | vexp2 | vlog2 | vabs | vneg => cases h; exact vun_starts rfl rfl hok
  | vand | vor | vxor | vshl | vshr | vsar => cases h; exact vlog_starts rfl rfl hok
  | vnot | vpopc | vclz => cases h; exact vlog1_starts rfl rfl hok
  | vcmpeq | vcmpne | vcmplt | vcmple | vcmpun => cases h; exact vcmp_starts rfl rfl hok
  | vredadd | vredmin | vredmax => cases h; exact vred_starts rfl rfl hok
  | vshuf => cases h; exact vperm_starts (execVshuf.eq_1 ..) rfl (fun _ _ => rfl) hok
  | vrot => cases h; exact vperm_starts (execVrot.eq_1 ..) rfl (fun _ _ => rfl) hok
  | vslide => cases h; exact vperm_starts (execVslide.eq_1 ..) rfl (fun _ _ => rfl) hok
  | vmaskand => cases h; exact vmask_starts (execVmaskand.eq_1 ..) rfl (by simp) hok
  | vmaskor => cases h; exact vmask_starts (execVmaskor.eq_1 ..) rfl (by simp) hok
  | vmasknot => cases h; exact vmask_starts (execVmasknot.eq_1 ..) rfl (by simp) hok
  | vpopm => cases h; exact vecOp_starts (execVpopm.eq_1 ..) rfl fun u hu => (hu.maskSource _ _).trans hok
  | vfirst => cases h; exact vecOp_starts (execVfirst.eq_1 ..) rfl fun u hu => (hu.maskSource _ _).trans hok
  | vtag => cases h; exact vecOp_starts (execVtag.eq_1 ..) rfl fun u hu => (congrArg Option.isSome (hu.kind _)).trans hok
  | vtagq => cases h; exact vecOp_starts (execVtagq.eq_1 ..) rfl fun u hu => rfl
  | viota =>
    cases h
    refine vecOp_starts (execViota.eq_1 ..) rfl fun u hu => ?_
    simpa only [hu.maskOk, hu.keepOk, hu.vr] using hok
  | vsel mr d a b =>
    cases h
    refine vecOp_starts (execVsel.eq_1 ..) rfl fun u hu => ?_
    split at hok
    next k hk => simpa [vplain, hu.maskOk, hu.vr, hu.kind, hk] using hok
    next => cases hok
  | vmerge m d a b =>
    cases h
    refine vecOp_starts (execVmerge.eq_1 ..) rfl fun u hu => ?_
    split at hok
    next k hk =>
      simp only [vplain, Bool.and_eq_true] at hok
      obtain ⟨⟨hmask, ⟨htyped, hb⟩, hd⟩, -⟩ := hok
      simp only [hu.maskOk, hu.vr, hu.kind, hk, Option.any_some, hmask, htyped, hb, hd, Bool.and_self]
    next => cases hok
  | vbcast m d a =>
    cases h
    refine vecOp_starts (execVbcast.eq_1 ..) rfl fun u hu => ?_
    split at hok
    next k hk => simpa only [hu.maskOk, hu.vr, hu.kind, hk, Option.any_some] using hok
    next => cases hok
  | vext d a b =>
    cases h
    refine vecOp_starts (execVext.eq_1 ..) rfl fun u hu => ?_
    split at hok
    next k hk => simpa only [hu.vr, hu.kind, hk, Option.any_some] using hok
    next => cases hok
  | vins d a b =>
    cases h
    refine vecOp_starts (execVins.eq_1 ..) rfl fun u hu => ?_
    split at hok
    next k hk => simpa only [hu.vr, hu.kind, hk, Option.any_some] using hok
    next => cases hok
  | vscan m d a =>
    cases h
    refine vecOp_starts (execVscan.eq_1 ..) rfl fun u hu => ?_
    split at hok
    next k hk => simpa only [hu.maskOk, hu.keepOk, hu.vr, hu.kind, hk, Option.any_some] using hok
    next => cases hok
  | vmov m d a =>
    cases m with
    | none =>
      cases h
      refine vecOp_starts (execVmov.eq_1 ..) rfl fun u hu => ?_
      simpa [vwhole, hu.vr, hu.kind] using hok
    | some m =>
      cases h
      refine vecOp_starts (execVmov.eq_1 ..) rfl fun u hu => ?_
      split at hok
      next k hk => simpa [vplain, hu.maskOk, hu.keepOk, hu.vr, hu.kind, hk] using hok
      next => cases hok
  | vcvt tag rm sat m d a =>
    cases h
    refine vecOp_starts (execVcvt.eq_1 ..) rfl fun u hu => ?_
    dsimp only at hok
    split at hok
    next j k hj hk => simpa [vconvForm, hu.maskOk, hu.keepOk, hu.vr, hu.kind, hj, hk] using hok
    next => cases hok
  | vpack tag rm sat m d a b =>
    cases h
    refine vecOp_starts (execVpack.eq_1 ..) rfl fun u hu => ?_
    dsimp only at hok
    split at hok
    next j k hj hk => simpa [vconvForm, hu.maskOk, hu.keepOk, hu.vr, hu.kind, hj, hk, and_assoc] using hok
    next => cases hok
  | vunpk tag rm sat m d a =>
    cases h
    refine vecOp_starts (execVunpk.eq_1 ..) rfl fun u hu => ?_
    dsimp only at hok
    split at hok
    next j k hj hk => simpa [vconvForm, hu.maskOk, hu.keepOk, hu.vr, hu.kind, hj, hk, and_assoc] using hok
    next => cases hok
  | vsat tag m d a =>
    cases h
    refine vecOp_starts (execVsat.eq_1 ..) rfl fun u hu => ?_
    dsimp only at hok
    split at hok
    next k g hk hg => simpa [hu.maskOk, hu.keepOk, hu.vr, hu.kind, hk, hg] using hok
    next => cases hok
  | vdot m d a b =>
    cases h
    refine vecOp_starts (execVdot.eq_1 ..) rfl fun u hu => ?_
    dsimp only at hok
    split at hok
    next => simpa only [hu.maskOk, hu.vdotOk] using hok
    next => cases hok
  | _ => cases h

/-! The wait for current (R419, R421). -/

/-- A unit that rests asks for current and waits for its ramp, whether the instruction reserves or not (R421). -/
theorem vecStart_rests {rs : List Reg} {next : State → Act} {reserves : Bool} (h : s.vecRests = true) :
    vecStart rs s next reserves = (s.rampAsked, .done) := by
  rw [State.vecRests, Bool.and_eq_true] at h
  simp only [vecStart, h.1, h.2, Bool.not_true, Bool.false_eq_true, if_false, if_true]
  rfl

/-- A unit awake, without a grant and without room in its cluster, asks, and its instruction issues again (R419). -/
theorem vecStart_asks {rs : List Reg} {next : State → Act} (hawake : (s.tile s.focus.site).vecAsleep = false) (h : s.vecReady = false) :
    vecStart rs s next = (s.requestVector, .stay) := by
  simp only [State.vecReady, hawake, Bool.false_eq_true, if_false, Bool.or_eq_false_iff] at h
  simp only [vecStart, hawake, h.1, h.2, Bool.not_true, Bool.or_self, Bool.false_eq_true, if_false]

/-- A request for the unit's current stands with its cluster, and is told to its arbiter. -/
theorem State.requestVector_asks (s : State) : ∃ cs a, s.requestVector = { s with clusters := cs, agenda := a } := by
  unfold State.requestVector
  dsimp only
  split
  · exact ⟨_, _, rfl⟩
  · exact ⟨_, _, rfl⟩

/-- The first request of a unit joins those that wait. -/
theorem State.requestVector_waiting
    (h : ((s.cluster (clusterOf s.focus.site)).waiting.any fun q => q.site == s.focus.site && q.unit == 1) = false) :
    (s.requestVector.cluster (clusterOf s.focus.site)).waiting = (s.cluster (clusterOf s.focus.site)).waiting ++
      [{ site := s.focus.site, unit := 1, units := 2, prio := s.prio s.myRegion, arrival := s.tick }] := by
  simp only [State.requestVector, h, Bool.false_eq_true, if_false, State.post_cluster, State.modCluster_cluster_same]

/-- The core of a unit that may not run its instruction: it stalls where the unit ramps. -/
def Core.rampStall (asleep : Bool) (c : Core) : Core := { c with stall := if asleep then .ramp else c.stall }

/-- What waiting for current leaves: the core's stall, and the request. -/
theorem vecStart_waits_leaves {rs : List Reg} {next : State → Act} (h : s.vecReady = false) : ∃ u v, vecStart rs s next = (u, v) ∧
    (v = .done ∨ v = .stay) ∧ u.my = s.my.rampStall (s.tile s.focus.site).vecAsleep ∧ u.pcNow = s.pcNow ∧ (∀ r, u.vr r = s.vr r) ∧
    u.clusters = s.requestVector.clusters := by
  obtain ⟨cs, a, hasks⟩ := s.requestVector_asks
  cases hasleep : (s.tile s.focus.site).vecAsleep with
  | true =>
    have hrests : s.vecRests = true := by
      simp only [State.vecReady, hasleep, if_true, Bool.not_eq_false'] at h
      rw [State.vecRests, hasleep, h, Bool.and_self]
    refine ⟨_, _, vecStart_rests hrests, .inl rfl, ?_, ?_, fun r => ?_, rfl⟩
    · rw [State.rampAsked, State.modMy_my, hasks]
      rfl
    · rw [State.rampAsked, State.modMy_pcNow rfl, hasks]
      rfl
    · rw [State.rampAsked, hasks]
      rfl
  | false =>
    refine ⟨_, _, vecStart_asks hasleep h, .inr rfl, ?_, ?_, fun r => ?_, rfl⟩ <;> rw [hasks] <;> rfl

end

end Sys2Proof.Machine

namespace Sys2Proof.Proofs

open Sys2Proof Sys2Proof.Machine

/-- Settles O12: a hazard holds issue back (`issue_hazard`); a vector instruction whose tags pass starts its unit (`exec_vecForm`), and one
that may not run asks and waits (`vecStart_waits_leaves`). -/
theorem hazardsAndCurrentAreWaitedFor : Obligations.HazardsAndCurrentAreWaitedFor := by
  unfold Obligations.HazardsAndCurrentAreWaitedFor
  refine ⟨?hazard, ?current⟩
  case hazard =>
    intro i s henc hmon hact honly hrole hrange hlegal hhazard
    obtain ⟨body, hexec⟩ := exec_issue i henc
    rw [hexec, s.declared_eq i, hlegal]
    exact issue_hazard hmon hact honly hrole rfl hrange hhazard
  case current =>
    intro i s s' f hform ⟨hfree, hc⟩ hok hready
    obtain ⟨hmonOk, honly, body, hexec, hbody⟩ := exec_vecForm hform hok
    obtain ⟨g, rfl⟩ := hc.sets (hfree.activation hmonOk honly)
    obtain ⟨rs, next, hstart⟩ := hbody _ (SameTags.withSig s g)
    obtain ⟨u, v, hwaits, hv, hmy, hpc, hvr, hclusters⟩ := vecStart_waits_leaves (rs := rs) (next := next)
      (s := s.modMy (Core.withSig g)) hready
    have hnext : exec i s = .next u := by
      rcases hv with rfl | rfl
      · exact hexec.trans (issue_waits hfree hc (hstart.trans hwaits))
      · obtain ⟨g', h⟩ := issue_next hfree hc (hstart.trans hwaits) fun _ => rfl
        exact hexec.trans h
    refine ⟨u, hnext, ?_, hpc.trans hc.pcNow, hvr, fun hfirst => ?_⟩
    · rw [hmy, State.modMy_my]
      rfl
    · rw [State.cluster, hclusters]
      exact State.requestVector_waiting (s := s.modMy (Core.withSig g)) hfirst

end Sys2Proof.Proofs

/-! PROOFS. Vector loads and stores (O18): what the checks read is said once for the three forms of each; the unit's start then changes the
vector units of tiles alone, and what it acts on is the machine as the instruction found it but for these. -/

namespace Sys2Proof.Machine

open Sys2Proof

section
variable {i : Instr} {s s' t u w x : State} {d a : Reg} {m : Option Mask} {vr rs : List Reg}

/-! What vector units are in (R205, R419, R421). -/

/-- A tile but for the banks of its vector registers. -/
def Tile.bankless (t : Tile) : Tile := { t with vbanks := [] }

/-- t is s but for the banks of vector registers. -/
structure BanksOnly (s t : State) : Prop where
  rest : t = { s with tiles := t.tiles }
  tile : ∀ j, (t.tile j).bankless = (s.tile j).bankless

/-- The focus and the tiles of t are those of s but for the state of vector units. -/
structure UnitOnly (s t : State) : Prop where
  focus : t.focus = s.focus
  tile : ∀ j, ∃ asleep last grant banks,
    t.tile j = { s.tile j with vecAsleep := asleep, vecLast := last, vecGrant := grant, vbanks := banks }

namespace BanksOnly

theorem refl (s : State) : BanksOnly s s := ⟨rfl, fun _ => rfl⟩

theorem symm (h : BanksOnly s t) : BanksOnly t s where
  rest := by rw [h.rest]
  tile j := (h.tile j).symm

theorem trans (h : BanksOnly s t) (k : BanksOnly t u) : BanksOnly s u where
  rest := by rw [k.rest, h.rest]
  tile j := (k.tile j).trans (h.tile j)

/-- The same update of a tile, one that does not read its banks. -/
theorem modTile (h : BanksOnly s t) (j : Nat) {f : Tile → Tile}
    (hf : ∀ a b : Tile, a.bankless = b.bankless → (f a).bankless = (f b).bankless) :
    BanksOnly (s.modTile j f) (t.modTile j f) where
  rest := by rw [h.rest]; rfl
  tile l := by
    rw [State.modTile_tile, State.modTile_tile]
    split
    · exact hf _ _ (h.tile j)
    · exact h.tile l

/-- Touching registers wakes their banks. -/
theorem touch (s : State) (site slot : Nat) (rs : List Reg) : BanksOnly s (s.touchBanksAt site slot rs) := by
  unfold State.touchBanksAt
  dsimp only
  split
  · exact refl s
  · refine ⟨rfl, fun j => ?_⟩
    rw [State.modTile_tile]
    split
    · subst ‹site = j›; rfl
    · rfl

theorem asleep (h : BanksOnly s t) (j : Nat) : (t.tile j).vecAsleep = (s.tile j).vecAsleep :=
  show (t.tile j).bankless.vecAsleep = (s.tile j).bankless.vecAsleep by rw [h.tile]

theorem grant (h : BanksOnly s t) (j : Nat) : (t.tile j).vecGrant = (s.tile j).vecGrant :=
  show (t.tile j).bankless.vecGrant = (s.tile j).bankless.vecGrant by rw [h.tile]

theorem focus (h : BanksOnly s t) : t.focus = s.focus := by rw [h.rest]

theorem cluster (h : BanksOnly s t) (j : Nat) : t.cluster j = s.cluster j := by rw [h.rest]; rfl

theorem unit (h : BanksOnly s t) : UnitOnly s t where
  focus := h.focus
  tile j := by
    have hbanks : t.tile j = { s.tile j with vbanks := (t.tile j).vbanks } :=
      congrArg (fun a : Tile => { a with vbanks := (t.tile j).vbanks }) (h.tile j)
    exact ⟨_, _, _, _, hbanks⟩

end BanksOnly

namespace UnitOnly

theorem trans (h : UnitOnly s t) (k : UnitOnly t u) : UnitOnly s u where
  focus := k.focus.trans h.focus
  tile j := by
    obtain ⟨_, _, _, _, hst⟩ := h.tile j
    obtain ⟨_, _, _, _, htu⟩ := k.tile j
    exact ⟨_, _, _, _, by rw [htu, hst]⟩

theorem modTile (s : State) (j : Nat) {f : Tile → Tile}
    (hf : ∀ a : Tile, ∃ asleep last grant banks, f a = { a with vecAsleep := asleep, vecLast := last, vecGrant := grant, vbanks := banks }) :
    UnitOnly s (s.modTile j f) where
  focus := rfl
  tile l := by
    rw [State.modTile_tile]
    split
    · subst ‹j = l›; exact hf _
    · exact ⟨_, _, _, _, rfl⟩

theorem mcore (h : UnitOnly s t) (c : CoreId) : t.mcore c = s.mcore c := by
  obtain ⟨_, _, _, _, hst⟩ := h.tile c.site
  rw [State.mcore, hst]
  rfl

theorem running (h : UnitOnly s t) (j : Nat) : t.running j = s.running j := by
  obtain ⟨_, _, _, _, hst⟩ := h.tile j
  rw [State.running, hst]
  rfl

theorem monitor (h : UnitOnly s t) : t.monitor = s.monitor := by
  rw [State.monitor, h.focus, h.mcore]
  rfl

theorem me (h : UnitOnly s t) : t.me = s.me := by
  rw [State.me, State.me, State.myCtx, State.myCtx, h.monitor, h.focus, h.mcore, h.running]

theorem myKey (h : UnitOnly s t) : t.myKey = s.myKey := by
  rw [State.myKey, h.me, h.focus]
  rfl

theorem core_my (h : UnitOnly s t) : t.my = t.core s.myKey := by rw [State.my, h.myKey]

end UnitOnly

namespace BanksOnly

theorem my (h : BanksOnly s t) : t.my = s.my := by
  rw [h.unit.core_my, h.rest]
  rfl

theorem rc (h : BanksOnly s t) (r : Reg) : t.rc r = s.rc r :=
  rc_congr h.unit.monitor (by rw [h.my]) (by rw [h.focus, h.unit.mcore]) r

theorem tags (h : BanksOnly s t) : SameTags s t where
  vr r := by
    rw [State.vr, h.unit.me, h.rest]
    rfl
  kind _ := by
    rw [State.kind, h.my]
    rfl

end BanksOnly

/-! The unit at work. -/

/-- The unit has woken for an instruction at this edge of its clock. -/
def Tile.vecWoken (edges : Nat) (t : Tile) : Tile := { t with vecAsleep := false, vecLast := edges }

/-- The unit's grant is used up. -/
def Tile.vecSpent (t : Tile) : Tile := { t with vecGrant := false }

/-- The focus core's unit has woken for an instruction of registers rs. -/
def State.vecWoken (s : State) (rs : List Reg) : State :=
  (s.modTile s.focus.site (Tile.vecWoken (s.edgesAt s.focus.site))).touchBanks rs

/-- Its grant is used up. -/
def State.vecSpent (s : State) : State := s.modTile s.focus.site Tile.vecSpent

theorem State.vecWoken_unit (s : State) (rs : List Reg) : UnitOnly s (s.vecWoken rs) :=
  (UnitOnly.modTile s _ fun _ => ⟨_, _, _, _, rfl⟩).trans (BanksOnly.touch _ _ _ rs).unit

theorem State.atWork_eq (s : State) (hvr : vr ≠ []) : s.atWork vr = (if s.vecHolds then s.vecSpent else s).vecWoken vr := by
  rw [State.atWork, if_neg (by simpa using hvr)]
  split <;> rfl

theorem BanksOnly.woken (h : BanksOnly s t) (vr rs : List Reg) : BanksOnly (s.vecWoken vr) (t.vecWoken rs) := by
  have hmod : BanksOnly (s.modTile s.focus.site (Tile.vecWoken (s.edgesAt s.focus.site)))
      (t.modTile t.focus.site (Tile.vecWoken (t.edgesAt t.focus.site))) := by
    rw [h.focus, State.edgesAt, State.edgesAt, h.cluster]
    exact h.modTile _ fun _ _ hab => congrArg (Tile.vecWoken _) hab
  exact ((BanksOnly.touch _ _ _ vr).symm.trans hmod).trans (BanksOnly.touch _ _ _ rs)

theorem BanksOnly.spent (h : BanksOnly s t) : BanksOnly s.vecSpent t.vecSpent := by
  rw [State.vecSpent, State.vecSpent, h.focus]
  exact h.modTile _ fun _ _ hab => congrArg Tile.vecSpent hab

theorem State.atWork_unit (s : State) (vr : List Reg) : UnitOnly s (s.atWork vr) := by
  by_cases hvr : vr = []
  · rw [State.atWork, if_pos (by rw [hvr]; rfl)]
    exact (BanksOnly.refl s).unit
  · rw [s.atWork_eq hvr]
    split
    · exact (UnitOnly.modTile s _ fun _ => ⟨_, _, _, _, rfl⟩).trans (State.vecWoken_unit _ vr)
    · exact State.vecWoken_unit _ vr

theorem State.atWork_rest (s : State) (vr : List Reg) : s.atWork vr = { s with tiles := (s.atWork vr).tiles } := by
  by_cases hvr : vr = []
  · rw [State.atWork, if_pos (by rw [hvr]; rfl)]
  · rw [s.atWork_eq hvr, State.vecWoken, State.touchBanks]
    rw [(BanksOnly.touch ..).rest]
    split <;> rfl

/-- The checker's state is no matter to the unit. -/
theorem State.atWork_withSig (s : State) (g : Sig) (vr : List Reg) : ((s.modMy (Core.withSig g)).atWork vr).tiles = (s.atWork vr).tiles := by
  by_cases hvr : vr = []
  · subst hvr; rfl
  · rw [State.atWork_eq _ hvr, s.atWork_eq hvr, show (s.modMy (Core.withSig g)).vecHolds = s.vecHolds from rfl]
    obtain ⟨r, rs, rfl⟩ := List.exists_cons_of_ne_nil hvr
    split <;> rfl

/-- Units that an access gives back change the clusters and the arbiter's events alone. -/
theorem State.givenBack_rest (s u : State) (vr : List Reg) : ∃ cs ag, s.givenBack vr u = { u with clusters := cs, agenda := ag } := by
  unfold State.givenBack State.releaseUnits
  dsimp only
  split
  · split <;> exact ⟨_, _, rfl⟩
  · exact ⟨_, _, rfl⟩

theorem State.releaseUnits_clusters (s : State) (cl n : Nat) :
    (s.releaseUnits cl n).clusters = tput {} cl { s.cluster cl with inuse := (s.cluster cl).inuse - n } s.clusters := by
  unfold State.releaseUnits
  dsimp only
  split <;> rfl

theorem State.givenBack_clusters {u t : State} (s : State) (hclusters : u.clusters = t.clusters) :
    (s.givenBack vr u).clusters = (s.givenBack vr t).clusters := by
  unfold State.givenBack
  split
  · rw [State.releaseUnits_clusters, State.releaseUnits_clusters, State.cluster, hclusters]
    rfl
  · exact hclusters

theorem State.givenBack_agenda {u t : State} (s : State) (hclusters : u.clusters = t.clusters) (hagenda : u.agenda = t.agenda) :
    (s.givenBack vr u).agenda = (s.givenBack vr t).agenda := by
  have hcluster (cl : Nat) : u.cluster cl = t.cluster cl := by rw [State.cluster, hclusters]; rfl
  unfold State.givenBack State.releaseUnits
  split
  · simp only [State.modCluster_cluster_same, hcluster]
    split
    · exact hagenda
    · exact congrArg (· ++ _) hagenda
  · exact hagenda

/-- A unit asleep in a cluster that does not reserve for vectors wakes and acts (R421). -/
theorem vecStart_wakes {next : State → Act} {reserves : Bool} (hasleep : (s.tile s.focus.site).vecAsleep = true)
    (hvec : (s.cluster (clusterOf s.focus.site)).vec = false) : vecStart rs s next reserves = next (s.vecWoken rs) := by
  simp only [vecStart, hasleep, hvec, Bool.not_false, if_true]
  rfl

/-- A unit awake with a grant acts and gives it back (R419). -/
theorem vecStart_spends {next : State → Act} {reserves : Bool} (hawake : (s.tile s.focus.site).vecAsleep = false)
    (hgrant : (s.tile s.focus.site).vecGrant = true) : vecStart rs s next reserves =
      ((next (s.vecSpent.vecWoken rs)).1.releaseUnits (clusterOf s.focus.site) 2, (next (s.vecSpent.vecWoken rs)).2) := by
  simp only [vecStart, hawake, hgrant, Bool.false_eq_true, if_false, if_true]
  rfl

/-- A unit awake without a grant acts for an instruction that reserves nothing (R263). -/
theorem vecStart_unreserved {next : State → Act} (hawake : (s.tile s.focus.site).vecAsleep = false)
    (hgrant : (s.tile s.focus.site).vecGrant = false) : vecStart rs s next false = next (s.vecWoken rs) := by
  simp only [vecStart, hawake, hgrant, Bool.false_eq_true, if_false, Bool.not_false, Bool.true_or, if_true]
  rfl

/-- A load or store whose unit need not ramp acts at once, with the unit at work. -/
theorem vecStart_works {next : State → Act} (hw : BanksOnly s w) (hrests : s.vecRests = false) (hvr : vr ≠ []) :
    ∃ x, BanksOnly (s.atWork vr) x ∧ ∀ u v, next x = (u, v) → vecStart rs w next false = (s.givenBack vr u, v) := by
  have hasleepW : (w.tile w.focus.site).vecAsleep = (s.tile s.focus.site).vecAsleep := hw.focus ▸ hw.asleep _
  have hgrantW : (w.tile w.focus.site).vecGrant = (s.tile s.focus.site).vecGrant := hw.focus ▸ hw.grant _
  have hempty : vr.isEmpty = false := by simpa using hvr
  rw [s.atWork_eq hvr]
  cases hasleep : (s.tile s.focus.site).vecAsleep with
  | true =>
    have hvec : (w.cluster (clusterOf w.focus.site)).vec = false := by
      simpa [State.vecRests, hasleep, hw.focus, hw.cluster] using hrests
    have hholds : s.vecHolds = false := by rw [State.vecHolds, hasleep]; rfl
    simp only [State.givenBack, hholds, Bool.and_false, Bool.false_eq_true, if_false]
    exact ⟨_, hw.woken vr rs, fun _ _ hnext => (vecStart_wakes (hasleepW.trans hasleep) hvec).trans hnext⟩
  | false =>
    have hholds : s.vecHolds = (s.tile s.focus.site).vecGrant := by rw [State.vecHolds, hasleep]; rfl
    cases hgrant : (s.tile s.focus.site).vecGrant with
    | true =>
      simp only [State.givenBack, hholds, hgrant, hempty, Bool.not_false, Bool.and_true, if_true]
      refine ⟨_, hw.spent.woken vr rs, fun _ _ hnext => ?_⟩
      rw [vecStart_spends (hasleepW.trans hasleep) (hgrantW.trans hgrant), hw.focus, hnext]
    | false =>
      simp only [State.givenBack, hholds, hgrant, Bool.and_false, Bool.false_eq_true, if_false]
      exact ⟨_, hw.woken vr rs, fun _ _ hnext => (vecStart_unreserved (hasleepW.trans hasleep) (hgrantW.trans hgrant)).trans hnext⟩

/-- A load or store of a unit that rests asks for current, and its core waits for the ramp. -/
theorem vecStart_rests_leaves {next : State → Act} (hw : BanksOnly s w) (hrests : s.vecRests = true) :
    ∃ u, vecStart rs w next false = (u, .done) ∧ u.my = { s.my with stall := .ramp } ∧ u.clusters = s.rampAsked.clusters ∧
      u.ctxs = s.ctxs ∧ u.tiles = w.tiles := by
  have hrestsW : w.vecRests = true := by
    rw [State.vecRests, hw.focus, hw.asleep, hw.cluster]
    exact hrests
  obtain ⟨cs, a, hasks⟩ := w.requestVector_asks
  refine ⟨_, vecStart_rests hrestsW, ?_, ?_, ?_, ?_⟩
  · rw [State.rampAsked, State.modMy_my, ← hw.my, hasks]
    rfl
  · have hregion : w.myRegion = s.myRegion := congrArg ctxRegion hw.unit.me
    change w.requestVector.clusters = s.requestVector.clusters
    unfold State.requestVector
    rw [hw.focus, hregion]
    dsimp only
    rw [hw.cluster]
    obtain ⟨T, hT⟩ : ∃ T, w = { s with tiles := T } := ⟨_, hw.rest⟩
    rw [hT]
    split <;> rfl
  · rw [State.rampAsked, hasks, hw.rest]
    rfl
  · rw [State.rampAsked, hasks]
    rfl

/-! What a vector access reads of the machine. -/

theorem SameTags.trans (h : SameTags s t) (k : SameTags t u) : SameTags s u where
  vr r := (k.vr r).trans (h.vr r)
  kind tag := (k.kind tag).trans (h.kind tag)

theorem SameTags.enabled (h : SameTags s u) (m : Option Mask) (i : Nat) : u.enabled m i = s.enabled m i := by
  simp only [State.enabled, State.vbits, h.vr]

theorem SameTags.live (h : SameTags s u) (v : VAccess) (m : Option Mask) : v.live u m = v.live s m := by
  simp only [VAccess.live, h.enabled]

theorem SameTags.vkeep (h : SameTags s u) (v : VAccess) (m : Option Mask) (d : Reg) : Machine.vkeep u v m d = Machine.vkeep s v m d := by
  simp only [Machine.vkeep, h.enabled, State.vbits, h.vr]

theorem SameTags.gather (h : SameTags s u) (ew : Ew) (ea : Int) (vi : Reg) : gatherAccess ew ea u vi = gatherAccess ew ea s vi := by
  simp only [gatherAccess, h.vr]

theorem SameTags.indexOk (h : SameTags s u) (vi : Reg) : Machine.indexOk vi u = Machine.indexOk vi s := by
  simp only [Machine.indexOk, h.vr]

/-- What the load of the access asks for, or takes of its trail. -/
def vloadNext (s : State) (v : VAccess) (m : Option Mask) (d : Reg) (tag : Byte) (x : State) : Act :=
  startLoad x (.vector d tag (vkeep s v m d).1 (vkeep s v m d).2) (v.addr ((v.live s m).headD 0)).toNat (vplaces v (v.live s m)) false false

theorem SameTags.vloadBody (h : SameTags s u) (v : VAccess) (m : Option Mask) (d : Reg) (tag : Byte) :
    Machine.vloadBody u v m d tag = vecStart (d :: maskRegs m) u (vloadNext s v m d tag) false := by
  simp only [Machine.vloadBody, h.live, h.vkeep]
  rfl

/-- A vector access issues under a declaration of an activation that names vector registers; where u reads as s does, its body starts the
unit in u, but for banks, and acts as next. -/
def Accesses (i : Instr) (s : State) (next : State → Act) : Prop :=
  (s.declared i).mon = false ∧ (s.declared i).monOnly = false ∧ (decl i).vr ≠ [] ∧ ∃ body : State → Act,
    exec i s = issue (s.declared i) body s ∧ ∀ u, SameTags s u → (∀ r, u.rc r = s.rc r) →
      ∃ w rs, BanksOnly u w ∧ body u = vecStart rs w next false

/-- A load by elements whose checks pass. -/
theorem vloadElems_passes {off : W32} {tag : Byte} {extra : State → Bool} {acc : State → Int → VAccess} (hu : SameTags s u)
    (hrc : u.rc a = s.rc a) (hkind : (s.kind tag).isSome = true) (hmask : s.maskOk m = true) (hextra : extra u = true)
    (hkeep : s.keepOk m d tag = true) (hacc : ∀ ea, acc u ea = acc s ea)
    (hcheck : checkElems (s.rc a) (acc s ((s.rc a).addr + off.toInt)) ((acc s ((s.rc a).addr + off.toInt)).live s m) { l := true } = none) :
    vloadElems d a off tag m extra acc u = vecStart (d :: maskRegs m) u (vloadNext s (acc s ((s.rc a).addr + off.toInt)) m d tag) false := by
  have hnone : (s.kind tag).isNone = false := by rw [Option.isNone_eq_false_iff, hkind]
  simp only [vloadElems, vmemTags, hu.kind, hu.maskOk, hu.keepOk, hnone, hmask, hextra, hkeep, Bool.not_true, Bool.or_self, Bool.false_eq_true,
    if_false, hrc, hacc, hu.live, hcheck, vAct]
  exact hu.vloadBody ..

/-- A vector load whose checks pass, whatever its form (R127 to R130). -/
theorem exec_vloadForm {tag : Byte} {v : VAccess} (h : vloadForm i s = some (d, tag, v, m, true, none)) :
    Accesses i s (vloadNext s v m d tag) := by
  cases i with
  | ldv d' a off tag' m' =>
    cases hk : s.kind tag' with
    | none => simp [vloadForm, hk] at h
    | some k =>
      simp only [vloadForm, hk, Option.bind_some, Option.some.injEq, Prod.mk.injEq, Bool.and_eq_true] at h
      obtain ⟨rfl, rfl, rfl, rfl, ⟨hmask, hkeep⟩, hcheck⟩ := h
      refine ⟨rfl, rfl, List.cons_ne_nil _ _, _, rfl, fun u hu hrc => ⟨u, d' :: maskRegs m', BanksOnly.refl u, ?_⟩⟩
      simp only [vmemTags, hu.kind, hk, hu.maskOk, hu.keepOk, hmask, hkeep, Bool.not_true, Bool.or_self, Bool.false_eq_true, if_false, hrc,
        hu.live, hcheck, vAct]
      exact hu.vloadBody ..
  | ldvs d' a b off tag' ew m' =>
    simp only [vloadForm, Option.some.injEq, Prod.mk.injEq, Bool.and_eq_true] at h
    obtain ⟨rfl, rfl, rfl, rfl, ⟨⟨⟨hkind, hmask⟩, -⟩, hkeep⟩, hcheck⟩ := h
    refine ⟨rfl, rfl, List.cons_ne_nil _ _, _, rfl, fun u hu hrc => ⟨u, d' :: maskRegs m', BanksOnly.refl u, ?_⟩⟩
    exact vloadElems_passes hu (hrc a) (Option.isSome_of_any hkind) hmask rfl hkeep (fun ea => by simp only [State.rd, hrc]) hcheck
  | ldvg d' a vi off tag' ew m' =>
    simp only [vloadForm, Option.some.injEq, Prod.mk.injEq, Bool.and_eq_true] at h
    obtain ⟨rfl, rfl, rfl, rfl, ⟨⟨⟨hkind, hmask⟩, hindex⟩, hkeep⟩, hcheck⟩ := h
    refine ⟨rfl, rfl, List.cons_ne_nil _ _, _, rfl, fun u hu hrc => ?_⟩
    have htouch : BanksOnly u (u.touchBanks [vi]) := BanksOnly.touch ..
    have htags := hu.trans htouch.tags
    exact ⟨_, d' :: maskRegs m', htouch, vloadElems_passes htags ((htouch.rc a).trans (hrc a)) (Option.isSome_of_any hkind) hmask
      ((htags.indexOk vi).trans hindex) hkeep (fun ea => htags.gather ew ea vi) hcheck⟩
  | _ => cases h

/-- A store by elements whose checks pass. -/
theorem vstoreElems_passes {off : W32} {ew : Ew} {extra : State → Bool} {acc : State → Int → VAccess} (hu : SameTags s u)
    (hrc : u.rc a = s.rc a) (hmask : s.maskOk m = true) (hextra : extra u = true)
    (htag : ((s.vr d).tag == 0#8 || (s.kind (s.vr d).tag).any fun k => k.typed && k.width == ewBits ew) = true)
    (hacc : ∀ ea, acc u ea = acc s ea)
    (hcheck : checkElems (s.rc a) (acc s ((s.rc a).addr + off.toInt)) ((acc s ((s.rc a).addr + off.toInt)).live s m) { s := true } = none) :
    vstoreElems ew d a off m extra acc u = vecStart (d :: maskRegs m) u (storeEntries (trailAddAll [] (vstoreEntries (s.vbits d)
      (acc s ((s.rc a).addr + off.toInt)) ((acc s ((s.rc a).addr + off.toInt)).live s m)))) false := by
  simp only [vstoreElems, vmemTags, hu.vr, hu.kind, hu.maskOk, hmask, hextra, htag, Bool.not_true, Bool.or_self, Bool.false_eq_true,
    if_false, hrc, hacc, hu.live, hcheck, vAct, State.vbits]

/-- A vector store whose checks pass, whatever its form (R127 to R129, R131). -/
theorem exec_vstoreForm {es : List TrailEntry} (h : vstoreForm i s = some (es, true, none)) : Accesses i s (storeEntries es) := by
  cases i with
  | stv d a off m =>
    cases hk : s.kind (s.vr d).tag with
    | none => simp [vstoreForm, hk] at h
    | some k =>
      simp only [vstoreForm, hk, Option.bind_some, Option.some.injEq, Prod.mk.injEq, Bool.and_eq_true] at h
      obtain ⟨rfl, ⟨hmask, hbytes⟩, hcheck⟩ := h
      refine ⟨rfl, rfl, List.cons_ne_nil _ _, _, rfl, fun u hu hrc => ⟨u, d :: maskRegs m, BanksOnly.refl u, ?_⟩⟩
      have hwhole : (m.isSome && (!k.typed || decide (k.width < 8))) = false := by
        cases m with
        | none => rfl
        | some _ => simpa using hbytes
      simp only [vmemTags, hu.vr, hu.kind, hk, hu.maskOk, hmask, hwhole, Bool.not_true, Bool.or_self, Bool.false_eq_true, if_false, hrc,
        hu.live, hcheck, vAct, State.vbits]
  | stvs d a b off ew m =>
    simp only [vstoreForm, Option.some.injEq, Prod.mk.injEq, Bool.and_eq_true] at h
    obtain ⟨rfl, ⟨⟨hmask, -⟩, htag⟩, hcheck⟩ := h
    refine ⟨rfl, rfl, List.cons_ne_nil _ _, _, rfl, fun u hu hrc => ⟨u, d :: maskRegs m, BanksOnly.refl u, ?_⟩⟩
    exact vstoreElems_passes hu (hrc a) hmask rfl htag (fun ea => by simp only [State.rd, hrc]) hcheck
  | stvg d a vi off ew m =>
    simp only [vstoreForm, Option.some.injEq, Prod.mk.injEq, Bool.and_eq_true] at h
    obtain ⟨rfl, ⟨⟨hmask, hindex⟩, htag⟩, hcheck⟩ := h
    refine ⟨rfl, rfl, List.cons_ne_nil _ _, _, rfl, fun u hu hrc => ?_⟩
    have htouch : BanksOnly u (u.touchBanks [vi]) := BanksOnly.touch ..
    have htags := hu.trans htouch.tags
    exact ⟨_, d :: maskRegs m, htouch, vstoreElems_passes htags ((htouch.rc a).trans (hrc a)) hmask
      ((htags.indexOk vi).trans hindex) htag (fun ea => htags.gather ew ea vi) hcheck⟩
  | _ => cases h

/-! The act, in the machine with its unit at work. -/

/-- The cores behind the checker's entry and an update of the issuer's. -/
theorem State.modMy_withSig_core (s : State) (g : Sig) (f : Core → Core) (j : Nat) : ((s.modMy (Core.withSig g)).modMy f).core j =
    if j = s.myKey then f (s.my.withSig g) else s.core j := by
  split
  · subst ‹j = s.myKey›
    exact (State.modMy_core_same (s.modMy (Core.withSig g)) f).trans (congrArg f (State.modMy_my s _))
  · rename_i hj
    exact (State.modMy_core_other (s.modMy (Core.withSig g)) f j (Ne.symm hj)).trans (State.modMy_core_other s _ j (Ne.symm hj))

/-- A core with a request in a slot. -/
def Core.withReq (slot : Nat) (q : Req) (c : Core) : Core := { c with reqs := tput none slot (some q) c.reqs }

/-- A core with a trail. -/
def Core.withTrail (es : List TrailEntry) (c : Core) : Core := { c with trail := es }

/-- The request of a vector load. -/
def State.vecReq (s : State) (v : VAccess) (m : Option Mask) (d : Reg) (tag : Byte) : Req :=
  let ps := vplaces v (v.live s m)
  { kind := .vector d tag (vkeep s v m d).1 (vkeep s v m d).2, v := s.my.view, va := (v.addr ((v.live s m).headD 0)).toNat
    want := wantedBytes s.my ps, got := ownBytes s.my ps, refills := s.my.refills (ps.map (·.2)), pc := s.my.pc, word := s.word0 }

/-- The machine that a vector access finds, its unit at work: x is s, with the checker set, but for the tiles, and these are as the unit's
work leaves them, but for banks. -/
structure FindsAtWork (s : State) (g : Sig) (vr : List Reg) (x : State) : Prop where
  rest : x = { s with cores := (s.modMy (Core.withSig g)).cores, tiles := x.tiles }
  unit : UnitOnly s x
  tile : ∀ j, (x.tile j).bankless = ((s.atWork vr).tile j).bankless

theorem FindsAtWork.of_banks {g : Sig} (h : BanksOnly ((s.modMy (Core.withSig g)).atWork vr) x) : FindsAtWork s g vr x where
  rest := by
    rw [h.rest, State.atWork_rest]
    rfl
  unit :=
    have hunit := (State.atWork_unit (s.modMy (Core.withSig g)) vr).trans h.unit
    ⟨hunit.focus, hunit.tile⟩
  tile j := by
    rw [h.tile, State.tile, s.atWork_withSig]
    rfl

/-- The machine that a vector access's act leaves, with its cluster's units still to be given back. -/
structure Acted (s : State) (vr : List Reg) (p : State) : Prop where
  rest : p = { s with cores := p.cores, ctxs := p.ctxs, tiles := p.tiles, agenda := p.agenda }
  unit : UnitOnly s p
  tile : ∀ j, (p.tile j).bankless = ((s.atWork vr).tile j).bankless

section
variable {g : Sig} (h : FindsAtWork s g vr x)
include h

theorem FindsAtWork.myKey : x.myKey = s.myKey := h.unit.myKey

theorem FindsAtWork.my : x.my = s.my.withSig g := by
  rw [h.unit.core_my, h.rest]
  exact State.modMy_core_same s _

theorem FindsAtWork.modMy (f : Core → Core) :
    x.modMy f = { s with cores := ((s.modMy (Core.withSig g)).modMy f).cores, tiles := x.tiles } := by
  rw [State.modMy, h.myKey]
  conv_lhs => rw [h.rest]
  rfl

theorem FindsAtWork.freeSlot : x.freeSlot = s.freeSlot := by
  rw [State.freeSlot, h.my]
  rfl

theorem FindsAtWork.word0 : x.word0 = s.word0 := by
  rw [State.word0, h.my]
  rfl

theorem FindsAtWork.acted (cs : Tbl Core) (ag : List Turn) : Acted s vr { s with cores := cs, tiles := x.tiles, agenda := ag } where
  rest := rfl
  unit := ⟨rfl, h.unit.tile⟩
  tile := h.tile

/-- A load that needs a byte of memory or of the trail area takes a slot and asks. -/
theorem FindsAtWork.asks {v : VAccess} {tag : Byte} {slot : Nat} (hslot : s.freeSlot = some slot)
    (hwants : (s.vecReq v m d tag).want ≠ [] ∨ (s.vecReq v m d tag).refills ≠ []) : ∃ p, vloadNext s v m d tag x = (p, .retire) ∧
      Acted s vr p ∧ p.ctxs = s.ctxs ∧
      p.agenda = (s.post (if (s.vecReq v m d tag).refills = [] then .loadRequest s.myKey slot else .trailRefill s.myKey slot)).agenda ∧
      ∀ j, p.core j = if j = s.myKey then (s.my.withSig g).withReq slot (s.vecReq v m d tag) else s.core j := by
  have hmy := h.my
  rw [vloadNext, startLoad_asks (h.freeSlot.trans hslot) (by rw [hmy]; exact hwants), h.myKey, h.word0]
  simp only [hmy]
  rw [show ∀ q, (fun c : Core => { c with reqs := tput none slot (some q) c.reqs }) = Core.withReq slot q from fun _ => rfl, h.modMy]
  exact ⟨_, rfl, h.acted _ _, rfl, rfl, s.modMy_withSig_core g _⟩

/-- A load that the trail's buffer holds whole writes its register at once, and wakes its bank. -/
theorem FindsAtWork.forwards {v : VAccess} {tag : Byte} {slot : Nat} (hslot : s.freeSlot = some slot)
    (hwants : (s.vecReq v m d tag).want = []) (hrefills : (s.vecReq v m d tag).refills = []) : ∃ p, vloadNext s v m d tag x = (p, .retire) ∧
      Acted s vr p ∧ p.cores = (s.modMy (Core.withSig g)).cores ∧ p.agenda = s.agenda ∧
      ∀ y, p.ctx y = if y = s.me then Ctx.putVec d
        { bits := BitVec.ofNat 1024 (mixBits (vkeep s v m d).1 (s.vecReq v m d tag).got (vkeep s v m d).2), tag := tag } (s.ctx y) else s.ctx y := by
  have hmy := h.my
  rw [vloadNext, startLoad_forwards (h.freeSlot.trans hslot) (by rw [hmy]; exact hwants) (by rw [hmy]; exact hrefills), h.myKey, hmy]
  generalize hr : ({ bits := _, tag := tag } : VReg) = r
  have hx : x.modCtx s.me (Ctx.putVec d r) = { s with
      cores := (s.modMy (Core.withSig g)).cores, ctxs := (s.modCtx s.me (Ctx.putVec d r)).ctxs, tiles := x.tiles } := by
    conv_lhs => rw [h.rest]
    rfl
  have htouch := BanksOnly.touch (x.modCtx s.me (Ctx.putVec d r)) (x.ctx s.me).site (x.ctx s.me).slot [d]
  have hdeliver : deliver x s.myKey (.vector d tag (vkeep s v m d).1 (vkeep s v m d).2) (s.vecReq v m d tag).got false =
      (x.modCtx s.me (Ctx.putVec d r)).touchBanksAt (x.ctx s.me).site (x.ctx s.me).slot [d] := by
    rw [deliver, show coreCtx s.myKey = s.me from coreCtx_coreKey .., ← hr]
    rfl
  refine ⟨_, congrArg (·, _) hdeliver, ⟨?_, ?_, ?_⟩, ?_, ?_, fun y => ?_⟩
  · rw [htouch.rest, hx]
  · exact UnitOnly.trans (t := x.modCtx s.me (Ctx.putVec d r)) ⟨h.unit.focus, h.unit.tile⟩ htouch.unit
  · exact fun j => (htouch.tile j).trans (h.tile j)
  · rw [htouch.rest, hx]
  · rw [htouch.rest, hx]
  · rw [State.ctx, htouch.rest, hx]
    refine (State.modCtx_ctx s s.me (Ctx.putVec d r) y).trans ?_
    by_cases hy : y = s.me
    · rw [if_pos hy, if_pos hy.symm, hy]
    · rw [if_neg hy, if_neg (Ne.symm hy)]

/-- A store that the segment and the trail have room for appends its entries. -/
theorem FindsAtWork.appends {es : List TrailEntry} (hstep : s.my.prog.step = 0) (hrel : s.my.prog.rel = none)
    (hseg : newGranules s.my.trail es ≤ s.segRoom s.myKey) (hroom : newGranules s.my.trail es ≤ s.trailRoom s.myKey) : ∃ p,
      storeEntries es x = (p, .retire) ∧ Acted s vr p ∧ p.ctxs = s.ctxs ∧
      ∀ j, p.core j = if j = s.myKey then (s.my.withSig g).withTrail (trailAddAll s.my.trail es) else s.core j := by
  have hmy := h.my
  have hcore : x.core s.myKey = s.my.withSig g := h.unit.core_my.symm.trans hmy
  have hseg' : x.segRoom s.myKey = s.segRoom s.myKey := by
    rw [State.segRoom, hcore, h.rest]
    rfl
  have hroom' : x.trailRoom s.myKey = s.trailRoom s.myKey := by
    rw [State.trailRoom, State.sealedCount, hcore, h.rest]
    rfl
  have happend := storeEntries_appends (u := x) (es := es) (by rw [hmy]; exact hstep) (by rw [hmy]; exact hrel)
    (by rw [h.myKey, hmy, hseg']; exact hseg) (by rw [h.myKey, hmy, hroom']; exact hroom)
  have hadds : x.append x.myKey es = { s with
      cores := ((s.modMy (Core.withSig g)).modMy (Core.withTrail (trailAddAll s.my.trail es))).cores, tiles := x.tiles } := by
    rw [State.append_my, ← h.modMy, hmy]
    rfl
  obtain ⟨ag, hposts⟩ := State.spillNote_posts (x.append x.myKey es) x.myKey (x.trailTotal x.myKey)
  rw [happend, hposts, hadds]
  exact ⟨_, rfl, h.acted _ _, rfl, s.modMy_withSig_core g _⟩

end

/-- A vector access whose act left p ends with what it gives back of its cluster's units. -/
theorem issue_ends_acted {j : Issue} {body : State → Act} {g : Sig} {p : State} (hfree : Free j s)
    (hc : Checked j s (s.modMy (Core.withSig g)) false) (hmon : s.monitor = false)
    (hbody : body (s.modMy (Core.withSig g)) = (s.givenBack vr p, .retire)) (h : Acted s vr p)
    (hpc : (p.core s.myKey).pc = s.my.pc) (hkill : (p.core s.myKey).killLater = s.my.killLater) :
    ∃ t u, issue j body s = .next t ∧ Ends u t (s.pcNow + j.len) ∧ (∀ j, (u.tile j).bankless = ((s.atWork vr).tile j).bankless) ∧
      u.clusters = (s.givenBack vr s).clusters ∧ u.agenda = (s.givenBack vr { s with agenda := p.agenda }).agenda ∧ UnitOnly s u ∧
      u = { p with clusters := u.clusters, agenda := u.agenda } := by
  have hclusters : p.clusters = s.clusters := by rw [h.rest]
  obtain ⟨cs, ag, hrest⟩ := s.givenBack_rest p vr
  have hunit : UnitOnly s (s.givenBack vr p) := by
    rw [hrest]
    exact ⟨h.unit.focus, h.unit.tile⟩
  have hcore : (s.givenBack vr p).my = p.core s.myKey := by
    rw [hunit.core_my, hrest]
    rfl
  have hpcNow : (s.givenBack vr p).pcNow = s.pcNow := by
    rw [State.pcNow, hunit.monitor, hmon, State.pcNow, hmon, if_neg Bool.false_ne_true, if_neg Bool.false_ne_true, hcore, hpc]
  obtain ⟨t, hnext, hends⟩ := issue_ends hfree hc hbody (by rw [hcore, hkill]; exact hfree.kill)
  rw [hpcNow] at hends
  refine ⟨t, _, hnext, hends, fun j => ?_, State.givenBack_clusters s hclusters, State.givenBack_agenda s hclusters rfl, hunit, by rw [hrest]⟩
  rw [hrest]
  exact h.tile j

end

end Sys2Proof.Machine

namespace Sys2Proof.Proofs

open Sys2Proof Sys2Proof.Machine

/-- Settles O18: a load's or store's body starts the unit (`exec_vloadForm`, `exec_vstoreForm`), which rests (`vecStart_rests_leaves`) or is at work
(`vecStart_works`); there the load asks or takes its trail's bytes, and the store appends (`FindsAtWork.asks`, `FindsAtWork.forwards`,
`FindsAtWork.appends`). -/
theorem vectorAccessesReachMemory : Obligations.VectorAccessesReachMemory := by
  unfold Obligations.VectorAccessesReachMemory
  refine ⟨?load, ?store⟩
  case load =>
    intro i s s' d tag v m slot hform ⟨hfree, hc⟩ ps k spilled vr atWork
    obtain ⟨hmonOk, honly, hvr, body, hexec, hbody⟩ := exec_vloadForm hform
    have hmon := hfree.activation hmonOk honly
    obtain ⟨g, rfl⟩ := hc.sets hmon
    obtain ⟨w, rs, hw, hbody⟩ := hbody _ (SameTags.withSig s g) hc.rc
    refine ⟨fun hrests => ?rests, fun hrests hslot => ?works⟩
    case rests =>
      obtain ⟨u, hstart, hmy, hclusters, hctxs, htiles⟩ := vecStart_rests_leaves (rs := rs) (next := vloadNext s v m d tag) hw hrests
      refine ⟨u, hexec.trans (issue_waits hfree hc (hbody.trans hstart)), hmy, hclusters, hctxs, fun j => ?_⟩
      rw [State.tile, htiles]
      exact hw.tile j
    case works =>
      obtain ⟨x, hx, hstart⟩ := vecStart_works (rs := rs) (next := vloadNext s v m d tag) hw hrests hvr
      have hfinds := FindsAtWork.of_banks hx
      refine ⟨fun hwants => ?asks, fun hwants hspilled => ?forwards⟩
      case asks =>
        obtain ⟨p, hacts, hacted, hctxs, hagenda, hcores⟩ := hfinds.asks hslot hwants
        have hmine := (hcores s.myKey).trans (if_pos rfl)
        obtain ⟨t, u, hnext, hends, htile, hclusters, hgiven, -, hu⟩ := issue_ends_acted hfree hc hmon (hbody.trans (hstart _ _ hacts)) hacted
          (by rw [hmine]; rfl) (by rw [hmine]; rfl)
        refine ⟨t, u, hexec.trans hnext, State.declared_len s i ▸ hends, ⟨htile, hclusters⟩, ?_, ?_, fun j => ?_⟩
        · rw [hu, hacted.rest, hctxs]
          rfl
        · rw [hgiven, hagenda]
          rfl
        · rw [hu, State.modMy_my]
          exact hcores j
      case forwards =>
        obtain ⟨p, hacts, hacted, hcores, hagenda, hctxs⟩ := hfinds.forwards hslot hwants hspilled
        have hmine : p.core s.myKey = s.my.withSig g := by
          rw [State.core, hcores]
          exact State.modMy_core_same s _
        obtain ⟨t, u, hnext, hends, htile, hclusters, hgiven, -, hu⟩ := issue_ends_acted hfree hc hmon (hbody.trans (hstart _ _ hacts)) hacted
          (by rw [hmine]; rfl) (by rw [hmine]; rfl)
        refine ⟨t, u, hexec.trans hnext, State.declared_len s i ▸ hends, ⟨htile, hclusters⟩, ?_, ?_, fun y => ?_⟩
        · rw [hu, hacted.rest, hcores]
          rfl
        · rw [hgiven, hagenda]
        · rw [hu]
          exact hctxs y
  case store =>
    intro i s s' es hform ⟨hfree, hc⟩ hstep hrel hrests hseg hroom vr
    obtain ⟨hmonOk, honly, hvr, body, hexec, hbody⟩ := exec_vstoreForm hform
    have hmon := hfree.activation hmonOk honly
    obtain ⟨g, rfl⟩ := hc.sets hmon
    obtain ⟨w, rs, hw, hbody⟩ := hbody _ (SameTags.withSig s g) hc.rc
    obtain ⟨x, hx, hstart⟩ := vecStart_works (rs := rs) (next := storeEntries es) hw hrests hvr
    obtain ⟨p, hacts, hacted, hctxs, hcores⟩ := (FindsAtWork.of_banks hx).appends hstep hrel hseg hroom
    have hmine := (hcores s.myKey).trans (if_pos rfl)
    obtain ⟨t, u, hnext, hends, htile, hclusters, -, hunit, hu⟩ := issue_ends_acted hfree hc hmon (hbody.trans (hstart _ _ hacts)) hacted
      (by rw [hmine]; rfl) (by rw [hmine]; rfl)
    have hmy : u.my = (s.my.withSig g).withTrail (trailAddAll s.my.trail es) := by
      rw [hunit.core_my, hu]
      exact hmine
    have htiles : t.tiles = u.tiles := hends.frame.tiles (hunit.monitor.trans hmon)
    have hall : u = { s with cores := u.cores, tiles := u.tiles, clusters := u.clusters, agenda := u.agenda } := by
      rw [hu, hacted.rest, hctxs]
    have hrest : t = { u with cores := t.cores, tiles := t.tiles } := hends.frame.rest
    obtain ⟨c, pc, sig, htmy⟩ := hends.frame.my
    refine ⟨t, hexec.trans hnext, by rw [htmy, hmy]; rfl, fun r => ?_, ?_, fun j hj => ?_, ?_, fun j => ?_, ?_, fun b => ?_, fun b => ?_⟩
    · rw [hends.regs]
      exact rc_congr hunit.monitor (by rw [hmy]; rfl) (by rw [hunit.focus, hunit.mcore]) r
    · rw [hends.pc, State.declared_len]
    · rw [hends.frame.others j (by rw [hunit.myKey]; exact hj), hu]
      exact (hcores j).trans (if_neg hj)
    · rw [hrest, hall]
    · rw [State.tile, htiles]
      exact htile j
    · rw [hrest]
      exact hclusters
    · rw [State.rimByte, hends.frame.memory.1, hall]
      rfl
    · rw [State.hostByte, hends.frame.memory.2, hall]
      rfl

end Sys2Proof.Proofs

/-! PROOFS. Handles allocated and managed (O26, O27). Each instruction's body is said once, in whatever state passes CheckHandle; what an
operation leaves of the focus core's seat (`SameSeat`) then says where the instruction ends. -/

namespace Sys2Proof.Machine

open Sys2Proof

section
variable {s s' t u v : State} {j : Issue} {body : State → Act} {e : Entry} {p : Nat × Nat} {g : Sig} {x h : Nat} {k : Kind}

/-! The focus core's seat. -/

/-- The focus, every monitor and every running slot of t are those of s. -/
structure SameSeat (s t : State) : Prop where
  focus : t.focus = s.focus
  mcore (c : CoreId) : t.mcore c = s.mcore c
  running (i : Nat) : t.running i = s.running i

theorem SameSeat.refl (s : State) : SameSeat s s := ⟨rfl, fun _ => rfl, fun _ => rfl⟩

theorem SameSeat.trans (h : SameSeat s t) (k : SameSeat t u) : SameSeat s u where
  focus := k.focus.trans h.focus
  mcore c := (k.mcore c).trans (h.mcore c)
  running i := (k.running i).trans (h.running i)

/-- What changes neither the tiles nor the focus. -/
theorem SameSeat.aside (htiles : t.tiles = s.tiles) (hfocus : t.focus = s.focus) : SameSeat s t where
  focus := hfocus
  mcore c := by rw [State.mcore, State.tile, htiles]; rfl
  running i := by rw [State.running, State.tile, htiles]; rfl

theorem SameSeat.modCtx (s : State) (x : Nat) (f : Ctx → Ctx) : SameSeat s (s.modCtx x f) := .aside rfl rfl

/-- A tile's update that keeps its monitors and slots. -/
theorem SameSeat.modTile (s : State) (i : Nat) {f : Tile → Tile} (hmcore : ∀ t c, (f t).mcore c = t.mcore c)
    (hslots : ∀ t, (f t).slots = t.slots ∧ (f t).run = t.run) : SameSeat s (s.modTile i f) where
  focus := rfl
  mcore c := by
    rw [State.mcore, State.modTile_tile]
    split
    · subst ‹i = c.site›; exact hmcore _ _
    · rfl
  running l := by
    rw [State.running, State.modTile_tile]
    split
    · subst ‹i = l›; rw [(hslots _).1, (hslots _).2]; rfl
    · rfl

theorem SameSeat.monitor (h : SameSeat s t) : t.monitor = s.monitor := by rw [State.monitor, h.focus, h.mcore]; rfl

theorem SameSeat.me (h : SameSeat s t) : t.me = s.me := by
  rw [State.me, State.me, State.myCtx, State.myCtx, h.monitor, h.focus, h.mcore, h.running]

theorem SameSeat.myKey (h : SameSeat s t) : t.myKey = s.myKey := by rw [State.myKey, h.me, h.focus]; rfl

theorem SameSeat.core_my (h : SameSeat s t) : t.my = t.core s.myKey := by rw [State.my, h.myKey]

theorem SameSeat.my (h : SameSeat s t) (hcores : t.cores = s.cores) : t.my = s.my := by
  rw [h.core_my, State.core, hcores]; rfl

theorem SameSeat.pcNow (h : SameSeat s t) (hpc : t.my.pc = s.my.pc) : t.pcNow = s.pcNow := by
  rw [State.pcNow, h.monitor, h.focus, h.mcore, hpc]; rfl

/-! The ends of an instruction, from the seat. -/

/-- An instruction whose body retires with the cores and the seat as it found them ends behind itself. -/
theorem issue_ends_seat (hf : Free j s) (hc : Checked j s s' false) (hb : body s' = (u, .retire)) (hseat : SameSeat s' u)
    (hcores : u.cores = s'.cores) : ∃ t, issue j body s = .next t ∧ Ends u t (s.pcNow + j.len) := by
  have hmy := hseat.my hcores
  obtain ⟨t, hnext, hends⟩ := issue_ends hf hc hb (by rw [hmy]; exact hc.kill hf)
  exact ⟨t, hnext, (hseat.pcNow (congrArg Core.pc hmy)).trans hc.pcNow ▸ hends⟩

/-- An instruction whose body has to wait leaves what the body left, to issue again. -/
theorem issue_stays (hf : Free j s) (hc : Checked j s s' false) (hb : body s' = (u, .stay)) : issue j body s = .next u := by
  obtain ⟨g, h⟩ := issue_next hf hc hb fun _ => rfl
  exact h

/-! The scoreboard (R157). -/

/-- An entry is made in a place of its tile's board, and changes nothing else. -/
theorem State.addEntry_some (h : s.addEntry e = some (p, v)) :
    ∃ i, v = s.modTile (s.handleSite e.ctx e.h) fun t => { t with board := tput none i (some e) t.board } := by
  unfold State.addEntry at h
  dsimp only at h
  split at h
  · simp only [Option.some.injEq, Prod.mk.injEq] at h
    exact ⟨_, h.2.symm⟩
  · cases h

theorem SameSeat.modBoard (s : State) (i : Nat) (f : Tbl (Option Entry) → Tbl (Option Entry)) :
    SameSeat s (s.modTile i fun t => { t with board := f t.board }) := .modTile s i (fun _ _ => rfl) fun _ => ⟨rfl, rfl⟩

theorem State.addEntry_kept (h : s.addEntry e = some (p, v)) : SameSeat s v ∧ v.cores = s.cores ∧ v.ctxs = s.ctxs := by
  obtain ⟨i, rfl⟩ := State.addEntry_some h
  exact ⟨.modBoard s _ (tput none i (some e)), rfl, rfl⟩

/-! CheckHandle (R161), behind the checker's entry. -/

theorem State.declaredHandles_withSig (s : State) (g : Sig) : (s.modMy (Core.withSig g)).declaredHandles = s.declaredHandles := by
  rw [State.declaredHandles, State.modMy_my]
  rfl

theorem checkHandle_withSig (s : State) (g : Sig) (h : Nat) (need : Bool) :
    checkHandle (s.modMy (Core.withSig g)) h need = checkHandle s h need := by
  rw [checkHandle, State.declaredHandles_withSig]
  rfl

theorem withHandle_passes {h : Reg} {need : Bool} {off : Nat} {k : Unit → Act} (hok : checkHandle s h.toNat need = none) :
    withHandle s h need off k = k () := by
  simp only [withHandle, hok]

/-- The number of a register is its own remainder in FAULTINFO's field (R150). -/
theorem handleInfo_reg (h : Reg) (reason : Nat) : handleInfo h.toNat reason = h.toNat + 32 * reason := by
  rw [handleInfo, Nat.mod_eq_of_lt h.isLt]

/-! Zero fills (R162, R167). -/

/-- A zero fill with room for its entry empties the handle and tells when it is done. -/
theorem zeroFill_starts (hadds : s.addEntry { ctx := x, h := h, lo := 0, hi := (s.handle x h).image, writes := true, kind := 1 } = some (p, v)) :
    zeroFill s x h = some ((v.modHandle x h fun g => { g with bytes := [], bad := [] }).post (.zeroFillComplete p.1 p.2)) := by
  rw [zeroFill, hadds]
  rfl

/-- The fill leaves the seat and the cores as they were. -/
theorem zeroFill_kept (hadds : s.addEntry e = some (p, v)) (x h : Nat) (f : Handle → Handle) (i : Instr) :
    SameSeat s ((v.modHandle x h f).post i) ∧ ((v.modHandle x h f).post i).cores = s.cores := by
  obtain ⟨hseat, hcores, -⟩ := State.addEntry_kept hadds
  exact ⟨hseat.trans (.aside rfl rfl), hcores⟩

/-! HALLOC (R162). -/

/-- The handle that HALLOC makes of its operands. -/
def newHandle (rows cols : W16) (tag : Byte) (level : Level) (retain shatom : Bool) (k : Kind) : Handle :=
  { st := 1, rows := rows.toNat, cols := cols.toNat, tag := tag, level := level, retain := retain, shatom := shatom
    ebits := if k = .raw then 8 else k.width }

/-- A handle has the parameters that HALLOC names. -/
def Handle.hasShape (g : Handle) (rows cols : W16) (tag : Byte) (level : Level) (retain shatom : Bool) : Prop :=
  g.rows = rows.toNat ∧ g.cols = cols.toNat ∧ g.tag = tag ∧ g.level = level ∧ g.retain = retain ∧ g.shatom = shatom

/-- The tile that an allocation at a level of the focus context takes its granules from (R147). -/
def State.levelSite (s : State) (level : Level) : Nat := if level = .twin then twin (s.ctx s.me).site else (s.ctx s.me).site

/-- The focus context with handle h allocated as new, its granules taken and charged (R149). -/
def State.allocated (s : State) (h : Nat) (new : Handle) : State :=
  (s.modHandle s.me h fun _ => { new with granules := (s.granulesFree (s.levelSite new.level)).take new.size }).modCtx s.me fun c =>
    { c with used := c.used + new.size }

theorem State.allocated_image (s : State) (h : Nat) (new : Handle) : ((s.allocated h new).handle s.me h).image = new.image := by
  rw [State.allocated, State.handle, State.modCtx_ctx_same]
  change ((s.modHandle s.me h _).handle s.me h).image = _
  rw [State.modHandle_handle_same]
  rfl

section
variable (h : Reg) (rows cols : W16) (tag : Byte) (level : Level) (retain shatom : Bool)

/-- HALLOC's body on a handle that CheckHandle passes. -/
theorem exec_halloc (s : State) : ∃ body : State → Act, exec (.halloc h rows cols tag level retain shatom) s =
    issue (s.declared (.halloc h rows cols tag level retain shatom)) body s ∧ ∀ u, checkHandle u h.toNat false = none →
    let old := u.handle u.me h.toNat
    (∀ k t, old.st = 0 → u.kind tag = some k → (level = .twin → u.good (twin (u.ctx u.me).site) = true) →
      u.fits u.me (newHandle rows cols tag level retain shatom k).size level = true →
      zeroFill (u.allocated h.toNat (newHandle rows cols tag level retain shatom k)) u.me h.toNat = some t → body u = (t, .retire)) ∧
    (old.st ≠ 0 → old.hasShape rows cols tag level retain shatom → body u = (u, .retire)) ∧
    (old.st ≠ 0 → ¬ old.hasShape rows cols tag level retain shatom → body u = trapHandle u h.toNat 5 0) := by
  refine ⟨_, rfl, fun u hok => ?_⟩
  simp only [withHandle_passes hok]
  refine ⟨fun k t hst hkind hgood hfits hfill => ?fresh, fun hst hsame => ?same, fun hst hother => ?other⟩
  case fresh =>
    have hpool : (level == .twin && !u.good (twin (u.ctx u.me).site)) = false := by
      by_cases hlevel : level = .twin
      · rw [hgood hlevel, Bool.not_true, Bool.and_false]
      · simp [hlevel]
    have hbits : (if (k == Kind.raw) = true then 8 else k.width) = if k = .raw then 8 else k.width := by simp only [beq_iff_eq]
    have hsite : (if (level == .twin) = true then twin (u.ctx u.me).site else (u.ctx u.me).site) = u.levelSite level := by
      simp only [beq_iff_eq, State.levelSite]
    simp only [newHandle, State.allocated] at hfits hfill
    simp only [hst, hkind, hpool, hbits, hsite, bne_self_eq_false, Bool.false_eq_true, if_false, hfits, Bool.not_true, hfill]
  case same =>
    obtain ⟨hrows, hcols, htag, hlevel, hretain, hshatom⟩ := hsame
    simp [hst, hrows, hcols, htag, hlevel, hretain, hshatom]
  case other =>
    simp only [Handle.hasShape] at hother
    simp [hst, hother, and_assoc]

end

/-! The other instructions of handle management (R163 to R167): their bodies on a handle that CheckHandle passes. -/

section
variable (h : Reg) (s : State)

theorem exec_hfree : ∃ body : State → Act, exec (.hfree h) s = issue (s.declared (.hfree h)) body s ∧ ∀ u,
    checkHandle u h.toNat false = none →
    let t := u.handle u.me h.toNat
    let busy := u.covering u.me h.toNat ≠ [] ∨ u.touching (coreKey u.me (!u.focus.compute)) h.toNat = true
    (t.st = 0 → body u = (u, .retire)) ∧
    (t.st = 2 → body u = (u, .trap .handleExported 0 (handleInfo h.toNat 0))) ∧
    (t.st = 1 → ¬ busy → body u = (u.freeHandle u.me h.toNat, .retire)) ∧
    (t.st = 1 → busy → body u = (u, .stay)) := by
  refine ⟨_, rfl, fun u hok => ?_⟩
  simp only [withHandle_passes hok]
  refine ⟨fun hst => if_pos hst, fun hst => by simp [hst], fun hst hquiet => ?_, fun hst hbusy => ?_⟩
  · obtain ⟨hcover, htouch⟩ := not_or.mp hquiet
    simp [hst, hcover, htouch]
  · simpa [hst, or_iff_not_imp_left] using hbusy

theorem exec_hretain (k : Bool) : ∃ body : State → Act, exec (.hretain h k) s = issue (s.declared (.hretain h k)) body s ∧ ∀ u,
    checkHandle u h.toNat true = none → body u = (u.modHandle u.me h.toNat fun g => { g with retain := k }, .retire) :=
  ⟨_, rfl, fun _ hok => withHandle_passes hok⟩

theorem exec_hexport : ∃ body : State → Act, exec (.hexport h) s = issue (s.declared (.hexport h)) body s ∧ ∀ u,
    checkHandle u h.toNat true = none → (u.handle u.me h.toNat).st ≠ 2 →
    ((u.handle u.me h.toNat).level = .cluster → ((u.covering u.me h.toNat).any (·.writes)) = false →
      body u = (u.modHandle u.me h.toNat fun g => { g with st := 2 }, .retire)) ∧
    ((u.handle u.me h.toNat).level ≠ .cluster → body u = trapHandle u h.toNat 4 0) := by
  refine ⟨_, rfl, fun u hok hst => ?_⟩
  simp only [withHandle_passes hok]
  exact ⟨fun hlevel hwrites => by simp only [hst, hlevel, hwrites, bne_self_eq_false, Bool.false_eq_true, if_false],
    fun hlevel => by simp [hst, hlevel]⟩

theorem exec_hunexport : ∃ body : State → Act, exec (.hunexport h) s = issue (s.declared (.hunexport h)) body s ∧ ∀ u,
    checkHandle u h.toNat true = none → (u.handle u.me h.toNat).st ≠ 1 → u.remoteReaders u.me h.toNat = false →
    body u = (u.modHandle u.me h.toNat fun g => { g with st := 1 }, .retire) := by
  refine ⟨_, rfl, fun u hok hst hreaders => ?_⟩
  simp only [withHandle_passes hok, hst, hreaders, Bool.false_eq_true, if_false]

theorem exec_hzero : ∃ body : State → Act, exec (.hzero h) s = issue (s.declared (.hzero h)) body s ∧ ∀ u t,
    checkHandle u h.toNat true = none → (u.handle u.me h.toNat).st ≠ 2 → zeroFill u u.me h.toNat = some t → body u = (t, .retire) := by
  refine ⟨_, rfl, fun u t hok hst hfill => ?_⟩
  simp only [withHandle_passes hok, hst, hfill, if_false]

theorem exec_hwait : ∃ body : State → Act, exec (.hwait h) s = issue (s.declared (.hwait h)) body s ∧ ∀ u,
    checkHandle u h.toNat true = none →
    (u.covering u.me h.toNat = [] → body u = (u, .retire)) ∧ (u.covering u.me h.toNat ≠ [] → body u = (u, .stay)) := by
  refine ⟨_, rfl, fun u hok => ?_⟩
  simp only [withHandle_passes hok]
  exact ⟨fun hcover => by simp [hcover], fun hcover => by simp [hcover]⟩

/-- The checker's entry at one core shows nowhere in what another core has under way. -/
theorem State.touching_other_withSig (g : Sig) (n : Nat) : (s.modMy (Core.withSig g)).touching (coreKey s.me (!s.focus.compute)) n =
    s.touching (coreKey s.me (!s.focus.compute)) n := by
  have hother : s.myKey ≠ coreKey s.me (!s.focus.compute) := by
    rw [State.myKey, coreKey, coreKey]
    cases s.focus.compute <;> simp [bit01]
  rw [State.touching, State.modMy_core_other _ _ _ hother]
  rfl

end

end

end Sys2Proof.Machine

namespace Sys2Proof.Proofs

open Sys2Proof Sys2Proof.Machine

/-- Settles O26: HALLOC's body (`exec_halloc`) on a FREE handle starts the fill of the handle it has allocated (`zeroFill_starts`).
Its granules are taken as `State.granulesFree` lists them, those of powered banks first (log entry 8). -/
theorem hallocAllocates : Obligations.HallocAllocates := by
  unfold Obligations.HallocAllocates
  intro h rows cols tag level retain shatom s s' i ⟨hfree, hc⟩ hok old same
  have hmon := hfree.activation rfl rfl
  obtain ⟨body, hexec, hbody⟩ := exec_halloc h rows cols tag level retain shatom s
  obtain ⟨g, rfl⟩ := hc.sets hmon
  obtain ⟨hfresh, hsame, hother⟩ := hbody _ ((checkHandle_withSig s g h.toNat false).trans hok)
  rw [show exec i s = _ from hexec]
  refine ⟨?fresh, fun hst hshape => ?same, fun hst hshape hreqs => ?other⟩
  case fresh =>
    intro k e v hst hkind site new hgood hfits u hadds
    have hfill := hfresh k _ hst (((SameTags.withSig s g).kind tag).trans hkind) hgood hfits
      (zeroFill_starts (by rw [State.allocated_image]; exact hadds))
    obtain ⟨hseat, hcores⟩ := zeroFill_kept hadds s.me h.toNat (fun g => { g with bytes := [], bad := [] }) (.zeroFillComplete e.1 e.2)
    exact issue_ends_seat hfree hc hfill (.trans (t := u) (.aside rfl rfl) hseat) hcores
  case same =>
    exact issue_ends_self hfree hc (hsame hst hshape)
  case other =>
    have htrap := hother hst hshape
    rw [trapHandle, handleInfo_reg] at htrap
    exact issue_traps_act hfree hc htrap hmon hreqs

/-- Settles O27: each instruction's body on a handle that CheckHandle passes, in the state behind the checker's entry. -/
theorem handlesAreManaged : Obligations.HandlesAreManaged := by
  unfold Obligations.HandlesAreManaged
  intro h s s' g quiet idle
  refine ⟨?hfree, ?hretain, ?hexport, ?hunexport, ?hzero, ?hwait⟩
  case hfree =>
    intro ⟨hfree, hc⟩ hok
    have hmon := hfree.activation rfl rfl
    obtain ⟨body, hexec, hbody⟩ := exec_hfree h s
    obtain ⟨sg, rfl⟩ := hc.sets hmon
    obtain ⟨hnone, hexported, hfrees, hwaits⟩ := hbody _ ((checkHandle_withSig s sg h.toNat false).trans hok)
    have htouch : (s.modMy (Core.withSig sg)).touching (coreKey (s.modMy (Core.withSig sg)).me (!(s.modMy (Core.withSig sg)).focus.compute)) h.toNat =
        s.touching (coreKey s.me (!s.focus.compute)) h.toNat := s.touching_other_withSig sg h.toNat
    rw [htouch] at hfrees hwaits
    rw [handleInfo_reg] at hexported
    rw [hexec]
    refine ⟨fun hst => issue_ends_self hfree hc (hnone hst), fun hst hreqs => issue_traps_act hfree hc (hexported hst) hmon hreqs,
      fun hst hquiet hidle => ?_, fun hst hbusy => issue_stays hfree hc (hwaits hst ?_)⟩
    · have hfreed := hfrees hst (not_or.mpr ⟨not_not.mpr hquiet, by rw [hidle]; decide⟩)
      exact issue_ends_seat hfree hc hfreed (.aside rfl rfl) rfl
    · refine (not_and_or.mp hbusy).imp id fun hidle => ?_
      exact Bool.not_eq_false _ ▸ hidle
  case hretain =>
    intro k ⟨hfree, hc⟩ hok
    obtain ⟨body, hexec, hbody⟩ := exec_hretain h s k
    obtain ⟨sg, rfl⟩ := hc.sets (hfree.activation rfl rfl)
    rw [hexec]
    exact issue_ends_seat hfree hc (hbody _ ((checkHandle_withSig s sg h.toNat true).trans hok)) (.aside rfl rfl) rfl
  case hexport =>
    intro ⟨hfree, hc⟩ hok hst
    have hmon := hfree.activation rfl rfl
    obtain ⟨body, hexec, hbody⟩ := exec_hexport h s
    obtain ⟨sg, rfl⟩ := hc.sets hmon
    obtain ⟨hexports, htraps⟩ := hbody _ ((checkHandle_withSig s sg h.toNat true).trans hok) hst
    rw [trapHandle, handleInfo_reg] at htraps
    rw [hexec]
    exact ⟨fun hlevel hwrites => issue_ends_seat hfree hc (hexports hlevel hwrites) (.aside rfl rfl) rfl,
      fun hlevel hreqs => issue_traps_act hfree hc (htraps hlevel) hmon hreqs⟩
  case hunexport =>
    intro ⟨hfree, hc⟩ hok hst hreaders
    obtain ⟨body, hexec, hbody⟩ := exec_hunexport h s
    obtain ⟨sg, rfl⟩ := hc.sets (hfree.activation rfl rfl)
    rw [hexec]
    exact issue_ends_seat hfree hc (hbody _ ((checkHandle_withSig s sg h.toNat true).trans hok) hst hreaders) (.aside rfl rfl) rfl
  case hzero =>
    intro e v ⟨hfree, hc⟩ hok hst hadds
    obtain ⟨body, hexec, hbody⟩ := exec_hzero h s
    obtain ⟨sg, rfl⟩ := hc.sets (hfree.activation rfl rfl)
    obtain ⟨hseat, hcores⟩ := zeroFill_kept hadds s.me h.toNat (fun g => { g with bytes := [], bad := [] }) (.zeroFillComplete e.1 e.2)
    rw [hexec]
    exact issue_ends_seat hfree hc (hbody _ _ ((checkHandle_withSig s sg h.toNat true).trans hok) hst (zeroFill_starts hadds)) hseat hcores
  case hwait =>
    intro ⟨hfree, hc⟩ hok
    obtain ⟨body, hexec, hbody⟩ := exec_hwait h s
    obtain ⟨sg, rfl⟩ := hc.sets (hfree.activation rfl rfl)
    obtain ⟨hends, hwaits⟩ := hbody _ ((checkHandle_withSig s sg h.toNat true).trans hok)
    rw [hexec]
    exact ⟨fun hquiet => issue_ends_self hfree hc (hends hquiet), fun hbusy => issue_stays hfree hc (hwaits hbusy)⟩

end Sys2Proof.Proofs

/-! PROOFS. Accesses of handles (O28): the checks of R169 are compared with `scrFault` once, the bodies of loads, stores and atomics said once
each, and the access made with its unit at work, which changes the vector units of tiles alone. -/

namespace Sys2Proof.Machine

open Sys2Proof

section
variable {i : Instr} {s s' t u : State} {a : Scr} {o : Order} {ok rd wr acq : Bool} {c : Cause} {r : Nat} {g : Sig} {vr : List Reg} {d : Reg}
  {tag : Byte} {minor x cmp : Nat}

/-! The checks of R169. -/

/-- How an access traps by a check of R169 (R150, R386; log entry 57). -/
def scrTrap (a : Scr) (c : Cause) (r : Nat) : Verdict :=
  .trap c (if c = .format then 0 else a.off % 2 ^ 56) (if c = .format ∨ c = .uncorrectable then 0 else handleInfo a.h r)

/-- An access that fails no check. -/
theorem scrFault_none (h : scrFault s a ok rd wr = none) : checkHandle s a.h true = none ∧ a.off + a.n ≤ (s.handle s.me a.h).image ∧
    (wr && (s.handle s.me a.h).st == 2) = false ∧ (rd && badIn (s.handle s.me a.h) a.off (a.off + a.n)) = false ∧ ok = true := by
  unfold scrFault at h
  grind [checkHandle]

/-- The checks, with that of the tag behind them, trap by the first that fails. -/
theorem scrChecks_traps {h : Reg} {k : Act} (hh : a.h = h.toNat) (hfault : scrFault u a ok rd wr = some (c, r)) :
    scrChecks u h a.off a.n wr rd (fun _ => if !ok then (u, .trap .format 0 0) else k) = (u, scrTrap a c r) := by
  rw [scrFault, hh] at hfault
  rw [scrTrap, hh]
  split at hfault
  case isTrue hdeclared =>
    cases hfault
    simp [scrChecks, withHandle, checkHandle, hdeclared, trapHandle]
  case isFalse hdeclared =>
  split at hfault
  case isTrue hst =>
    cases hfault
    simp [scrChecks, withHandle, checkHandle, hdeclared, hst, trapHandle]
  case isFalse hst =>
  have hpass : checkHandle u h.toNat true = none := by simp [checkHandle, hdeclared, hst]
  rw [scrChecks, withHandle_passes hpass]
  split at hfault
  case isTrue hbounds =>
    cases hfault
    simp [hbounds]
  case isFalse hbounds =>
  split at hfault
  case isTrue hexported =>
    cases hfault
    simp [hbounds, hexported]
  case isFalse hexported =>
  split at hfault
  case isTrue hbad =>
    cases hfault
    simp [hbounds, hexported, hbad]
  case isFalse hbad =>
  split at hfault
  case isTrue hok =>
    cases hfault
    simp [hbounds, hexported, hbad, hok]
  case isFalse hok => cases hfault

/-- The checks pass an access that fails none of them. -/
theorem scrChecks_passes {h : Reg} {k : Unit → Act} (hh : a.h = h.toNat) (hfault : scrFault u a ok rd wr = none) :
    scrChecks u h a.off a.n wr rd k = k () := by
  obtain ⟨hpass, hbounds, hexported, hbad, -⟩ := scrFault_none hfault
  rw [hh] at hpass hbounds hexported hbad
  simp only [scrChecks, withHandle_passes hpass, Nat.not_lt.mpr hbounds, hexported, hbad, Bool.false_eq_true, if_false]

/-! The bodies of the accesses. -/

/-- An access of a vector register is made by the vector unit. -/
def ScrOp.ofUnit : ScrOp → Bool
  | .loadV _ _ | .storeV _ => true
  | _ => false

/-- An access that passed its checks: by its unit, where it has one. -/
def scrStart (vr : List Reg) (a : Scr) (u : State) : Act :=
  if vr.isEmpty then scrAct u a else vecStart vr u (fun s => scrAct s a) false

/-- What an access's body does at its first step: traps by the checks, which an atomic makes before its release alone, and starts. -/
def ScrBody (vr : List Reg) (o : Order) (a : Scr) (ok rd wr : Bool) (u : State) (act : Act) : Prop :=
  (∀ c r, u.my.prog.rel = none → scrFault u a ok rd wr = some (c, r) → act = (u, scrTrap a c r)) ∧
  (scrFault u a ok rd wr = none → (o = .rel ∨ o = .ar → u.my.prog.rel ≠ none) → act = scrStart vr a u)

/-- The instruction issues in an activation under its declaration, and its body is that of the access. -/
def AccessesHandle (i : Instr) (o : Order) (a : Scr) (ok rd wr : Bool) (u : State) : Prop :=
  (decl i).mon = false ∧ (decl i).monOnly = false ∧ (decl i).vr.isEmpty = (!a.op.ofUnit) ∧ (o ≠ .plain → (decl i).vr = []) ∧
    ∃ body : State → Act,
    (∀ s, exec i s = issue (s.declared i) body s) ∧ (u.my.prog.step = 0 → ScrBody (decl i).vr o a ok rd wr u (body u))

/-- A load or store of n bytes. -/
theorem scrAccess_accesses {n : Nat} {h b : Reg} {okOf : State → Handle → Bool} {op : State → Handle → ScrOp}
    (hexec : ∀ s, exec i s = scrAccess (decl i) n h b okOf op s) (hdecl : ∀ s : State, s.declared i = decl i) (hmon : (decl i).mon = false)
    (honly : (decl i).monOnly = false) (hunit : (decl i).vr.isEmpty = !(op u (u.handle u.me h.toNat)).ofUnit) :
    AccessesHandle i .plain { h := h.toNat, off := (u.rd b).toNat * n, n := n, op := op u (u.handle u.me h.toNat) } (okOf u (u.handle u.me h.toNat))
      (op u (u.handle u.me h.toNat)).reads (op u (u.handle u.me h.toNat)).writes u := by
  refine ⟨hmon, honly, hunit, fun h => absurd rfl h, _, fun s => (hexec s).trans (by rw [hdecl]; rfl),
    fun hstep => ⟨fun c r _ hfault => ?_, fun hfault _ => ?_⟩⟩
  · simp only [hstep, Nat.zero_ne_one, if_false]
    exact scrChecks_traps rfl hfault
  · obtain ⟨-, -, -, -, hok⟩ := scrFault_none hfault
    simp only [hstep, Nat.zero_ne_one, if_false]
    rw [scrChecks_passes rfl hfault]
    simp only [hok, Bool.not_true, Bool.false_eq_true, if_false]
    rfl

/-- An atomic, its release made where it has one. -/
theorem handleAtomic_accesses {w : Bool} {h b : Reg} {more : List Reg} {opnd cmpOf : State → Nat}
    (hexec : ∀ s, exec i s = handleAtomic o w minor d h b more opnd cmpOf s)
    (hdecl : ∀ s : State, s.declared i = decl i) (hi : decl i = waitDecl 12 ([d, b] ++ more)) :
    AccessesHandle i o { h := h.toNat, off := (u.rd b).toNat * atomBytes w, n := atomBytes w
                         op := .atom d minor (opnd u % 256 ^ atomBytes w) (cmpOf u % 256 ^ atomBytes w) (Order.acquires o) } true true true u := by
  rw [AccessesHandle, hi]
  refine ⟨rfl, rfl, rfl, fun _ => rfl, _, fun s => (hexec s).trans (by rw [hdecl, hi]; rfl),
    fun hstep => ⟨fun c r hrel hfault => ?_, fun hfault hreleased => ?_⟩⟩
  · simp only [hstep, hrel, Nat.zero_ne_one, OfNat.zero_ne_ofNat, if_false, Option.isSome_none, Bool.false_eq_true]
    exact scrChecks_traps rfl hfault
  · obtain ⟨-, -, -, hbad, -⟩ := scrFault_none hfault
    rw [Bool.true_and] at hbad
    simp only [hstep, Nat.zero_ne_one, OfNat.zero_ne_ofNat, if_false]
    cases hrel : u.my.prog.rel with
    | some st => simp only [Option.isSome_some, if_true, scrLate, hbad, Bool.false_eq_true, if_false]; rfl
    | none =>
      have hplain : Order.releases o = false := by
        cases o with
        | plain | acq => rfl
        | rel | ar => exact absurd hrel (hreleased (by simp))
      simp only [Option.isSome_none, Bool.false_eq_true, if_false]
      rw [scrChecks_passes rfl hfault]
      simp only [hplain, Bool.false_eq_true, if_false]
      rfl

theorem Order.acquires_eq (o : Order) : (o == .acq || o == .ar) = Order.acquires o := by cases o <;> rfl

/-- A handle load, store or atomic accesses its handle as its form says (R168 to R170). -/
theorem exec_scrForm (hform : scrForm i u = some (o, a, ok, rd, wr)) : AccessesHandle i o a ok rd wr u ∧ a.h < 32 := by
  cases i with
  | ldh32 d h b | ldh64 d h b =>
    cases hform
    exact ⟨scrAccess_accesses (okOf := anyTag) (op := fun _ _ => .load d) (fun _ => rfl) (fun _ => rfl) rfl rfl rfl, h.isLt⟩
  | sth32 d h b =>
    cases hform
    exact ⟨scrAccess_accesses (okOf := anyTag) (op := fun s _ => .store ((s.rd d).toNat % 2 ^ 32)) (fun _ => rfl) (fun _ => rfl) rfl rfl rfl, h.isLt⟩
  | sth64 d h b =>
    cases hform
    exact ⟨scrAccess_accesses (okOf := anyTag) (op := fun s _ => .store (s.rd d).toNat) (fun _ => rfl) (fun _ => rfl) rfl rfl rfl, h.isLt⟩
  | ldhv d h b =>
    cases hform
    exact ⟨scrAccess_accesses (okOf := anyTag) (op := fun _ t => .loadV d t.tag) (fun _ => rfl) (fun _ => rfl) rfl rfl rfl, h.isLt⟩
  | sthv d h b =>
    cases hform
    exact ⟨scrAccess_accesses (okOf := fun s t => (s.vr d).tag == t.tag || (s.vr d).tag == 0#8 || t.tag == 0#8) (op := fun s _ => .storeV (s.vbits d))
      (fun _ => rfl) (fun _ => rfl) rfl rfl rfl, h.isLt⟩
  | hatom o' w op d h b =>
    simp only [scrForm, Order.acquires_eq] at hform
    cases hform
    have hzero : 0 % 256 ^ (if w = true then 4 else 8) = 0 := Nat.zero_mod _
    have haccesses := handleAtomic_accesses (i := .hatom o w op d h b) (u := u) (more := []) (opnd := fun s => (s.rd d).toNat) (cmpOf := fun _ => 0)
      (fun _ => rfl) (fun _ => rfl) rfl
    rw [Nat.zero_mod] at haccesses
    exact ⟨haccesses, h.isLt⟩
  | hcas o' w d h b cmp =>
    simp only [scrForm, Order.acquires_eq] at hform
    cases hform
    exact ⟨handleAtomic_accesses (more := [cmp]) (opnd := fun s => (s.rd d).toNat) (cmpOf := fun s => (s.rd cmp).toNat) (fun _ => rfl)
      (fun _ => rfl) rfl, h.isLt⟩
  | _ => cases hform

/-! What the checker's entry leaves of an access. -/

theorem scrForm_withSig (hrd : ∀ r, (s.modMy (Core.withSig g)).rd r = s.rd r) : scrForm i (s.modMy (Core.withSig g)) = scrForm i s := by
  simp only [scrForm, hrd]
  rfl

theorem scrFault_withSig : scrFault (s.modMy (Core.withSig g)) a ok rd wr = scrFault s a ok rd wr := by
  rw [scrFault, State.declaredHandles_withSig]
  rfl

/-! The unit's start (R421), and the act behind it. -/

theorem UnitOnly.seat (h : UnitOnly s t) : SameSeat s t := ⟨h.focus, h.mcore, h.running⟩

/-- The unit changes no scoreboard. -/
theorem UnitOnly.overlaps (h : UnitOnly s t) (hctxs : t.ctxs = s.ctxs) (x n lo hi : Nat) : t.overlaps x n lo hi = s.overlaps x n lo hi := by
  have hctx (y : Nat) : t.ctx y = s.ctx y := by rw [State.ctx, hctxs]; rfl
  have hboard (j : Nat) : (t.tile j).entries = (s.tile j).entries := by
    obtain ⟨_, _, _, _, htile⟩ := h.tile j
    rw [htile]
    rfl
  rw [State.overlaps, hboard, State.handleSite, State.handle, hctx]
  rfl

/-- A load or store of the vector unit that need not ramp acts with the unit at work, and gives back its grant. -/
theorem vecStart_atWork {next : State → Act} (hvr : vr ≠ []) (hrests : u.vecRests = false) :
    vecStart vr u next false = (u.givenBack vr (next (u.atWork vr)).1, (next (u.atWork vr)).2) := by
  have hempty : vr.isEmpty = false := by simpa using hvr
  rw [u.atWork_eq hvr, State.givenBack, hempty, State.vecHolds]
  cases hasleep : (u.tile u.focus.site).vecAsleep with
  | true =>
    have hvec : (u.cluster (clusterOf u.focus.site)).vec = false := by simpa [State.vecRests, hasleep] using hrests
    exact vecStart_wakes hasleep hvec
  | false => cases hgrant : (u.tile u.focus.site).vecGrant with
    | true => exact vecStart_spends hasleep hgrant
    | false => exact vecStart_unreserved hasleep hgrant

/-- An access acts with the unit of its vector registers at work, where it has any. -/
theorem scrStart_acts (hready : vr = [] ∨ u.vecRests = false) :
    scrStart vr a u = (u.givenBack vr (scrAct (u.atWork vr) a).1, (scrAct (u.atWork vr) a).2) := by
  by_cases hvr : vr = []
  · subst hvr
    rfl
  · rw [scrStart, if_neg (by simpa using hvr)]
    exact vecStart_atWork hvr (hready.resolve_left hvr)

theorem scrStart_rests (hvr : vr ≠ []) (hrests : u.vecRests = true) : scrStart vr a u = (u.rampAsked, .done) := by
  rw [scrStart, if_neg (by simpa using hvr)]
  exact vecStart_rests hrests

/-- An access that meets an entry of the scoreboard stalls (R158). -/
theorem scrAct_stalls (hbusy : u.overlaps u.me a.h a.off (a.off + a.n) ≠ []) :
    scrAct u a = (u.modMy fun c => { c with stall := .scratch a }, .done) := by
  rw [scrAct, if_neg (by simpa using hbusy)]

theorem scrAct_acts (hfree : u.overlaps u.me a.h a.off (a.off + a.n) = []) (hop : ∀ d m x c, a.op ≠ .atom d m x c true) :
    scrAct u a = (performScr u u.myKey a, .retire) := by
  rw [scrAct, if_pos (by simpa using hfree)]
  split
  next h => exact absurd h (hop _ _ _ _)
  next => rfl

theorem scrAct_acquires (hfree : u.overlaps u.me a.h a.off (a.off + a.n) = []) (hop : a.op = .atom d minor x cmp true) :
    scrAct u a = waitFp ((performScr u u.myKey a).modMy fun c => { c with prog := { c.prog with
      step := 2, value := (performScr u u.myKey a).ctxTail (performScr u u.myKey a).me } }) ((performScr u u.myKey a).ctxTail (performScr u u.myKey a).me)
      .retire := by
  rw [scrAct, if_pos (by simpa using hfree)]
  simp only [hop]

/-! The access at its bank (R151). -/

/-- In an activation the context's file is the focus core's. -/
theorem State.wcOf_my (hmon : u.monitor = false) (v : CReg) : u.wcOf u.myKey d v = u.wc d v := by
  simp only [State.wc, State.wcOf, hmon, Bool.false_eq_true, if_false]
  rfl

theorem State.coreCtx_myKey (u : State) : coreCtx u.myKey = u.me := coreCtx_coreKey ..

/-- The handle's bytes behind an atomic that made y of them, or nothing (R139). -/
def State.putAtom (u : State) (a : Scr) (y : Option Nat) : State :=
  y.elim u fun y => u.modHandle u.me a.h fun t => t.store a.off a.n y

theorem State.putAtom_kept (u : State) (a : Scr) (y : Option Nat) : SameSeat u (u.putAtom a y) ∧ (u.putAtom a y).cores = u.cores := by
  cases y with
  | none => exact ⟨.refl u, rfl⟩
  | some y => exact ⟨.aside rfl rfl, rfl⟩

theorem performScr_atom (hmon : u.monitor = false) (hop : a.op = .atom d minor x cmp acq) : performScr u u.myKey a =
    (u.putAtom a (atomNew minor a.n (tread (u.handle u.me a.h).bytes a.off a.n) x cmp)).wd d
      (BitVec.ofNat 64 (tread (u.handle u.me a.h).bytes a.off a.n)) := by
  simp only [performScr, hop, u.coreCtx_myKey]
  generalize atomNew minor a.n _ x cmp = y
  have hseat := (u.putAtom_kept a y).1
  rw [State.wd, ← State.wcOf_my (hseat.monitor.trans hmon), hseat.myKey]
  cases y <;> rfl

/-- Registers, the pc, the checker and progress have no part in a context's tail. -/
theorem Near.ctxTail (h : Near s t) (x : Nat) : t.ctxTail x = s.ctxTail x := by
  have htail (k : Nat) : (t.core k).tail = (s.core k).tail := by
    by_cases hk : k = s.myKey
    · obtain ⟨_, _, _, _, hmine, -⟩ := h.mine
      rw [hk, hmine]
      rfl
    · rw [h.others k hk]
  rw [State.ctxTail, htail, htail]
  rfl

/-- A register written last is the register that the instruction ends with. -/
theorem Ends.writes {n : Nat} {v : CReg} (h : Ends (u.wc d v) t n) : EndsWith u t n d v where
  frame := ((Near.of_wc u d v).trans h.frame.near).only h.frame.prog
  regs r := by rw [h.regs, State.rc_wc]
  pc := h.pc

/-! The access behind the checker's entry. -/

/-- An access that starts: its body, in the state that the checker's entry leaves, goes by the checks as the instruction found them. -/
theorem Starts.accesses (hform : scrForm i s = some (o, a, ok, rd, wr)) (h : Starts i s s' false) (hstep : s.my.prog.step = 0) :
    s.monitor = false ∧ a.h < 32 ∧ (decl i).vr.isEmpty = (!a.op.ofUnit) ∧ (o ≠ .plain → (decl i).vr = []) ∧
    ∃ g body, s' = s.modMy (Core.withSig g) ∧
      exec i s = issue (s.declared i) body s ∧
      (∀ c r, s.my.prog.rel = none → scrFault s a ok rd wr = some (c, r) → body s' = (s', scrTrap a c r)) ∧
      (scrFault s a ok rd wr = none → (o = .rel ∨ o = .ar → s.my.prog.rel ≠ none) → body s' = scrStart (decl i).vr a s') := by
  obtain ⟨hfree, hc⟩ := h
  have hmon : s.monitor = false := by
    obtain ⟨⟨hmon, honly, -⟩, -⟩ := exec_scrForm hform
    exact hfree.activation (by rw [s.declared_eq]; exact hmon) (by rw [s.declared_eq]; exact honly)
  have hprog := hc.prog
  have hrd := hc.rd
  obtain ⟨g, rfl⟩ := hc.sets hmon
  obtain ⟨⟨-, -, hunit, hplain, body, hexec, hbody⟩, hh⟩ := exec_scrForm ((scrForm_withSig hrd).trans hform)
  obtain ⟨htraps, hstarts⟩ := hbody (hprog ▸ hstep)
  rw [scrFault_withSig, hprog] at htraps hstarts
  exact ⟨hmon, hh, hunit, hplain, g, body, rfl, hexec s, htraps, hstarts⟩

theorem State.givenBack_seat (s u : State) (vr : List Reg) : SameSeat u (s.givenBack vr u) ∧ (s.givenBack vr u).cores = u.cores := by
  obtain ⟨cs, ag, hrest⟩ := s.givenBack_rest u vr
  rw [hrest]
  exact ⟨.aside rfl rfl, rfl⟩

theorem State.touchBanksAt_seat (s : State) (site slot : Nat) (rs : List Reg) :
    SameSeat s (s.touchBanksAt site slot rs) ∧ (s.touchBanksAt site slot rs).cores = s.cores :=
  have htouch := BanksOnly.touch s site slot rs
  ⟨htouch.unit.seat, by rw [htouch.rest]⟩

theorem State.atWork_kept (s : State) (vr : List Reg) : SameSeat s (s.atWork vr) ∧ (s.atWork vr).cores = s.cores ∧ (s.atWork vr).ctxs = s.ctxs :=
  ⟨(s.atWork_unit vr).seat, by rw [s.atWork_rest], by rw [s.atWork_rest]⟩

theorem State.atWork_overlaps (s : State) (vr : List Reg) (x n lo hi : Nat) : (s.atWork vr).overlaps x n lo hi = s.overlaps x n lo hi :=
  (s.atWork_unit vr).overlaps (s.atWork_kept vr).2.2 x n lo hi

/-- An atomic that acts ends with the old value, or, where it acquires, waits with it for the published tail of its context (R170). -/
theorem issue_atom {j : Issue} {body : State → Act} {v : State} (hf : Free j s) (hc : Checked j s s' false) (hmon : s.monitor = false)
    (hb : body s' = scrAct s' a) (hop : a.op = .atom d minor x cmp acq) (hclear : s'.overlaps s'.me a.h a.off (a.off + a.n) = [])
    (hv : v = s'.putAtom a (atomNew minor a.n (tread (s'.handle s'.me a.h).bytes a.off a.n) x cmp)) :
    let old := tread (s'.handle s'.me a.h).bytes a.off a.n
    if acq then issue j body s = .next ((v.wd d (BitVec.ofNat 64 old)).modMy fun c =>
        { c with prog := { c.prog with step := 2, value := s.ctxTail s.me }, stall := .fp (s.ctxTail s.me) .retire })
    else ∃ t, issue j body s = .next t ∧ EndsWith v t (s.pcNow + j.len) d (dataReg (BitVec.ofNat 64 old)) := by
  intro old
  have hmon' := hc.near.mode.trans hmon
  have hperf := performScr_atom hmon' hop
  obtain ⟨hseat, hcores⟩ := s'.putAtom_kept a (atomNew minor a.n old x cmp)
  rw [← hv] at hperf hseat hcores
  have hmy := hseat.my hcores
  have hwrote := Near.of_wc v d (dataReg (BitVec.ofNat 64 old))
  cases acq with
  | true =>
    have hact : (v.wd d (BitVec.ofNat 64 old)).my.act.isSome = true := by
      obtain ⟨_, _, _, _, hmine, -⟩ := hwrote.mine
      obtain ⟨g, hg⟩ := hc.my
      rw [State.my, State.wd, hwrote.key, hmine, hmy, hg]
      exact hf.stream.resolve_left (by rw [hmon]; decide)
    have htail : (v.wd d (BitVec.ofNat 64 old)).ctxTail (v.wd d (BitVec.ofNat 64 old)).me = s.ctxTail s.me := by
      have hme : (v.wd d (BitVec.ofNat 64 old)).me = s.me := by
        rw [← State.coreCtx_myKey, State.wd, hwrote.key, hseat.myKey, hc.near.key, State.coreCtx_myKey]
      rw [hme, State.wd, hwrote.ctxTail, State.ctxTail, State.core, State.core, hcores]
      exact hc.near.ctxTail s.me
    rw [scrAct_acquires hclear hop, hperf, waitFp, State.modMy_modMy (Core.ne_default hact), htail] at hb
    exact issue_waits hf hc hb
  | false =>
    rw [scrAct_acts hclear (by simp [hop]), hperf] at hb
    obtain ⟨t, hnext, hends⟩ := issue_ends hf hc hb (by rw [State.wd, State.killLater_wc, hmy]; exact hc.kill hf)
    rw [State.wd, State.pcNow_wc, hseat.pcNow (congrArg Core.pc hmy), hc.pcNow] at hends
    exact ⟨t, hnext, hends.writes⟩

/-- An access of the unit at work that left u ends behind itself, its grant given back. -/
theorem issue_ends_atWork {j : Issue} {body : State → Act} (hf : Free j s) (hc : Checked j s s' false)
    (hb : body s' = (s.givenBack vr u, .retire)) (hseat : SameSeat (s'.atWork vr) u) (hcores : u.cores = (s'.atWork vr).cores) :
    ∃ t, issue j body s = .next t ∧ Ends (s.givenBack vr u) t (s.pcNow + j.len) := by
  obtain ⟨hgive, hgiven⟩ := s.givenBack_seat u vr
  obtain ⟨hwork, hworked, -⟩ := s'.atWork_kept vr
  exact issue_ends_seat hf hc hb ((hwork.trans hseat).trans hgive) ((hgiven.trans hcores).trans hworked)

/-- A vector load of the unit at work (R151). -/
theorem performScr_loadV (hop : a.op = .loadV d tag) : performScr (s.atWork vr) (s.atWork vr).myKey a =
    ((s.atWork vr).setV d (tread (s.handle s.me a.h).bytes a.off a.n) tag).touchBanksAt (s.ctx s.me).site (s.ctx s.me).slot [d] := by
  obtain ⟨hseat, -, hctxs⟩ := s.atWork_kept vr
  have hctx (y : Nat) : (s.atWork vr).ctx y = s.ctx y := by rw [State.ctx, hctxs]; rfl
  simp only [performScr, hop, State.coreCtx_myKey, State.setV, State.handle, hseat.me, hctx]

/-- A vector store of the unit at work (R151). -/
theorem performScr_storeV (hop : a.op = .storeV x) : performScr (s.atWork vr) (s.atWork vr).myKey a =
    (s.atWork vr).modHandle s.me a.h fun t => t.store a.off a.n x := by
  simp only [performScr, hop, State.coreCtx_myKey, (s.atWork_kept vr).1.me]

end

end Sys2Proof.Machine

namespace Sys2Proof.Proofs

open Sys2Proof Sys2Proof.Machine

/-- Settles O28: an access's body (`Starts.accesses`) traps by the checks or starts, and then stalls (`scrAct_stalls`), waits for its ramp
(`scrStart_rests`) or acts at its bank (`scrAct_acts`, `scrAct_acquires`).
LDHV and STHV trap for no tag 0x20 + k (log entry 83), and a write clears the uncorrectable words of 8 bytes that it covers (log entry 86). -/
theorem handleAccessesTakeEffect : Obligations.HandleAccessesTakeEffect := by
  unfold Obligations.HandleAccessesTakeEffect
  refine ⟨?acts, ?traps⟩
  case acts =>
    intro i s s' o a rd wr hform hstarts hstep hfault hclear hready hrel old vr put
    obtain ⟨hmon, -, hunit, -, g, body, rfl, hexec, -, hbody⟩ := hstarts.accesses hform hstep
    obtain ⟨hfree, hc⟩ := hstarts
    have hstart := hbody hfault hrel
    have hscalar : a.op.ofUnit = false → scrStart (decl i).vr a (s.modMy (Core.withSig g)) = scrAct (s.modMy (Core.withSig g)) a := by
      intro hop
      rw [scrStart, hunit, hop]
      rfl
    have hmon' : (s.modMy (Core.withSig g)).monitor = false := hmon
    have hclear' : ((s.modMy (Core.withSig g)).atWork vr).overlaps ((s.modMy (Core.withSig g)).atWork vr).me a.h a.off (a.off + a.n) = [] := by
      rw [State.atWork_overlaps, (State.atWork_kept _ _).1.me]
      exact hclear
    rw [hexec, ← s.declared_len i]
    obtain ⟨h, off, n, op⟩ := a
    cases op with
    | load d =>
      have hact := hstart.trans ((hscalar rfl).trans (scrAct_acts hclear (by simp)))
      simp only [performScr, State.coreCtx_myKey, State.wcOf_my hmon'] at hact
      exact issue_writes hfree hc hact
    | store x =>
      have hact := hstart.trans ((hscalar rfl).trans (scrAct_acts hclear (by simp)))
      simp only [performScr, State.coreCtx_myKey] at hact
      exact issue_ends_seat hfree hc hact (.modCtx _ _ _) rfl
    | loadV d tag =>
      have hact := hstart.trans (scrStart_acts hready)
      rw [scrAct_acts hclear' (by simp), performScr_loadV rfl] at hact
      obtain ⟨htouch, htouched⟩ := State.touchBanksAt_seat (((s.modMy (Core.withSig g)).atWork vr).setV d old tag) (s.ctx s.me).site
        (s.ctx s.me).slot [d]
      exact issue_ends_atWork hfree hc hact ((SameSeat.modCtx _ _ _).trans htouch) htouched
    | storeV x =>
      have hact := hstart.trans (scrStart_acts hready)
      rw [scrAct_acts hclear' (by simp), performScr_storeV rfl] at hact
      exact issue_ends_atWork hfree hc hact (.modCtx _ _ _) rfl
    | atom d minor x cmp acq =>
      have hacts := hstart.trans (hscalar rfl)
      refine issue_atom (s' := s.modMy (Core.withSig g)) hfree hc hmon hacts rfl hclear ?_
      split
      next y hnew => exact congrArg ((s.modMy (Core.withSig g)).putAtom ⟨h, off, n, .atom d minor x cmp acq⟩) hnew.symm
      next hnew => exact congrArg ((s.modMy (Core.withSig g)).putAtom ⟨h, off, n, .atom d minor x cmp acq⟩) hnew.symm
  case traps =>
    intro i s s' o a ok rd wr hform hstarts hstep vr
    obtain ⟨hmon, hh, -, hplain, g, body, rfl, hexec, htraps, hbody⟩ := hstarts.accesses hform hstep
    obtain ⟨hfree, hc⟩ := hstarts
    rw [hexec]
    refine ⟨fun c r hrel hfault hreqs => ?trap, fun hfault hvr hrests => ?ramp, fun hfault hbusy hready hrel => ?stall⟩
    case trap =>
      have htrap := htraps c r hrel hfault
      rw [scrTrap, handleInfo, Nat.mod_eq_of_lt hh] at htrap
      exact issue_traps_act hfree hc htrap hmon hreqs
    case ramp =>
      have hno : ¬ (o = .rel ∨ o = .ar) := fun ho => hvr (hplain (by rcases ho with rfl | rfl <;> decide))
      exact issue_waits hfree hc ((hbody hfault fun ho => absurd ho hno).trans (scrStart_rests hvr hrests))
    case stall =>
      have hstart := (hbody hfault hrel).trans (scrStart_acts hready)
      rw [scrAct_stalls (by rw [State.atWork_overlaps, (State.atWork_kept _ _).1.me]; exact hbusy)] at hstart
      exact issue_waits hfree hc hstart

end Sys2Proof.Proofs

/-! PROOFS. HCASX (O29): at its issuer, at its target, and its reply (R171). -/

namespace Sys2Proof.Machine

open Sys2Proof

section
variable {s s' t u v : State} {o : Order} {w : Bool} {d h b cmp vtr : Reg} {slot k id n off new old vt hn x : Nat} {e : ReqEnd} {q : Req}

/-! At its issuer. -/

/-- The virtual tile that HCASX asks, and its element's offset there. -/
def hcasxTile (u : State) (vtr : Reg) : Nat := (u.rd vtr).toNat % 2 ^ 24
def hcasxOff (u : State) (w : Bool) (b : Reg) : Nat := (u.rd b).toNat * atomBytes w

/-- The request of an HCASX. -/
def hcasxReq (u : State) (w : Bool) (d h b cmp vtr : Reg) : Req :=
  { kind := .hcasx d (atomBytes w) (hcasxOff u w b) ((u.rd d).toNat % 256 ^ atomBytes w) ((u.rd cmp).toNat % 256 ^ atomBytes w) (hcasxTile u vtr) h.toNat
    v := u.my.view, va := hcasxOff u w b, want := [], pc := u.my.pc, word := u.word0 }

/-- HCASX's body at its first step: it asks, its release made where it has one, or traps for a tile outside the grid (R171). -/
theorem exec_hcasx (o : Order) (w : Bool) (d h b cmp vtr : Reg) : ∃ body : State → Act,
    (∀ s, exec (.hcasx o w d h b cmp vtr) s = issue (s.declared (.hcasx o w d h b cmp vtr)) body s) ∧ ∀ u, u.my.prog.step = 0 →
      (∀ slot, hcasxTile u vtr < u.gridSize u.myRegion → (o = .rel ∨ o = .ar → u.my.prog.rel ≠ none) → u.freeSlot = some slot →
        body u = ((u.modMy fun c => { c with reqs := tput none slot (some (hcasxReq u w d h b cmp vtr)) c.reqs, stall := .reply slot }).post
          (.hcasxTarget u.myKey slot), .done)) ∧
      (u.gridSize u.myRegion ≤ hcasxTile u vtr → body u = trapHandle u h.toNat 7 (hcasxOff u w b)) := by
  refine ⟨_, fun _ => rfl, fun u hstep => ⟨fun slot hvt hreleased hslot => ?_, fun hvt => ?_⟩⟩
  · simp only [hcasxTile] at hvt
    simp only [hstep, Nat.zero_ne_one, OfNat.zero_ne_ofNat, if_false, Nat.not_le.mpr hvt]
    cases ho : Order.releases o with
    | false =>
      simp only [Bool.false_eq_true, if_false, hslot]
      rfl
    | true =>
      obtain ⟨st, hrel⟩ := Option.ne_none_iff_exists'.mp (hreleased (by cases o <;> simp [Order.releases] at ho ⊢))
      simp only [if_true, withRelease, hrel, hslot]
      rfl
  · simp only [hcasxTile] at hvt
    simp only [hstep, Nat.zero_ne_one, OfNat.zero_ne_ofNat, if_false, hvt, if_true]
    rfl

/-! At its target. -/

/-- The table's entry that a tile looks up changes caches of entries alone (R364). -/
theorem State.cacheEntry_eq (s : State) (y x : Nat) : (∃ ts, s.cacheEntry y x = { s with tiles := ts }) ∧
    ∀ j, ((s.cacheEntry y x).tile j).board = (s.tile j).board := by
  unfold State.cacheEntry
  split
  · exact ⟨⟨_, rfl⟩, fun _ => rfl⟩
  · refine ⟨⟨_, rfl⟩, fun j => ?_⟩
    rw [State.modTile_tile]
    split
    · subst ‹(s.ctx y).site = j›
      split <;> rfl
    · rfl

theorem State.cacheEntry_kept (s : State) (y x : Nat) : (∀ j, (s.cacheEntry y x).ctx j = s.ctx j) ∧
    (∀ j h, (s.cacheEntry y x).handle j h = s.handle j h) ∧ (∀ j, (s.cacheEntry y x).ctxTail j = s.ctxTail j) ∧
    (∀ j h lo hi, (s.cacheEntry y x).overlaps j h lo hi = s.overlaps j h lo hi) := by
  obtain ⟨⟨ts, heq⟩, hboard⟩ := s.cacheEntry_eq y x
  have hctx (j : Nat) : (s.cacheEntry y x).ctx j = s.ctx j := by rw [heq]; rfl
  refine ⟨hctx, fun j h => by rw [State.handle, hctx]; rfl, fun j => by rw [heq]; rfl, fun j h lo hi => ?_⟩
  rw [State.overlaps, Tile.entries, hboard, State.handleSite, State.handle, hctx]
  rfl

section
variable (hq : tget none (s.core k).reqs id = some q) (hdone : q.done = none) (hkind : q.kind = .hcasx d n off new old vt hn)
  (hx : x = ctxKey (ctxRegion (coreCtx k)) vt)
include hq hdone hkind hx

/-- The target answers what it meets. -/
theorem exec_hcasxTarget_answers (hact : hcasxAct (s.cacheEntry (coreCtx k) x) x hn n off new old = (some e, u)) :
    exec (.hcasxTarget k id) s = .next ((u.modCore k fun c => { c with reqs := tput none id (some { q with done := some e }) c.reqs }).post
      (.hcasxReply k id)) := by
  change execHcasxTarget k id s = _
  subst hx
  simp only [execHcasxTarget, hq, hkind, hdone, hact]

/-- The target tries again in the next tick. -/
theorem exec_hcasxTarget_retries (hact : hcasxAct (s.cacheEntry (coreCtx k) x) x hn n off new old = (none, u)) :
    exec (.hcasxTarget k id) s = .next (u.later (.hcasxTarget k id)) := by
  change execHcasxTarget k id s = _
  subst hx
  simp only [execHcasxTarget, hq, hkind, hdone, hact]

end

/-! What an HCASX meets at its target, check after check (R171). -/

theorem hcasxAct_absent (v : State) (x h n off new cmp : Nat) (hno : ¬ (v.ctx x).st = 1) : hcasxAct v x h n off new cmp = (some .absent, v) := by
  simp [hcasxAct, hno]

section
variable (h n off new cmp : Nat) (hthere : (v.ctx x).st = 1)
include hthere

theorem hcasxAct_invalid (hrefused : (v.handle x h).st = 0 ∨ (v.handle x h).shatom = false) : hcasxAct v x h n off new cmp =
    (some (.refused Cause.handleInvalid.code (handleInfo h 6) (off % 2 ^ 56)), v) := by
  simp [hcasxAct, hthere, hrefused]

variable (hst : (v.handle x h).st ≠ 0) (hatom : (v.handle x h).shatom = true)
include hst hatom

theorem hcasxAct_bounds (hbounds : (v.handle x h).image < off + n) : hcasxAct v x h n off new cmp =
    (some (.refused Cause.handleBounds.code (handleInfo h 0) (off % 2 ^ 56)), v) := by
  simp [hcasxAct, hthere, hst, hatom, hbounds]

variable (hbounds : off + n ≤ (v.handle x h).image)
include hbounds

omit hst in
theorem hcasxAct_exported (hexp : (v.handle x h).st = 2) : hcasxAct v x h n off new cmp =
    (some (.refused Cause.handleExported.code (handleInfo h 0) (off % 2 ^ 56)), v) := by
  simp [hcasxAct, hthere, hexp, hatom, Nat.not_lt.mpr hbounds]

variable (hexp : (v.handle x h).st ≠ 2)
include hexp

theorem hcasxAct_busy (hbusy : v.overlaps x h off (off + n) ≠ []) : hcasxAct v x h n off new cmp = (none, v) := by
  simp [hcasxAct, hthere, hst, hexp, hatom, Nat.not_lt.mpr hbounds, hbusy]

theorem hcasxAct_acts (hquiet : v.overlaps x h off (off + n) = []) (hgood : badIn (v.handle x h) off (off + n) = false) :
    hcasxAct v x h n off new cmp = (some (.value (tread (v.handle x h).bytes off n) false (v.ctxTail x)),
      if tread (v.handle x h).bytes off n = cmp then v.modHandle x h fun t => t.store off n new else v) := by
  simp [hcasxAct, hthere, hst, hexp, hatom, Nat.not_lt.mpr hbounds, hquiet, hgood]

end

/-! Its reply. -/

/-- Core k with the reply taken: the slot is free, the stall over. -/
def State.replyTaken (s : State) (k id : Nat) : State := s.modCore k fun c => { c with reqs := tput none id none c.reqs, stall := .none }

section
variable (hq : tget none (s.core k).reqs id = some q) (hkind : q.kind = .hcasx d n off new old vt hn)
include hq hkind

theorem exec_hcasxReply_value {tag : Bool} {tail : Stamp} (hdone : q.done = some (.value x tag tail)) : exec (.hcasxReply k id) s =
    .next (((s.replyTaken k id).wcOf k d (dataReg (BitVec.ofNat 64 (x % 256 ^ n)))).modCore k fun c =>
      { c with prog := { c.prog with step := 2, value := tail } }) := by
  change execHcasxReply k id s = _
  simp only [execHcasxReply, hq, hkind, hdone, deliver]
  rfl

theorem exec_hcasxReply_absent (hdone : q.done = some .absent) : exec (.hcasxReply k id) s =
    .next (((s.replyTaken k id).wcOf k d (dataReg (BitVec.ofNat 64 (256 ^ n - 1 - old)))).modCore k fun c =>
      { c with prog := { c.prog with step := 1, value := 0 } }) := by
  change execHcasxReply k id s = _
  simp only [execHcasxReply, hq, hkind, hdone]
  rfl

theorem exec_hcasxReply_refused {c info va : Nat} (hdone : q.done = some (.refused c info va)) : exec (.hcasxReply k id) s =
    .next ((s.replyTaken k id).asCore k fun s => s.takeTrap c va info q.pc q.word false false) := by
  change execHcasxReply k id s = _
  simp only [execHcasxReply, hq, hkind, hdone]
  rfl

end

end

end Sys2Proof.Machine

namespace Sys2Proof.Proofs

open Sys2Proof Sys2Proof.Machine

/-- Settles O29: HCASX's body (`exec_hcasx`), what its target meets (`hcasxAct`) and answers, and what each reply does. The core waits from its
issue to the reply, and the target tries again each tick (log entry 14). -/
theorem hcasxActsAtItsTarget : Obligations.HcasxActsAtItsTarget := by
  unfold Obligations.HcasxActsAtItsTarget
  refine ⟨?issue, ?target, ?value, ?refusal⟩
  case issue =>
    intro o w d h b cmp vtr s s' slot ⟨hfree, hc⟩ hstep hreleased hslot n vt off
    have hmon := hfree.activation rfl rfl
    obtain ⟨body, hexec, hbody⟩ := exec_hcasx o w d h b cmp vtr
    have hrd := hc.rd
    have hprog := hc.prog
    obtain ⟨g, rfl⟩ := hc.sets hmon
    obtain ⟨hasks, htraps⟩ := hbody _ (hprog ▸ hstep)
    have hoff : hcasxOff (s.modMy (Core.withSig g)) w b = off := by rw [hcasxOff, hrd]; rfl
    have hvt' : hcasxTile (s.modMy (Core.withSig g)) vtr = vt := by rw [hcasxTile, hrd]
    have hreq : hcasxReq (s.modMy (Core.withSig g)) w d h b cmp vtr = hcasxReq s w d h b cmp vtr := by
      simp only [hcasxReq, hcasxOff, hcasxTile, hrd, State.word0_withSig, State.modMy_my]
      rfl
    rw [hexec]
    refine ⟨fun hvt => ?asks, fun hvt hreqs => ?traps⟩
    case asks =>
      have hact := hasks slot (hvt'.symm ▸ hvt) (hprog ▸ hreleased) ((s.freeSlot_withSig g).trans hslot)
      rw [hreq] at hact
      exact issue_waits hfree hc hact
    case traps =>
      have htrap := htraps (hvt'.symm ▸ hvt)
      rw [trapHandle, handleInfo_reg, hoff] at htrap
      exact issue_traps_act hfree hc htrap hmon hreqs
  case target =>
    intro s k id n off new cmp vt h d q hq hdone hkind x g v answered there clear old
    obtain ⟨hctx, hhandle, htail, hover⟩ := s.cacheEntry_kept (coreCtx k) x
    have answers {e : ReqEnd} {u : State} (hact : hcasxAct v x h n off new cmp = (some e, u)) :=
      exec_hcasxTarget_answers (x := x) hq hdone hkind rfl hact
    have hg : v.handle x h = g := hhandle x h
    have hthere (ht : there) : (v.ctx x).st = 1 := (congrArg Ctx.st (hctx x)).trans ht
    refine ⟨fun hno => answers (hcasxAct_absent v x h n off new cmp fun ht => hno ((congrArg Ctx.st (hctx x)).symm.trans ht)),
      fun ht href => answers (hcasxAct_invalid h n off new cmp (hthere ht) (hg ▸ href)),
      fun ht hst hatom hb => answers (hcasxAct_bounds h n off new cmp (hthere ht) (hg ▸ hst) (hg ▸ hatom) (hg ▸ hb)),
      fun ht hst hatom hb => answers (hcasxAct_exported h n off new cmp (hthere ht) (hg ▸ hatom) (hg ▸ hb) (hg ▸ hst)),
      fun ⟨ht, hst, hatom, hb⟩ hbusy => ?busy, fun ⟨ht, hst, hatom, hb⟩ hquiet hgood => ?acts⟩
    case busy =>
      exact exec_hcasxTarget_retries hq hdone hkind (x := x) rfl (hcasxAct_busy h n off new cmp (hthere ht) (by rw [hg, hst]; decide)
        (hg ▸ hatom) (hg ▸ hb) (by rw [hg, hst]; decide) (hover x h off (off + n) ▸ hbusy))
    case acts =>
      have hact := answers (hcasxAct_acts h n off new cmp (hthere ht) (by rw [hg, hst]; decide) (hg ▸ hatom) (hg ▸ hb) (by rw [hg, hst]; decide)
        ((hover x h off (off + n)).trans hquiet) (hg ▸ hgood))
      rw [hg, htail] at hact
      exact hact
  case value =>
    intro s k id n off new cmp vt h x d q tail hq hkind hdone
    refine ⟨_, exec_hcasxReply_value hq hkind hdone, ?_, ?_, fun hd => ?_, ?_⟩ <;>
      simp only [State.modCore_core_same, State.wcOf_core, State.replyTaken, tget_tput_same]
    rw [if_neg hd, tget_tput_same]
  case refusal =>
    intro s k id n off new cmp vt h d q hq hkind u
    exact ⟨exec_hcasxReply_absent hq hkind, fun c info va => exec_hcasxReply_refused hq hkind⟩

end Sys2Proof.Proofs

/-! PROOFS. Copies and the control of their queues (O30): the checks that copies share are passed or trapped by once, each copy's body then
hands its command in, and a cancelled queue keeps what its engine cannot take back. -/

namespace Sys2Proof.Machine

open Sys2Proof

section
variable {i : Instr} {s s' t u v : State} {c : CopyCmd} {g : Sig} {x q : Nat} {e : Entry} {p : Nat × Nat}

/-! The checks that copies share (R187). -/

/-- A copy's semaphore and event are its slot's. -/
def State.ownTags (u : State) (t : CopyTags) : Prop :=
  (t.semV = true → u.semOk t.sem.toNat = true) ∧ (t.evV = true → u.evOk t.ev.toNat = true)

/-- What a copy meets before anything of its own: it goes on with its body, or traps. -/
structure CopyFront (t : CopyTags) (hw : Option (Reg × Bool)) (u : State) (body act : Act) : Prop where
  passes : copyChecks u t (hw.map (·.1)) ((hw.map (·.2)).getD false) = true → act = body
  undeclared : hw ≠ none → u.declaredHandles = 0 → act = (u, .trap .illegal 0 0)
  foreign : hw = none ∨ u.declaredHandles ≠ 0 → ¬ u.ownTags t → act = (u, .trap .privilege 0 0)
  handle (h : Reg) (w : Bool) : hw = some (h, w) → u.declaredHandles ≠ 0 → u.ownTags t →
    (u.declaredHandles ≤ h.toNat → act = (u, .trap .handleInvalid 0 h.toNat)) ∧
    (h.toNat < u.declaredHandles → (u.handle u.me h.toNat).st = 0 → act = (u, .trap .handleInvalid 0 (h.toNat + 32))) ∧
    (h.toNat < u.declaredHandles → (u.handle u.me h.toNat).st = 2 → w = true → act = (u, .trap .handleExported 0 h.toNat))

/-- The declaration of a copy. -/
def copyIssue (len : Nat) (cr : List Reg) : Issue := { len := len, cr := cr, waitAll := true }

theorem State.ownTags_iff (t : CopyTags) :
    u.ownTags t ↔ (t.semV && !u.semOk t.sem.toNat) = false ∧ (t.evV && !u.evOk t.ev.toNat) = false := by
  simp [State.ownTags]

/-- The shared checks that pass: the tags are the slot's, and the handle is there, not exported where it is written. -/
theorem copyChecks_pass {t : CopyTags} {h : Option Reg} {w : Bool} (hok : copyChecks u t h w = true) : u.ownTags t ∧
    ∀ r, h = some r → r.toNat < u.declaredHandles ∧ (u.handle u.me r.toNat).st ≠ 0 ∧ (w && (u.handle u.me r.toNat).st == 2) = false := by
  simp only [copyChecks, Bool.and_eq_true, Bool.or_eq_true, Bool.not_eq_true'] at hok
  obtain ⟨⟨hsem, hev⟩, hall⟩ := hok
  refine ⟨⟨fun hv => hsem.resolve_left (by simp [hv]), fun hv => hev.resolve_left (by simp [hv])⟩, fun r hr => ?_⟩
  subst hr
  simp only [Option.all_some, Bool.and_eq_true, Bool.or_eq_true, decide_eq_true_eq, bne_iff_ne, Bool.not_eq_true'] at hall
  obtain ⟨⟨hdeclared, hst⟩, hwrites⟩ := hall
  exact ⟨hdeclared, hst, by rcases hwrites with hw | hw <;> simp [hw]⟩

theorem issueCopy_front (len : Nat) (t : CopyTags) (cr : List Reg) (hw : Option (Reg × Bool)) (body : State → Act) : ∃ front : State → Act,
    (∀ s, issueCopy len t cr (hw.map (·.1)) ((hw.map (·.2)).getD false) body s = issue (copyIssue len cr) front s) ∧
    ∀ u, u.my.prog.step ≠ 1 → CopyFront t hw u (body u) (front u) := by
  refine ⟨_, fun s => rfl, fun u hstep => ?_⟩
  rw [if_neg hstep]
  have foreign (next : Act) (hforeign : ¬ u.ownTags t) : (if (t.semV && !u.semOk t.sem.toNat) = true then (u, .trap .privilege 0 0)
      else if (t.evV && !u.evOk t.ev.toNat) = true then (u, .trap .privilege 0 0) else next) = (u, .trap .privilege 0 0) := by
    rw [State.ownTags_iff] at hforeign
    grind
  cases hw with
  | none =>
    refine ⟨fun hok => ?_, fun h => absurd rfl h, fun _ => foreign _, fun h w hw => by cases hw⟩
    obtain ⟨hsem, hev⟩ := (State.ownTags_iff t).mp (copyChecks_pass hok).1
    simp [hsem, hev]
  | some r =>
    obtain ⟨r, w⟩ := r
    refine ⟨fun hok => ?_, fun _ hnone => by simp [hnone], fun hdeclared => ?_, fun h w' hw hdeclared htags => ?_⟩
    · obtain ⟨htags, hhandle⟩ := copyChecks_pass hok
      obtain ⟨hsem, hev⟩ := (State.ownTags_iff t).mp htags
      obtain ⟨hdeclared, hst, hexp⟩ := hhandle r rfl
      have hsome : (u.declaredHandles == 0) = false := by simpa using Nat.ne_of_gt (Nat.zero_lt_of_lt hdeclared)
      have hexp' : (w && (u.handle u.me r.toNat).st == 2) = false := hexp
      simp [hsem, hev, hsome, hexp', withHandle, checkHandle, hst, Nat.not_le.mpr hdeclared]
    · simpa [hdeclared.resolve_left (by simp)] using foreign _
    · cases hw
      obtain ⟨hsem, hev⟩ := (State.ownTags_iff t).mp htags
      refine ⟨fun hout => ?_, fun hin hst => ?_, fun hin hst hw => ?_⟩
      · simp [hsem, hev, hdeclared, withHandle, checkHandle, hout, trapHandle, handleInfo_reg]
      · simp [hsem, hev, hdeclared, withHandle, checkHandle, hst, Nat.not_le.mpr hin, trapHandle, handleInfo_reg]
      · simp [hsem, hev, hdeclared, withHandle, checkHandle, hst, Nat.not_le.mpr hin, hw, handleInfo_reg]

/-! The bodies of the copies (R188 to R195). -/

/-- A copy's declaration and body: the body runs behind the checks of what the copy names. -/
def CopyOf (i : Instr) (t : CopyTags) (hw : Option (Reg × Bool)) (cr : List Reg) (body : State → Act) : Prop :=
  (∀ s : State, s.declared i = copyIssue 12 cr) ∧
    ∀ s, exec i s = issueCopy 12 t cr (hw.map (·.1)) ((hw.map (·.2)).getD false) body s

/-- Every copy is issued with the checks of what it names. -/
theorem exec_copyNames {t : CopyTags} {hw : Option (Reg × Bool)} (h : copyNames i = some (t, hw)) : ∃ cr body, CopyOf i t hw cr body := by
  cases i with
  | cpy | cpys | cpyv | cpyg | cpym | cshd | cpub | cred | barx => cases h; exact ⟨_, _, fun _ => rfl, fun _ => rfl⟩
  | _ => cases h

/-- A copy whose checks pass in u hands in the command c, in the state v that it comes to by reading its operands. -/
def HandsIn (i : Instr) (u : State) (c : CopyCmd) (v : State) : Prop :=
  MemSide u v ∧ ∃ t hw cr body, CopyOf i t hw cr body ∧ copyChecks u t (hw.map (·.1)) ((hw.map (·.2)).getD false) = true ∧
    body u = enqueue v c

/-- A range that passes its check, or is empty where n is 0, passes the tag's and the alignment's. -/
theorem copyAlign_passes {r : CReg} {n align : Nat} {hi : Int} {p : Perms} (halign : r.addr % align = 0) (hn : n ≠ 0 → (r.addr : Int) < hi)
    (hrange : checkRange r r.addr hi p = none) : copyAlign r n align = none := by
  have htag : (n != 0 && !r.tag) = false := by
    unfold checkRange checkCap at hrange
    grind
  simp [copyAlign, htag, halign]

theorem credKind_pos {tag : Byte} {n : Nat} {float signed : Bool} (h : credKind tag = some (n, float, signed)) : 0 < n := by
  unfold credKind at h
  split at h <;> cases h <;> decide

section
variable (t : CopyTags) (out : Bool) (op : RedOp) (h a b : Reg)

theorem cpy_handsIn (hform : copyForm (.cpy t out h a b) u = some (c, v)) : HandsIn (.cpy t out h a b) u c v := by
  simp only [copyForm, Option.ite_none_left_eq_some, Bool.or_eq_true, Bool.not_eq_true', decide_eq_true_eq, not_or, Bool.not_eq_false] at hform
  obtain ⟨⟨hpass, hroom⟩, hform⟩ := hform
  split at hform
  case isTrue hremote =>
    obtain ⟨hsource, heq⟩ := Option.ite_none_left_eq_some.mp hform
    cases heq
    refine ⟨.refl u, t, some (h, !out), [a, b], _, ⟨fun _ => rfl, fun _ => rfl⟩, hpass, ?_⟩
    simp only [hroom, hremote, hsource, Bool.false_eq_true, if_false, if_true]
  case isFalse hlocal =>
    obtain ⟨hrange, heq⟩ := Option.ite_none_left_eq_some.mp hform
    cases heq
    rw [Option.not_isSome_iff_eq_none, copyPerm] at hrange
    refine ⟨.refl u, t, some (h, !out), [a, b], _, ⟨fun _ => rfl, fun _ => rfl⟩, hpass, ?_⟩
    simp only [hroom, hlocal, hrange, Bool.false_eq_true, if_false]

theorem cpys_handsIn (rows rowb : W16) (hform : copyForm (.cpys t out h a b rows rowb) u = some (c, v)) :
    HandsIn (.cpys t out h a b rows rowb) u c v := by
  simp only [copyForm, Option.ite_none_left_eq_some, Bool.or_eq_true, Bool.not_eq_true', decide_eq_true_eq, not_or, Bool.not_eq_false,
    Option.not_isSome_iff_eq_none, copyPerm] at hform
  obtain ⟨⟨⟨⟨hpass, hpitch⟩, hrows⟩, hrange⟩, heq⟩ := hform
  cases heq
  refine ⟨.refl u, t, some (h, !out), [a, b], _, ⟨fun _ => rfl, fun _ => rfl⟩, hpass, ?_⟩
  simp only [hpitch, hrows, hrange, or_self, if_false]

theorem cpyv_handsIn (hx hy hz : BitVec 4) (hform : copyForm (.cpyv t out h a b hx hy hz) u = some (c, v)) :
    HandsIn (.cpyv t out h a b hx hy hz) u c v := by
  simp only [copyForm, Option.ite_none_left_eq_some, Bool.or_eq_true, Bool.not_eq_true', not_or, Bool.not_eq_false,
    Option.not_isSome_iff_eq_none] at hform
  obtain ⟨⟨hpass, hlist⟩, hform⟩ := hform
  split at hform
  case h_2 => cases hform
  case h_1 x tag w hread =>
  simp only [Option.ite_none_left_eq_some, decide_eq_true_eq, not_or, Option.not_isSome_iff_eq_none,
    copyPerm] at hform
  obtain ⟨⟨⟨⟨hbad, hpitch⟩, hrows⟩, hrange⟩, heq⟩ := hform
  cases heq
  have hside := MemSide.readOwn u (u.rc b).addr 32
  rw [hread] at hside
  refine ⟨hside, t, some (h, !out), [a, b], _, ⟨fun _ => rfl, fun _ => rfl⟩, hpass, ?_⟩
  simp only [hlist, hread, hbad, hpitch, hrows, hrange, or_self, Bool.false_eq_true, if_false]

theorem cpyg_handsIn (count eb : W16) (hform : copyForm (.cpyg t h a b count eb) u = some (c, v)) : HandsIn (.cpyg t h a b count eb) u c v := by
  simp only [copyForm, Option.ite_none_left_eq_some, Bool.or_eq_true, Bool.not_eq_true', decide_eq_true_eq, not_or, Bool.not_eq_false,
    Option.not_isSome_iff_eq_none] at hform
  obtain ⟨⟨⟨⟨⟨hpass, hlist⟩, htag⟩, hperm⟩, hroom⟩, heq⟩ := hform
  cases heq
  refine ⟨.refl u, t, some (h, true), [a, b], _, ⟨fun _ => rfl, fun _ => rfl⟩, hpass, ?_⟩
  simp only [hlist, htag, hperm, hroom, Bool.not_true, Bool.false_eq_true, if_false]

theorem cpym_handsIn (count : BitVec 5) (hform : copyForm (.cpym t h a count) u = some (c, v)) : HandsIn (.cpym t h a count) u c v := by
  simp only [copyForm, Option.ite_none_left_eq_some, Bool.or_eq_true, Bool.not_eq_true', not_or, Bool.not_eq_false,
    Option.not_isSome_iff_eq_none] at hform
  obtain ⟨⟨hpass, hlist⟩, hform⟩ := hform
  split at hform
  case h_2 => cases hform
  case h_1 x tag w hread =>
  obtain ⟨hdests, heq⟩ := Option.ite_none_left_eq_some.mp hform
  cases heq
  have hside := MemSide.readOwn u (u.rc a).addr (4 * count.toNat)
  rw [hread] at hside
  refine ⟨hside, t, some (h, false), [a], _, ⟨fun _ => rfl, fun _ => rfl⟩, hpass, ?_⟩
  simp only [hlist, hread, hdests, Bool.false_eq_true, if_false]

theorem cshd_handsIn (hform : copyForm (.cshd t h a b) u = some (c, v)) : HandsIn (.cshd t h a b) u c v := by
  simp only [copyForm, Option.ite_none_left_eq_some, Bool.or_eq_true, Bool.not_eq_true', bne_iff_ne, decide_eq_true_eq, not_or, not_not,
    Bool.not_eq_false, Option.not_isSome_iff_eq_none] at hform
  obtain ⟨⟨⟨⟨⟨hpass, halign⟩, hdev⟩, hroom⟩, hrange⟩, heq⟩ := hform
  cases heq
  have hpassed : copyAlign (u.rc a) (u.rd b).toNat 65536 = none := copyAlign_passes halign (by omega) hrange
  refine ⟨.refl u, t, some (h, false), [a, b], _, ⟨fun _ => rfl, fun _ => rfl⟩, hpass, ?_⟩
  simp only [hpassed, hdev, hroom, hrange, Bool.not_true, Bool.false_eq_true, if_false]

theorem cpub_handsIn (hform : copyForm (.cpub t a) u = some (c, v)) : HandsIn (.cpub t a) u c v := by
  simp only [copyForm, Option.ite_none_left_eq_some, Bool.or_eq_true, Bool.not_eq_true', bne_iff_ne, not_or, not_not, Bool.not_eq_false,
    Option.not_isSome_iff_eq_none] at hform
  obtain ⟨⟨⟨hpass, halign⟩, hrange⟩, heq⟩ := hform
  cases heq
  have hpassed : copyAlign (u.rc a) ((u.rc a).top - (u.rc a).addr) 65536 = none := copyAlign_passes halign (by omega) hrange
  refine ⟨.refl u, t, none, [a], _, ⟨fun _ => rfl, fun _ => rfl⟩, hpass, ?_⟩
  simp only [hpassed, hrange]

theorem cred_handsIn (hform : copyForm (.cred t op h a b) u = some (c, v)) : HandsIn (.cred t op h a b) u c v := by
  simp only [copyForm] at hform
  split at hform
  case h_1 => cases hform
  case h_2 n float signed hkind =>
  simp only [Option.ite_none_left_eq_some, Bool.or_eq_true, Bool.not_eq_true', bne_iff_ne, decide_eq_true_eq, not_or, not_not,
    Bool.not_eq_false, Option.not_isSome_iff_eq_none] at hform
  obtain ⟨⟨⟨⟨hpass, halign⟩, hroom⟩, hrange⟩, heq⟩ := hform
  cases heq
  have hsome : (u.rd b).toNat ≠ 0 → ((u.rc a).addr : Int) < (u.rc a).addr + (u.rd b).toNat * n := by
    have hpos := credKind_pos hkind
    intro he
    have := Nat.mul_pos (Nat.pos_of_ne_zero he) hpos
    omega
  refine ⟨.refl u, t, some (h, false), [a, b], _, ⟨fun _ => rfl, fun _ => rfl⟩, hpass, ?_⟩
  simp only [hkind, copyAlign_passes halign hsome hrange, hroom, hrange, if_false]

end

/-- The command that a copy's form describes is the one that it hands in. -/
theorem exec_copyForm (hform : copyForm i u = some (c, v)) : HandsIn i u c v := by
  cases i with
  | cpy t out h a b => exact cpy_handsIn t out h a b hform
  | cpys t out h a b rows rowb => exact cpys_handsIn t out h a b rows rowb hform
  | cpyv t out h a b hx hy hz => exact cpyv_handsIn t out h a b hx hy hz hform
  | cpyg t h a b count eb => exact cpyg_handsIn t h a b count eb hform
  | cpym t h a count => exact cpym_handsIn t h a count hform
  | cshd t h a b => exact cshd_handsIn t h a b hform
  | cpub t a => exact cpub_handsIn t a hform
  | cred t op h a b => exact cred_handsIn t op h a b hform
  | _ => cases hform

/-! A command joins its queue, or stalls (R172). -/

/-- What acceptance makes of a command: it waits for its queue's room, or joins it as `CopyCmd.handedIn` and `CopyCmd.boardEntry` say. -/
theorem acceptCopy_eq (s : State) (c : CopyCmd) : acceptCopy s s.myKey c =
    if 8 ≤ (tget {} (s.ctx s.me).copyq c.q).cmds.length then none
    else if c.kind = .cpub then some (s.queued (c.handedIn s))
    else (s.addEntry (c.boardEntry s)).map fun e => e.2.queued { c.handedIn s with entry := some e.1 } := by
  rw [acceptCopy, State.coreCtx_myKey]
  refine if_congr Iff.rfl rfl ?_
  have enters : (s.addEntry (c.boardEntry s)).map (fun e => e.2.queued { c.handedIn s with entry := some e.1 }) =
      (s.addEntry (c.boardEntry s)).map fun e =>
        (e.2.modQueue s.me c.q fun q => { q with cmds := q.cmds ++ [{ c.handedIn s with entry := some e.1 }] }).bump :=
    Option.map_congr fun e he => by rw [State.queued, (State.addEntry_kept he).1.me]; rfl
  rw [enters]
  obtain ⟨kind⟩ := c
  cases kind <;> rfl

theorem enqueue_pub (hkind : c.kind = .cpub) (hroom : (tget {} (s.ctx s.me).copyq c.q).cmds.length < 8) :
    enqueue s c = (s.queued (c.handedIn s), .retire) := by
  rw [enqueue, acceptCopy_eq, if_neg (Nat.not_le.mpr hroom), if_pos hkind]

theorem enqueue_enters (hkind : c.kind ≠ .cpub) (hroom : (tget {} (s.ctx s.me).copyq c.q).cmds.length < 8)
    (hadds : s.addEntry (c.boardEntry s) = some (p, v)) : enqueue s c = (v.queued { c.handedIn s with entry := some p }, .retire) := by
  rw [enqueue, acceptCopy_eq, if_neg (Nat.not_le.mpr hroom), if_neg hkind, hadds]
  rfl

theorem enqueue_stalls (hfull : ¬ (tget {} (s.ctx s.me).copyq c.q).cmds.length < 8 ∨ c.kind ≠ .cpub ∧ s.addEntry (c.boardEntry s) = none) :
    enqueue s c = (s.modMy fun k => { k with stall := .copy c }, .done) := by
  have hnone : acceptCopy s s.myKey c = none := by
    rw [acceptCopy_eq]
    rcases hfull with hfull | ⟨hkind, hnone⟩
    · rw [if_pos (Nat.not_lt.mp hfull)]
    · rw [if_neg hkind, hnone, Option.map_none, ite_self]
  rw [enqueue, hnone]

/-- The queue is in the context, and has no part in the seat. -/
theorem State.queued_seat (s : State) (c : CopyCmd) : SameSeat s (s.queued c) := .aside rfl rfl

/-! Queue control (R198). -/

theorem Checked.seat {j : Issue} {taken : Bool} (hc : Checked j s s' taken) : SameSeat s s' := .aside hc.tiles hc.near.focus

theorem Checked.ctx {j : Issue} {taken : Bool} (hc : Checked j s s' taken) (x : Nat) : s'.ctx x = s.ctx x := by rw [hc.eq]; rfl

/-- A copy queue at rest: empty or FAULTED. -/
def CopyQ.idle (q : CopyQ) : Prop := q.cmds = [] ∨ q.faulted = true

/-- CWAIT ends where every masked queue is at rest, and waits elsewhere. -/
theorem exec_cwait (m : BitVec 4) : ∃ body : State → Act, (∀ s, exec (.cwait m) s = issue (s.declared (.cwait m)) body s) ∧ ∀ u,
    ((∀ q, q < 4 → bitAt m q = true → (u.queueAt u.me q).idle) → body u = (u, .retire)) ∧
    (¬ (∀ q, q < 4 → bitAt m q = true → (u.queueAt u.me q).idle) → body u = (u, .stay)) := by
  refine ⟨_, fun s => rfl, fun u => ?_⟩
  have hall : ((maskedQueues m).all fun q => (u.queueAt u.me q).cmds.isEmpty || (u.queueAt u.me q).faulted) = true ↔
      ∀ q, q < 4 → bitAt m q = true → (u.queueAt u.me q).idle := by
    simp [maskedQueues, CopyQ.idle, or_iff_not_imp_left]
  simp only [State.queueAt] at hall ⊢
  exact ⟨fun hidle => by rw [if_pos (hall.mpr hidle)], fun hbusy => by rw [if_neg (mt hall.mp hbusy)]⟩

/-- Scoreboards, publications and held chunks may differ: seats, contexts and cores are as they were. -/
structure BoardSide (s t : State) : Prop where
  seat : SameSeat s t
  ctxs : t.ctxs = s.ctxs
  cores : t.cores = s.cores

theorem BoardSide.refl (s : State) : BoardSide s s := ⟨.refl s, rfl, rfl⟩

theorem BoardSide.trans (h : BoardSide s t) (k : BoardSide t u) : BoardSide s u where
  seat := h.seat.trans k.seat
  ctxs := k.ctxs.trans h.ctxs
  cores := k.cores.trans h.cores

theorem BoardSide.of_same (htiles : t.tiles = s.tiles) (hfocus : t.focus = s.focus) (hctxs : t.ctxs = s.ctxs) (hcores : t.cores = s.cores) :
    BoardSide s t := ⟨.aside htiles hfocus, hctxs, hcores⟩

theorem BoardSide.foldl {α : Type} {f : State → α → State} (hf : ∀ v a, BoardSide v (f v a)) (l : List α) (s : State) : BoardSide s (l.foldl f s) :=
  List.foldlRecOn l f (.refl s) fun v hv a _ => hv.trans (hf v a)

theorem BoardSide.ite {b : Prop} [Decidable b] (h : BoardSide s t) (k : BoardSide s u) : BoardSide s (if b then t else u) := by
  split
  · exact h
  · exact k

theorem BoardSide.freeEntries (s : State) (es : List (Nat × Nat)) : BoardSide s (s.freeEntries es) :=
  BoardSide.foldl (f := State.freeEntry) (fun v e => ⟨.modBoard v e.1 (tput none e.2 none), rfl, rfl⟩) es s

theorem BoardSide.dropIfGone (s : State) (id : Nat) : BoardSide s (s.dropIfGone id) := by
  unfold State.dropIfGone
  split
  · exact .ite (.of_same rfl rfl rfl rfl) (.refl s)
  · exact .refl s

theorem BoardSide.withdrawPub (s : State) (id : Nat) : BoardSide s (s.withdrawPub id) := by
  unfold State.withdrawPub
  split
  case h_2 => exact .refl s
  case h_1 p _ =>
  refine .ite (.refl s) (BoardSide.trans ?_ (.dropIfGone _ id))
  refine List.foldlRecOn (motive := BoardSide s) p.shares _ (.of_same rfl rfl rfl rfl) fun v hv e _ => hv.trans ?_
  exact .ite (.of_same rfl rfl rfl rfl) (.of_same rfl rfl rfl rfl)

theorem BoardSide.trimOverflow (s : State) (p sl : Nat) : BoardSide s (s.trimOverflow p sl) := .ite (.refl s) (.of_same rfl rfl rfl rfl)

theorem BoardSide.dropHeld (s : State) (p : Nat) (f : Held → Bool) : BoardSide s (s.dropHeld p f) := by
  refine List.foldlRecOn (motive := BoardSide s) (s.held.filter f) _ (.of_same rfl rfl rfl rfl) fun v hv h _ =>
    hv.trans (BoardSide.trans ?_ (.trimOverflow _ p h.slice))
  exact .ite (.refl v) (.of_same rfl rfl rfl rfl)

/-- A queue all of whose commands were cancelled: it is not FAULTED, and keeps only what was under way (R198). -/
structure CopyQ.Cancelled (old new : CopyQ) : Prop where
  faulted : new.faulted = false
  done : new.done = old.done
  length : new.cmds.length ≤ old.cmds.length
  cancelled : ∀ c ∈ new.cmds, c.cancelled = true

theorem CopyQ.Cancelled.trans {a b d : CopyQ} (h : a.Cancelled b) (k : b.Cancelled d) : a.Cancelled d :=
  ⟨k.faulted, k.done.trans h.done, k.length.trans h.length, k.cancelled⟩

/-- The pending traps of cores alone differ. -/
def PendOnly (s t : State) : Prop := ∀ k, ∃ l, t.core k = { s.core k with pend := l }

/-- Of context x the queues that qs lists are cancelled and the others as they were; of each core only its pending traps differ, and
memory and the seats are the same. -/
structure CancelsQueues (x : Nat) (qs : List Nat) (s t : State) : Prop where
  seat : SameSeat s t
  mem : SameMemory s t
  core : PendOnly s t
  listed (q : Nat) : q ∈ qs → (s.queueAt x q).Cancelled (t.queueAt x q)
  other (q : Nat) : q ∉ qs → t.queueAt x q = s.queueAt x q

theorem PendOnly.modCore (h : PendOnly s t) (j : Nat) (f : Core → List Pending) : PendOnly s (t.modCore j fun c => { c with pend := f c }) := fun k => by
  obtain ⟨l, hl⟩ := h k
  rw [State.modCore_core]
  split
  · subst ‹j = k›; exact ⟨f (t.core j), by rw [hl]⟩
  · exact ⟨l, hl⟩

theorem PendOnly.modQueue (h : PendOnly s t) (x q : Nat) (f : CopyQ → CopyQ) : PendOnly s (t.modQueue x q f) := h

theorem PendOnly.forget (h : PendOnly s t) (f : Asker → Bool) : PendOnly s (t.forget f) := h

theorem PendOnly.trans (h : PendOnly s t) (k : PendOnly t u) : PendOnly s u := fun i => by
  obtain ⟨l, hl⟩ := h i
  obtain ⟨m, hm⟩ := k i
  exact ⟨m, by rw [hm, hl]⟩

/-- A queue whose commands a filter kept as cancelled, and which is not FAULTED. -/
theorem CopyQ.Cancelled.filterMap {keep : CopyCmd → Option CopyCmd} (hkeep : ∀ c c', keep c = some c' → c'.cancelled = true) (old : CopyQ) :
    old.Cancelled { old with cmds := old.cmds.filterMap keep, faulted := false } :=
  ⟨rfl, rfl, List.length_filterMap_le .., fun c' h => by obtain ⟨c, -, hc⟩ := List.mem_filterMap.mp h; exact hkeep c c' hc⟩

/-- What the discarded commands held is given back. -/
theorem BoardSide.discards (s : State) (x : Nat) (cs : List CopyCmd) : BoardSide s (cs.foldl (fun s c =>
    let s := s.freeEntries (c.entry.toList ++ c.dests.filterMap (·.entry))
    let s := match c.pub with | some id => s.withdrawPub id | none => s
    s.dropHeld (s.ctxPart x) fun h => h.core == coreKey x c.compute && h.order == c.order && h.pub.isNone) s) := by
  refine .foldl (fun v c => ?_) cs s
  have hfreed := BoardSide.freeEntries v (c.entry.toList ++ c.dests.filterMap (·.entry))
  refine .trans ?_ (.dropHeld ..)
  split
  · exact hfreed.trans (.withdrawPub ..)
  · exact hfreed

/-- Pending traps of cores are dropped: no queue and no seat has a part in them. -/
theorem PendOnly.foldl (rs : List Bool) (key : Bool → Nat) (f : Core → List Pending) (u : State) :
    SameSeat u (rs.foldl (fun s r => s.modCore (key r) fun c => { c with pend := f c }) u) ∧
    PendOnly u (rs.foldl (fun s r => s.modCore (key r) fun c => { c with pend := f c }) u) ∧
    ∀ x q, (rs.foldl (fun s r => s.modCore (key r) fun c => { c with pend := f c }) u).queueAt x q = u.queueAt x q := by
  refine List.foldlRecOn (motive := fun w => SameSeat u w ∧ PendOnly u w ∧ ∀ x q, w.queueAt x q = u.queueAt x q) rs _
    ⟨.refl u, fun k => ⟨(u.core k).pend, rfl⟩, fun _ _ => rfl⟩ fun w hw r _ => ?_
  obtain ⟨hseat, hpend, hqueue⟩ := hw
  exact ⟨hseat.trans (.aside rfl rfl), hpend.modCore (key r) f, hqueue⟩

theorem State.modQueue_queueAt_same (s : State) (x q : Nat) (f : CopyQ → CopyQ) : (s.modQueue x q f).queueAt x q = f (s.queueAt x q) := by
  rw [State.modQueue_queueAt, if_pos ⟨rfl, rfl⟩]

theorem State.modQueue_queueAt_other {r : Nat} (s : State) (x : Nat) (f : CopyQ → CopyQ) (hr : r ≠ q) :
    (s.modQueue x q f).queueAt x r = s.queueAt x r := by
  rw [State.modQueue_queueAt, if_neg fun h => hr h.2.symm]

theorem State.cancelQueue_cancels (s : State) (x q : Nat) : CancelsQueues x [q] s (s.cancelQueue x q) := by
  have hmem : SameMemory s (s.cancelCopies x q fun _ => true) := ((PoolKept.refl s).cancelCopies x q _).mem
  suffices h : SameSeat s (s.cancelQueue x q) ∧ PendOnly s (s.cancelQueue x q) ∧ (s.queueAt x q).Cancelled ((s.cancelQueue x q).queueAt x q) ∧
      ∀ r, r ≠ q → (s.cancelQueue x q).queueAt x r = s.queueAt x r by
    obtain ⟨hseat, hcore, hqueue, hother⟩ := h
    exact ⟨hseat, hmem, hcore, fun r hr => by rw [List.mem_singleton.mp hr]; exact hqueue, fun r hr => hother r (by simpa using hr)⟩
  have hdis := BoardSide.discards s x ((tget {} (s.ctx x).copyq q).cmds.filter fun _ => true)
  unfold State.cancelQueue State.cancelCopies
  dsimp only at hdis ⊢
  generalize List.foldl _ s _ = t at hdis ⊢
  have hqueue (r : Nat) : t.queueAt x r = s.queueAt x r := by rw [State.queueAt, State.ctx, hdis.ctxs]; rfl
  have hforget (r : Nat) : (t.forget (· == .copy x q)).queueAt x r = t.queueAt x r := rfl
  have hcores : PendOnly s t := fun k => ⟨(s.core k).pend, by rw [State.core, hdis.cores]; rfl⟩
  have hkeep (c c' : CopyCmd) (hc : (if true = true then if (c.inFlight || c.pub.any fun id => (t.pub id).any (·.committed)) = true then
      some { c with cancelled := true } else none else some c) = some c') : c'.cancelled = true := by
    rw [if_pos rfl] at hc
    split at hc <;> cases hc
    rfl
  split
  case isTrue =>
    have hpend := PendOnly.foldl [false, true] (coreKey x) fun c => c.pend.filter fun p => !(p.cause == Cause.copyFault.code && p.info % 4 == q)
    refine ⟨.trans (.trans ?_ (hpend _).1) (.modCtx _ _ _), .modQueue (.trans ?_ (hpend _).2.1) x q _, ?_, fun r hr => ?_⟩
    · exact hdis.seat.trans (.aside rfl rfl)
    · exact (hcores.forget _).modQueue x q _
    · rw [State.modQueue_queueAt_same, (hpend _).2.2, State.modQueue_queueAt_same]
      simp only [hforget, hqueue]
      exact .filterMap hkeep _
    · rw [State.modQueue_queueAt_other _ x _ hr, (hpend _).2.2, State.modQueue_queueAt_other _ x _ hr]
      exact hqueue r
  case isFalse =>
    refine ⟨hdis.seat.trans (.aside rfl rfl), (hcores.modQueue x q _).modQueue x q _, ?_, fun r hr => ?_⟩
    · rw [State.modQueue_queueAt_same, State.modQueue_queueAt_same]
      simp only [hqueue]
      exact .filterMap hkeep _
    · rw [State.modQueue_queueAt_other _ x _ hr, State.modQueue_queueAt_other _ x _ hr]
      exact hqueue r

/-- The queues that CCANCEL masks, one after the other. -/
theorem CancelsQueues.foldl (qs : List Nat) : ∀ s : State, CancelsQueues s.me qs s (qs.foldl (fun s q => s.cancelQueue s.me q) s) := by
  induction qs with
  | nil => exact fun s => ⟨.refl s, ⟨rfl, rfl, rfl⟩, fun k => ⟨(s.core k).pend, rfl⟩, fun _ h => (List.not_mem_nil h).elim, fun _ _ => rfl⟩
  | cons q qs ih =>
    intro s
    have hfirst := s.cancelQueue_cancels s.me q
    have hrest := ih (s.cancelQueue s.me q)
    rw [hfirst.seat.me] at hrest
    rw [List.foldl_cons]
    refine ⟨hfirst.seat.trans hrest.seat, ?_, hfirst.core.trans hrest.core, fun r hr => ?_, fun r hr => ?_⟩
    · obtain ⟨hrim, htags, hhost⟩ := hfirst.mem
      obtain ⟨krim, ktags, khost⟩ := hrest.mem
      exact ⟨krim.trans hrim, ktags.trans htags, khost.trans hhost⟩
    · by_cases hrq : r = q
      · have hnow := hfirst.listed r (List.mem_singleton.mpr hrq)
        by_cases hlater : r ∈ qs
        · exact hnow.trans (hrest.listed r hlater)
        · rw [hrest.other r hlater]
          exact hnow
      · rw [← hfirst.other r (by simpa using hrq)]
        exact hrest.listed r ((List.mem_cons.mp hr).resolve_left hrq)
    · obtain ⟨hrq, hlater⟩ := not_or.mp (mt List.mem_cons.mpr hr)
      rw [hrest.other r hlater, hfirst.other r (by simpa using hrq)]

/-- CCANCEL cancels the masked queues. -/
theorem exec_ccancel (m : BitVec 4) : ∃ body : State → Act, (∀ s, exec (.ccancel m) s = issue (s.declared (.ccancel m)) body s) ∧
    ∀ u, body u = ((maskedQueues m).foldl (fun s q => s.cancelQueue s.me q) u, .retire) := ⟨_, fun _ => rfl, fun _ => rfl⟩

theorem mem_maskedQueues {m : BitVec 4} {q : Nat} : q ∈ maskedQueues m ↔ q < 4 ∧ bitAt m q = true := by
  simp [maskedQueues]

end

end Sys2Proof.Machine

namespace Sys2Proof.Proofs

open Sys2Proof Sys2Proof.Machine

/-- Settles O30: what a copy's form describes is what its body hands in (`exec_copyForm`), behind the checks of what it names
(`issueCopy_front`); a command then joins its queue or stalls (`enqueue_enters`, `enqueue_stalls`); CWAIT and CCANCEL go over the masked
queues (`exec_cwait`, `CancelsQueues.foldl`). The chunks of a remote source and of a multicast are pieces of 4 KiB (log entry 47). -/
theorem copiesJoinTheirQueue : Obligations.CopiesJoinTheirQueue := by
  unfold Obligations.CopiesJoinTheirQueue
  refine ⟨?joins, ?traps, ?cwait, ?ccancel⟩
  case joins =>
    intro i s s' u c hform ⟨hfree, hc⟩ hstep room d
    obtain ⟨hside, t, hw, cr, body, ⟨hdecl, hexec⟩, hpass, hbody⟩ := exec_copyForm hform
    obtain ⟨front, hissue, hfront⟩ := issueCopy_front 12 t cr hw body
    rw [← hc.prog] at hstep
    have hact := ((hfront s' hstep).passes hpass).trans hbody
    rw [← s.declared_len i, hexec, hissue, ← hdecl s]
    have hseat : SameSeat s' u := .aside hside.tiles hside.focus
    refine ⟨fun hkind hroom => ?pub, fun e v hkind hroom hadds => ?enters, fun hfull => issue_waits hfree hc (hact.trans (enqueue_stalls hfull))⟩
    case pub =>
      exact issue_ends_seat hfree hc (hact.trans (enqueue_pub hkind hroom)) (hseat.trans (u.queued_seat _)) hside.cores
    case enters =>
      obtain ⟨hadd, hcores, -⟩ := State.addEntry_kept hadds
      exact issue_ends_seat hfree hc (hact.trans (enqueue_enters hkind hroom hadds)) ((hseat.trans hadd).trans (v.queued_seat _))
        (hcores.trans hside.cores)
  case traps =>
    intro i s s' t hw hnames ⟨hfree, hc⟩ hstep hreqs tags
    obtain ⟨cr, body, hdecl, hexec⟩ := exec_copyNames hnames
    obtain ⟨front, hissue, hfront⟩ := issueCopy_front 12 t cr hw body
    rw [hexec, hissue, ← hdecl s]
    have hmon := hfree.activation (by rw [hdecl]; rfl) (by rw [hdecl]; rfl)
    have hprog := hc.prog
    obtain ⟨g, rfl⟩ := hc.sets hmon
    obtain ⟨-, hundeclared, hforeign, hhandle⟩ := hfront _ (hprog ▸ hstep)
    rw [State.declaredHandles_withSig] at hundeclared hforeign hhandle
    refine ⟨fun hsome hnone => issue_traps_act hfree hc (hundeclared hsome hnone) hmon hreqs,
      fun hdeclared htags => issue_traps_act hfree hc (hforeign hdeclared htags) hmon hreqs, fun h w hhw hdeclared htags => ?_⟩
    obtain ⟨hout, hnone, hexported⟩ := hhandle h w hhw hdeclared htags
    exact ⟨fun hle => issue_traps_act hfree hc (hout hle) hmon hreqs, fun hlt hst => issue_traps_act hfree hc (hnone hlt hst) hmon hreqs,
      fun hlt hst hwrites => issue_traps_act hfree hc (hexported hlt hst hwrites) hmon hreqs⟩
  case cwait =>
    intro m s s' ⟨hfree, hc⟩ idle
    obtain ⟨body, hexec, hbody⟩ := exec_cwait m
    obtain ⟨hends, hwaits⟩ := hbody s'
    have hqueue (q : Nat) : s'.queueAt s'.me q = tget {} (s.ctx s.me).copyq q := by rw [State.queueAt, hc.seat.me, hc.ctx]
    simp only [hqueue] at hends hwaits
    rw [hexec]
    exact ⟨fun hidle => issue_ends_self hfree hc (hends hidle), fun hbusy => issue_stays hfree hc (hwaits hbusy)⟩
  case ccancel =>
    intro m s s' ⟨hfree, hc⟩
    have hall := CancelsQueues.foldl (maskedQueues m) s'
    generalize hu : (maskedQueues m).foldl (fun s q => s.cancelQueue s.me q) s' = u at hall
    obtain ⟨hseat, ⟨hrim, -, hhost⟩, hcore, hlisted, hother⟩ := hall
    obtain ⟨pend, hmy⟩ := hcore s'.myKey
    rw [← hseat.core_my] at hmy
    obtain ⟨body, hexec, hbody⟩ := exec_ccancel m
    obtain ⟨t, hnext, hends⟩ := issue_ends hfree hc (hu ▸ hbody s') (by rw [hmy]; exact hc.kill hfree)
    have hpc : u.pcNow = s.pcNow := (hseat.pcNow (by rw [hmy]; rfl)).trans hc.pcNow
    have hrc (r : Reg) : u.rc r = s.rc r :=
      (rc_congr hseat.monitor (by rw [hmy]; rfl) (by rw [hseat.focus, hseat.mcore]) r).trans (hc.rc r)
    have hrest := hends.frame.rest
    have hqueue (q : Nat) : t.queueAt s.me q = u.queueAt s'.me q := by rw [hc.seat.me, hrest]; rfl
    have hold (q : Nat) : s'.queueAt s'.me q = s.queueAt s.me q := by rw [State.queueAt, hc.seat.me, hc.ctx]; rfl
    refine ⟨t, (hexec s).trans hnext, hends.pc.trans (by rw [hpc]; rfl), fun r => (hends.regs r).trans (hrc r), ?_, ?_, fun q hq => ?_⟩
    · calc t.rim = u.rim := by rw [hrest]
        _ = s'.rim := hrim
        _ = s.rim := by rw [hc.eq]
    · calc t.host = u.host := by rw [hrest]
        _ = s'.host := hhost
        _ = s.host := by rw [hc.eq]
    · intro old new
      split
      case isTrue hmasked =>
        obtain ⟨hfaulted, hdone, hlength, hcancelled⟩ := hold q ▸ hqueue q ▸ hlisted q (mem_maskedQueues.mpr ⟨hq, hmasked⟩)
        exact ⟨hfaulted, hdone, hlength, hcancelled⟩
      case isFalse hunmasked =>
        exact (hqueue q).trans ((hother q (mt (fun h => (mem_maskedQueues.mp h).2) hunmasked)).trans (hold q))

end Sys2Proof.Proofs

/-! PROOFS. Barriers and semaphores (O31): each instruction's body is said once, as what it does to its barrier, its queue or its semaphore. -/

namespace Sys2Proof.Machine

open Sys2Proof

section
variable {s s' u : State}

/-! Barriers (R182, R196, R351). -/

/-- BARX's body: a count below 2^40 arms the barrier and is counted as done, where its queue has room (R196). -/
theorem exec_barx (t : CopyTags) (b : Reg) : ∃ body : State → Act,
    (∀ s, exec (.barx t b) s = issueCopy 12 t [b] none false body s) ∧ ∀ u, t.semV = false → t.evV = false → (u.rd b).toNat < 2 ^ 40 →
      (tget {} (u.ctx u.me).copyq t.q.toNat).cmds.length < 8 →
      body u = ((u.modBar u.me t.bar.toNat fun r => r.arm (u.rd b).toNat).modQueue u.me t.q.toNat (fun q => { q with done := q.done + 1#16 }), .retire) := by
  refine ⟨_, fun _ => rfl, fun u hsem hev hcount hroom => ?_⟩
  simp only [if_neg (Nat.not_le.mpr hcount), if_neg (Nat.not_le.mpr hroom), hsem, hev, Bool.false_eq_true, if_false]
  rfl

/-- BARINIT's body: it arms for up to 65535 arrivals, and traps for more (R351). -/
theorem exec_barinit (n : BitVec 6) (a : Reg) : ∃ body : State → Act,
    (∀ s, exec (.barinit n a) s = issue (s.declared (.barinit n a)) body s) ∧ ∀ u,
      ((u.rd a).toNat ≤ 65535 → body u = (u.modBar u.me n.toNat fun b => b.init (u.rd a).toNat, .retire)) ∧
      (65535 < (u.rd a).toNat → body u = (u, .trap .illegal 0 0)) :=
  ⟨_, fun _ => rfl, fun _ => ⟨fun h => if_neg (Nat.not_lt.mpr h), fun h => if_pos h⟩⟩

/-- BARARR of c0: it arrives at the own barrier with the published tail (R351). -/
theorem exec_bararr_own (n : BitVec 6) : ∃ body : State → Act,
    (∀ s, exec (.bararr n 0#5) s = issue (s.declared (.bararr n 0#5)) body s) ∧
    ∀ u, body u = (u.modBar u.me n.toNat fun b => b.arrive u.my.tail, .retire) := ⟨_, fun _ => rfl, fun _ => if_pos rfl⟩

/-- The noted firings of a wait that begins: those by bytes below 2^64, those by arrivals above. -/
def Core.waitsBar (v : Nat) (c : Core) : Core := { c with prog := { c.prog with step := barStep, waits := true, value := v } }

/-- BARWAIT's body: at its first step, and in its wait (R351). -/
theorem exec_barwait (n : BitVec 6) : ∃ body : State → Act, (∀ s, exec (.barwait n) s = issue (s.declared (.barwait n)) body s) ∧ ∀ u,
    let b := u.bar u.me n.toNat
    let v := u.my.prog.value
    (u.my.prog.step = 0 →
      (b.armedAny = false → body u = (u, .retire)) ∧
      (b.armedAny = true → body u =
        ((u.modBar u.me n.toNat fun b => b.waitFrom u.focus.compute).modMy (Core.waitsBar (b.fires % 2 ^ 64 + b.arrFires * 2 ^ 64)), .stay))) ∧
    (u.my.prog.step = barStep →
      (b.fires = v % 2 ^ 64 → body u = (u, .stay)) ∧
      (b.fires ≠ v % 2 ^ 64 → b.arrFires = v / 2 ^ 64 → body u = (u, .retire)) ∧
      (b.fires ≠ v % 2 ^ 64 → b.arrFires ≠ v / 2 ^ 64 →
        body u = (u.modMy fun c => { c with stall := .fp (b.tailFor u.focus.compute) .retire }, .done))) := by
  refine ⟨_, fun _ => rfl, fun u => ⟨fun hstep => ?_, fun hstep => ?_⟩⟩
  · simp only [hstep, barStep, Nat.zero_ne_one, OfNat.zero_ne_ofNat, if_false]
    exact ⟨fun hb => if_pos (by rw [hb]; rfl), fun hb => if_neg (by rw [hb]; decide)⟩
  · simp only [hstep, barStep, OfNat.ofNat_ne_one, if_false, if_true]
    exact ⟨fun hb => if_pos hb, fun hb ha => (if_neg hb).trans (if_pos ha), fun hb ha => (if_neg hb).trans (if_neg ha)⟩

/-! Semaphores (R352). -/

/-- A semaphore of the focus tile set to x. -/
def State.setSem (s : State) (n x : Nat) : State := s.modTile s.focus.site fun t => { t with sem := tput 0 n x t.sem }

theorem SameSeat.modTile_sem (s : State) (i : Nat) (f : Tbl Nat → Tbl Nat) : SameSeat s (s.modTile i fun t => { t with sem := f t.sem }) :=
  .modTile s i (fun _ c => by cases c <;> rfl) fun _ => ⟨rfl, rfl⟩

/-- The instructions of semaphore n. -/
def SemInstr (i : Instr) (n : BitVec 4) : Prop := i = .semup n ∨ i = .semdn n ∨ ∃ d, i = .semtry d n

/-- What a semaphore's body does where the semaphore is the slot's: SEMUP raises it, SEMDN lowers it or waits, SEMTRY lowers it and answers 1,
or answers 0. -/
structure SemActs (i : Instr) (n : BitVec 4) (u : State) (act : Act) : Prop where
  up : i = .semup n → act = (u.setSem n.toNat (min (u.sem n.toNat + 1) (2 ^ 32 - 1)), .retire)
  down : i = .semdn n → act = if u.sem n.toNat = 0 then (u, .stay) else (u.setSem n.toNat (u.sem n.toNat - 1), .retire)
  tries (d : Reg) : i = .semtry d n → act =
    if u.sem n.toNat = 0 then (u.wc d (dataReg 0#64), .retire) else ((u.setSem n.toNat (u.sem n.toNat - 1)).wc d (dataReg 1#64), .retire)

/-- The bodies of the semaphore instructions, behind the check of the slot's assignment. -/
theorem exec_sem {i : Instr} {n : BitVec 4} (hi : SemInstr i n) : ∃ body : State → Act,
    (∀ s, exec i s = issue (s.declared i) body s) ∧ (decl i).len = 4 ∧ (decl i).mon = false ∧ (decl i).monOnly = false ∧ ∀ u,
      (u.semOk n.toNat = false → body u = (u, .trap .privilege 0 0)) ∧ (u.semOk n.toNat = true → SemActs i n u (body u)) := by
  obtain rfl | rfl | ⟨d, rfl⟩ := hi
  · refine ⟨_, fun _ => rfl, rfl, rfl, rfl, fun u => ⟨fun hok => by simp only [hok]; rfl, fun hok => ⟨fun _ => ?_, nofun, nofun⟩⟩⟩
    simp only [hok]
    rw [Nat.min_comm]
    rfl
  · refine ⟨_, fun _ => rfl, rfl, rfl, rfl, fun u => ⟨fun hok => by simp only [hok]; rfl, fun hok => ⟨nofun, fun _ => ?_, nofun⟩⟩⟩
    simp only [hok]
    rfl
  · refine ⟨_, fun _ => rfl, rfl, rfl, rfl, fun u => ⟨fun hok => by simp only [hok]; rfl, fun hok => ⟨nofun, nofun, fun _ h => ?_⟩⟩⟩
    cases h
    simp only [hok]
    rfl

/-! An instruction that writes its register last. -/

/-- An instruction whose body retires with a register written, the cores and the seat otherwise as it found them, ends with that register. -/
theorem issue_writes_seat {j : Issue} {d : Reg} {v : CReg} {body : State → Act} (hf : Free j s) (hc : Checked j s s' false)
    (hb : body s' = (u.wc d v, .retire)) (hseat : SameSeat s' u) (hcores : u.cores = s'.cores) :
    ∃ t, issue j body s = .next t ∧ EndsWith u t (s.pcNow + j.len) d v := by
  have hmy := hseat.my hcores
  obtain ⟨t, hnext, hends⟩ := issue_ends hf hc hb (by rw [State.killLater_wc, hmy]; exact hc.kill hf)
  rw [State.pcNow_wc, hseat.pcNow (congrArg Core.pc hmy), hc.pcNow] at hends
  exact ⟨t, hnext, hends.writes⟩

end

end Sys2Proof.Machine

namespace Sys2Proof.Proofs

open Sys2Proof Sys2Proof.Machine

/-- Settles O31: each barrier's body (`exec_barx`, `exec_barinit`, `exec_bararr_own`, `exec_barwait`) and each semaphore's (`exec_sem`) changes
no seat, so that the instruction ends, waits or traps as its body says. -/
theorem barriersAndSemaphores : Obligations.BarriersAndSemaphores := by
  unfold Obligations.BarriersAndSemaphores
  refine ⟨?barx, ?barinit, ?bararr, ?waitBegins, ?waitGoesOn, ?sem⟩
  case barx =>
    intro t b s s' ⟨hfree, hc⟩ hstep hsem hev hcount hroom
    obtain ⟨body, hexec, hbody⟩ := exec_barx t b
    obtain ⟨front, hissue, hfront⟩ := issueCopy_front 12 t [b] none body
    have hrd := hc.rd b
    obtain ⟨g, rfl⟩ := hc.sets (hfree.activation rfl rfl)
    have hpass : copyChecks (s.modMy (Core.withSig g)) t none false = true := by simp [copyChecks, hsem, hev]
    have hact := ((hfront _ (by rw [hc.prog]; exact hstep)).passes hpass).trans (hbody _ hsem hev (hrd ▸ hcount) hroom)
    rw [hrd] at hact
    exact (hexec s).trans (hissue s) ▸ issue_ends_seat hfree hc hact (.aside rfl rfl) rfl
  case barinit =>
    intro n a s s' ⟨hfree, hc⟩
    obtain ⟨body, hexec, hbody⟩ := exec_barinit n a
    obtain ⟨harms, htraps⟩ := hbody s'
    rw [hc.rd] at harms htraps
    rw [hexec]
    have hmon := hfree.activation rfl rfl
    refine ⟨fun hle => ?_, fun hlt hreqs => issue_traps_act hfree hc (htraps hlt) hmon hreqs⟩
    obtain ⟨g, rfl⟩ := hc.sets hmon
    exact issue_ends_seat hfree hc (harms hle) (.aside rfl rfl) rfl
  case bararr =>
    intro n s s' ⟨hfree, hc⟩
    obtain ⟨body, hexec, hbody⟩ := exec_bararr_own n
    have htail : s'.my.tail = s.my.tail := by obtain ⟨g, hmy⟩ := hc.my; rw [hmy]
    have hact := hbody s'
    rw [htail] at hact
    obtain ⟨g, rfl⟩ := hc.sets (hfree.activation rfl rfl)
    exact hexec s ▸ issue_ends_seat hfree hc hact (.aside rfl rfl) rfl
  case waitBegins =>
    intro n s s' ⟨hfree, hc⟩ hstep b
    obtain ⟨body, hexec, hbody⟩ := exec_barwait n
    obtain ⟨g, rfl⟩ := hc.sets (hfree.activation rfl rfl)
    obtain ⟨hends, hwaits⟩ := (hbody _).1 (by rw [hc.prog]; exact hstep)
    rw [hexec]
    exact ⟨fun harmed haarm => issue_ends_self hfree hc (hends (Bool.or_eq_false_iff.mpr ⟨harmed, haarm⟩)),
      fun harmed => issue_stays hfree hc (hwaits (Bool.or_eq_true_iff.mpr harmed))⟩
  case waitGoesOn =>
    intro n s s' ⟨hfree, hc⟩ hstep b v
    obtain ⟨body, hexec, hbody⟩ := exec_barwait n
    have hprog := hc.prog
    obtain ⟨g, rfl⟩ := hc.sets (hfree.activation rfl rfl)
    obtain ⟨hstays, hends, hwaits⟩ := (hbody _).2 (by rw [hprog]; exact hstep)
    rw [hprog] at hstays hends hwaits
    rw [hexec]
    exact ⟨fun hfires => issue_stays hfree hc (hstays hfires), fun hfires harr => issue_ends_self hfree hc (hends hfires harr),
      fun hfires harr => issue_waits hfree hc (hwaits hfires harr)⟩
  case sem =>
    intro i n s s' d ⟨hfree, hc⟩ count set
    have starts (hi : SemInstr i n) : ∃ body, (∀ s, exec i s = issue (s.declared i) body s) ∧ (s.declared i).len = 4 ∧ s.monitor = false ∧
        (s.semOk n.toNat = false → body s' = (s', .trap .privilege 0 0)) ∧ (s.semOk n.toNat = true → SemActs i n s' (body s')) ∧
        (∀ x, s'.setSem n.toNat x = set x) ∧ s'.sem n.toNat = count := by
      obtain ⟨body, hexec, hlen, hmode, honly, hbody⟩ := exec_sem hi
      have hmon := hfree.activation (by rw [s.declared_eq]; exact hmode) (by rw [s.declared_eq]; exact honly)
      obtain ⟨g, rfl⟩ := hc.sets hmon
      obtain ⟨htraps, hacts⟩ := hbody (s.modMy (Core.withSig g))
      exact ⟨body, hexec, (s.declared_len i).trans hlen, hmon, htraps, hacts, fun _ => rfl, rfl⟩
    have hseat (x : Nat) : SameSeat s' (s'.setSem n.toNat x) := .modTile_sem s' _ fun t => tput 0 n.toNat x t
    refine ⟨fun hi hforeign hreqs => ?foreign, fun hown => ⟨fun hi => ?up, fun hi hcount => ?down, fun hi hcount => ?waits,
      fun hi hcount => ?takes, fun hi hcount => ?empty⟩⟩
    case foreign =>
      obtain ⟨body, hexec, -, hmon, htraps, -⟩ := starts (hi.imp_right (Or.imp_right fun hi => ⟨d, hi⟩))
      exact hexec s ▸ issue_traps_act hfree hc (htraps hforeign) hmon hreqs
    case up =>
      obtain ⟨body, hexec, hlen, -, -, hacts, hset, hsem⟩ := starts (.inl hi)
      exact hexec s ▸ hlen ▸ hset _ ▸ hsem ▸ issue_ends_seat hfree hc ((hacts hown).up hi) (hseat _) rfl
    case down =>
      obtain ⟨body, hexec, hlen, -, -, hacts, hset, hsem⟩ := starts (.inr (.inl hi))
      have hact := (hacts hown).down hi
      rw [hsem, if_neg hcount, hset] at hact
      exact hexec s ▸ hlen ▸ issue_ends_seat hfree hc hact (hset _ ▸ hseat _) rfl
    case waits =>
      obtain ⟨body, hexec, -, -, -, hacts, -, hsem⟩ := starts (.inr (.inl hi))
      have hact := (hacts hown).down hi
      rw [hsem, if_pos hcount] at hact
      exact hexec s ▸ issue_stays hfree hc hact
    case takes =>
      obtain ⟨body, hexec, hlen, -, -, hacts, hset, hsem⟩ := starts (.inr (.inr ⟨d, hi⟩))
      have hact := (hacts hown).tries d hi
      rw [hsem, if_neg hcount, hset] at hact
      exact hexec s ▸ hlen ▸ issue_writes_seat hfree hc hact (hset _ ▸ hseat _) rfl
    case empty =>
      obtain ⟨body, hexec, hlen, -, -, hacts, -, hsem⟩ := starts (.inr (.inr ⟨d, hi⟩))
      have hact := (hacts hown).tries d hi
      rw [hsem, if_pos hcount] at hact
      exact hexec s ▸ hlen ▸ issue_writes hfree hc hact

end Sys2Proof.Proofs

/-! PROOFS. Copy engines (O46): what a chunk reads leaves contexts and cores alone, what its end does changes the context's queues and barriers
and its tile's boards alone, and a flip changes slices, stamps and publications. -/

namespace Sys2Proof.Machine

open Sys2Proof

section
variable {s t u v : State} {k x q j : Nat} {c : CopyCmd}

/-! A stalled copy (R172). -/

/-- The core of an accepted copy goes on. -/
def Core.copyTaken (c : Core) : Core := { c with stall := .none, prog := { c.prog with step := 1 } }

theorem exec_copyAccept (hstall : (s.core k).stall = .copy c) :
    (∀ u, acceptCopy s k c = some u → exec (.copyAccept k) s = .next (u.modCore k Core.copyTaken)) ∧
    (acceptCopy s k c = none → exec (.copyAccept k) s = .next s) := by
  change (∀ u, _ → execCopyAccept k s = _) ∧ (_ → execCopyAccept k s = _)
  simp only [execCopyAccept, hstall]
  exact ⟨fun u hu => by simp only [hu]; rfl, fun hnone => by simp only [hnone]⟩

/-! What a chunk reads (R175). -/

theorem MemSide.readVa (p reg : Nat) (v : Stamp) (who : Asker) (fuel : Nat) :
    ∀ (s : State) (va n : Nat), MemSide s (readVa s p reg v who fuel va n).2 := by
  induction fuel with
  | zero => exact fun s _ _ => .refl s
  | succ fuel ih =>
    intro s va n
    unfold Machine.readVa
    dsimp only
    have htr := (Translates.translate s p va .load reg v who).toMemSide
    split
    · exact .refl s
    split
    next heq => rw [heq] at htr; exact htr
    next heq => rw [heq] at htr; exact htr
    next pa w heq =>
      rw [heq] at htr
      have hread := htr.trans (.readPa w p (w.homeOf p va) pa (min n (64 - va % 64)) (devHalf va) reg (some v))
      split
      next heq => rw [heq] at hread; exact hread
      next y z heq =>
        rw [heq] at hread
        have hrest := hread.trans (ih z (va + min n (64 - va % 64)) (n - min n (64 - va % 64)))
        split
        next heq => rw [heq] at hrest; exact hrest
        next => exact hrest

theorem MemSide.readRuns (p reg : Nat) (v : Stamp) (who : Asker) (rs : List Run) : ∀ s : State, MemSide s (readRuns s p reg v who rs).2 := by
  induction rs with
  | nil => exact .refl
  | cons r rs ih =>
    intro s
    unfold Machine.readRuns
    have hread : MemSide s (readAll s p reg v who r.va r.len).2 := .readVa p reg v who _ s r.va r.len
    split
    next z w heq =>
      rw [heq] at hread
      have hrest := hread.trans (ih w)
      split
      next heq => rw [heq] at hrest; exact hrest
      next => exact hrest
    next heq => rw [heq] at hread; exact hread

/-! The head of a queue. -/

theorem State.setHead_headCopy (s : State) (x q : Nat) (f : CopyCmd → CopyCmd) : (s.setHead x q f).headCopy x q = (s.headCopy x q).map f := by
  change ((s.setHead x q f).queueAt x q).cmds.head? = ((s.queueAt x q).cmds.head?).map f
  rw [State.setHead, State.modQueue_queueAt_same]
  cases (s.queueAt x q).cmds <;> rfl

/-- The bytes of runs stored in a handle, one run after the other. -/
def Handle.storeRuns (l : List (Run × Nat)) (h : Handle) : Handle := l.foldl (fun h e => h.store e.1.off e.1.len e.2) h

/-- Stored runs change their handle alone. -/
theorem State.storeRuns_kept (x h : Nat) (l : List (Run × Nat)) : ∀ s : State,
    (∃ cs, l.foldl (fun s e => s.modHandle x h fun t => t.store e.1.off e.1.len e.2) s = { s with ctxs := cs }) ∧
    (∀ q, (l.foldl (fun s e => s.modHandle x h fun t => t.store e.1.off e.1.len e.2) s).queueAt x q = s.queueAt x q) ∧
    (l.foldl (fun s e => s.modHandle x h fun t => t.store e.1.off e.1.len e.2) s).handle x h = Handle.storeRuns l (s.handle x h) := by
  induction l with
  | nil => exact fun s => ⟨⟨_, rfl⟩, fun _ => rfl, rfl⟩
  | cons e l ih =>
    intro s
    obtain ⟨⟨cs, hrest⟩, hqueue, hhandle⟩ := ih (s.modHandle x h fun t => t.store e.1.off e.1.len e.2)
    refine ⟨⟨cs, hrest⟩, fun q => (hqueue q).trans ?_, hhandle.trans ?_⟩
    · rw [State.queueAt, State.modHandle, State.modCtx_ctx_same]
      rfl
    · rw [State.modHandle_handle_same]
      rfl

/-! A chunk that has moved (R173, R182). -/

/-- The head command with its first chunk done. -/
def CopyCmd.nextChunk (c : CopyCmd) : CopyCmd := { c with chunks := c.chunks.drop 1, inFlight := false, el := 0 }

theorem State.chunkDone_next {n : Nat} (hhead : s.headCopy x q = some c) (hbar : c.bar = none) (hgoes : c.cancelled = false)
    (hmore : (c.chunks.drop 1).isEmpty = false) : s.chunkDone x q n = s.setHead x q CopyCmd.nextChunk := by
  simp only [State.chunkDone, hhead, hbar, hgoes, hmore, Bool.false_eq_true, if_false]
  rfl

/-- Contexts and tiles may differ: their queues, barriers, boards, semaphores and events. -/
def CtxTiles (s t : State) : Prop := ∃ cs ts, t = { s with ctxs := cs, tiles := ts }

theorem CtxTiles.refl (s : State) : CtxTiles s s := ⟨_, _, rfl⟩

theorem CtxTiles.trans (h : CtxTiles s t) (k : CtxTiles t u) : CtxTiles s u := by
  obtain ⟨_, _, rfl⟩ := h
  obtain ⟨_, _, rfl⟩ := k
  exact ⟨_, _, rfl⟩

theorem CtxTiles.slice (h : CtxTiles s t) (i : Nat) : t.slice i = s.slice i := by
  obtain ⟨_, _, rfl⟩ := h
  rfl

theorem CtxTiles.modCtx (s : State) (x : Nat) (f : Ctx → Ctx) : CtxTiles s (s.modCtx x f) := ⟨_, _, rfl⟩

theorem CtxTiles.modTile (s : State) (i : Nat) (f : Tile → Tile) : CtxTiles s (s.modTile i f) := ⟨_, _, rfl⟩

theorem CtxTiles.modQueue (s : State) (x q : Nat) (f : CopyQ → CopyQ) : CtxTiles s (s.modQueue x q f) := ⟨_, _, rfl⟩

theorem CtxTiles.setHead (s : State) (x q : Nat) (f : CopyCmd → CopyCmd) : CtxTiles s (s.setHead x q f) := .modQueue ..

theorem CtxTiles.freeEntries (s : State) (es : List (Nat × Nat)) : CtxTiles s (s.freeEntries es) :=
  List.foldlRecOn (motive := CtxTiles s) es State.freeEntry (.refl s) fun v hv e _ => hv.trans (.modTile v e.1 _)

theorem CtxTiles.postSemEv (s : State) (site : Nat) (sem ev : Option Nat) : CtxTiles s (s.postSemEv site sem ev) := by
  cases sem <;> cases ev <;> exact ⟨_, _, rfl⟩

theorem CtxTiles.completeCopy (s : State) (x q : Nat) : CtxTiles s (s.completeCopy x q) := by
  unfold State.completeCopy
  split
  · exact .refl s
  · exact ((CtxTiles.modCtx s x _).trans (.freeEntries _ _)).trans (.postSemEv ..)

theorem CtxTiles.chunkDone (s : State) (x q n : Nat) : CtxTiles s (s.chunkDone x q n) := by
  unfold State.chunkDone
  split
  · exact .refl s
  next c _ =>
    have hbar : CtxTiles s (match c.bar with | some b => if c.kind = CopyKind.cpym then s else s.modBar x b fun t => t.credit n | none => s) := by
      split
      · split
        · exact .refl s
        · exact .modCtx s x _
      · exact .refl s
    dsimp only
    split
    · exact (hbar.trans (.setHead ..)).trans (.modQueue ..)
    split
    · exact (hbar.trans (.setHead ..)).trans (.completeCopy ..)
    · exact hbar.trans (.setHead ..)

/-! The engine's turn (R173, R419). -/

theorem exec_copyChunk_serves {site : Nat} (heven : s.oddCycle site = false) (hpick : s.pickCopy site = some (x, j))
    (hgrant : (s.tile site).copyGrant = false) (hroom : (s.cluster (clusterOf site)).grants 1 = true) :
    exec (.copyChunk site) s = .next (s.copyTurn site x j) := by
  change execCopyChunk site s = _
  simp only [execCopyChunk, heven, hpick, hgrant, hroom, Bool.false_eq_true, if_false, if_true]

/-- The state of a turn on queue j of the tile: the pointer has moved on. -/
def State.turned (s : State) (site j : Nat) : State := s.modTile site fun t => { t with copyTurn := (j + 1) % 16 }

/-- A turn on a copy into its handle whose next chunk is read. -/
theorem State.copyTurn_movesIn {site : Nat} {rs : List Run} {l : List (Run × Nat)} (hhead : s.headCopy x (j % 4) = some c)
    (hstarted : c.started = true) (hkind : c.kind = .cpy false) (hne : c.chunks.isEmpty = false) (hrs : c.chunks.headD [] = rs)
    (hread : readRuns (s.turned site j) (s.ctxPart x) (ctxRegion x) c.readStamp (c.asker x) rs = (.ok l, u)) :
    s.copyTurn site x j = (l.foldl (fun s e => s.modHandle x c.h fun t => t.store e.1.off e.1.len e.2) u).chunkDone x (j % 4) (runBytes rs) := by
  have hhead' : (s.turned site j).headCopy x (j % 4) = some c := hhead
  have hmove : moveChunk (s.turned site j) x c =
      (.done (runBytes rs), l.foldl (fun s e => s.modHandle x c.h fun t => t.store e.1.off e.1.len e.2) u) := by
    have hpart : (s.turned site j).ctxPart x = s.ctxPart x := rfl
    simp only [moveChunk, hkind, hrs, moveIn, hpart, hread, Bool.false_eq_true, if_false]
  unfold State.turned at hhead' hmove
  simp only [State.copyTurn, hhead', hstarted, hne, hmove, Bool.false_eq_true, if_false, if_true]
  rfl

/-! An element of a reduction at its engine (R108, R193). -/

/-- Engine cl with its one request e taken. -/
def State.engineTook (s : State) (cl : Nat) (e : EngReq) : State := s.modCluster cl fun c =>
  { c with engTick := some s.tick, engQ := [], engPtr := if e.tied && decide (e.src < 121) then (e.src + 1) % 121 else c.engPtr }

/-- The one request of an engine is taken and served. -/
theorem exec_atomicEngineRequest_one {cl : Nat} {e : EngReq} (hengine : (s.cluster cl).engQ = [e]) (htick : (s.cluster cl).engTick ≠ some s.tick) :
    exec (.atomicEngineRequest cl) s = .next ((s.engineTook cl e).serveRequest cl e) := by
  have htaken : (s.modCluster cl fun c => { c with
      engTick := some s.tick, engQ := c.engQ.erase e
      engPtr := if e.tied && decide (e.src < 121) then (e.src + 1) % 121 else c.engPtr }) = s.engineTook cl e := by
    rw [State.engineTook, State.modCluster, State.modCluster, hengine, List.erase_cons_head]
  change execAtomicEngineRequest cl s = _
  simp only [execAtomicEngineRequest, hengine, pickRequest_one, beq_eq_false_iff_ne.2 htick, Bool.false_eq_true, if_false, htaken]
  rfl

/-- The barrier that a command names is credited. -/
def State.credited (s : State) (x n : Nat) (c : CopyCmd) : State :=
  match c.bar with
  | some b => s.modBar x b fun t => t.credit n
  | none => s

/-- An element that acts is credited; the next one follows it, and after the last the chunk is done. -/
theorem State.serveElement_acts {cl n pa old : Nat} {fl sg tag : Bool} {st : Stamp} {e : EngReq} {r : Run} (hhead : s.headCopy x q = some c)
    (hrun : (c.chunks.headD []).head? = some r) (hcred : credKind (s.handle x c.h).tag = some (n, fl, sg))
    (htr : translate s (s.ctxPart x) (r.va + c.el * n) .atomic (ctxRegion x) (s.part (s.ctxPart x)).fp (c.asker x) = (.ok pa, v))
    (hact : engineAct v cl (s.ctxPart x) (ctxRegion x) (r.va + c.el * n) n (credNew c.op n fl sg (tread c.src (r.off + c.el * n) n)) 0 (c.asker x) =
      (some (.value old tag st), u)) :
    s.serveElement cl e x q = if (c.el + 1) * n < r.len then
      ((u.credited x n c).setHead x q fun c => { c with el := c.el + 1 }).askElement x q { c with el := c.el + 1 } n
    else (u.credited x n c).chunkDone x q 0 := by
  simp only [State.serveElement, hhead, hrun, hcred, htr, hact]
  rfl

/-! A chunk on its way (R177). -/

/-- Chunk id has arrived. -/
def State.landed (s : State) (id : Nat) : State := { s with flying := tput none id none s.flying }

theorem State.landed_gone (s : State) (id : Nat) : tget none (s.landed id).flying id = none := by
  rw [State.landed, tget_tput_same]

/-- Chunk h is held. -/
def State.keepChunk (s : State) (h : Held) : State := { s with held := s.held ++ [h] }

section
variable {id : Nat} {f : Flying} (hfly : tget none s.flying id = some f) (hgoes : (s.headCopy f.ctx f.q).any (fun c => c.cancelled) = false)
include hfly hgoes

/-- Its slice has room for it. -/
theorem exec_chunkHold_stores (hroom : (s.slice f.h.slice).held + f.h.size ≤ 524288) : exec (.chunkHold id) s = .next
    ((((s.landed id).modSlice f.h.slice fun l => { l with held := l.held + f.h.size }).keepChunk f.h).chunkDone f.ctx f.q f.bytes) := by
  change execChunkHold id s = _
  simp only [execChunkHold, hfly, hgoes, hroom, Bool.false_eq_true, if_false, if_true]
  rfl

variable (hfull : 524288 < (s.slice f.h.slice).held + f.h.size)
include hfull

/-- Neither its slice nor a frame has room. -/
theorem exec_chunkHold_waits (hnone : s.overflowRoom (s.ctxPart f.ctx) f.h.slice f.h.size = none) :
    exec (.chunkHold id) s = .next (s.later (.chunkHold id)) := by
  change execChunkHold id s = _
  simp only [execChunkHold, hfly, hgoes, Nat.not_le.mpr hfull, hnone, Bool.false_eq_true, if_false]

/-- A frame takes it. -/
theorem exec_chunkHold_overflows {a : Nat × Nat} (hsome : s.overflowRoom (s.ctxPart f.ctx) f.h.slice f.h.size = some (a, u)) :
    exec (.chunkHold id) s = .next ((((u.landed id).rimTouch (s.ctxPart f.ctx) (some f.h.region) true (a.1 + a.2) f.h.size).keepChunk
      { f.h with frame := some a }).chunkDone f.ctx f.q f.bytes) := by
  change execChunkHold id s = _
  simp only [execChunkHold, hfly, hgoes, Nat.not_le.mpr hfull, hsome, Bool.false_eq_true, if_false]
  rfl

end

theorem SameMemory.trans (h : SameMemory s t) (k : SameMemory t u) : SameMemory s u := by
  obtain ⟨hrim, htags, hhost⟩ := h
  obtain ⟨krim, ktags, khost⟩ := k
  exact ⟨krim.trans hrim, ktags.trans htags, khost.trans hhost⟩

/-- Cores, memory and the chunks held and on their way are the same. -/
structure ChunkSide (s t : State) : Prop where
  cores : t.cores = s.cores
  mem : SameMemory s t
  held : t.held = s.held
  flying : t.flying = s.flying

theorem CtxTiles.chunkSide (h : CtxTiles s t) : ChunkSide s t := by
  obtain ⟨_, _, rfl⟩ := h
  exact ⟨rfl, ⟨rfl, rfl, rfl⟩, rfl, rfl⟩

theorem ChunkSide.rimTouch (s : State) (p : Nat) (reg : Option Nat) (write : Bool) (pa n : Nat) : ChunkSide s (s.rimTouch p reg write pa n) := by
  obtain ⟨_, _, htouch⟩ := s.rimTouch_queues p reg write pa n
  rw [htouch]
  exact ⟨rfl, ⟨rfl, rfl, rfl⟩, rfl, rfl⟩

/-- A frame's room is the slice's, or the pool's next frame. -/
theorem ChunkSide.overflowRoom {p sl n : Nat} {a : Nat × Nat} (h : s.overflowRoom p sl n = some (a, u)) : ChunkSide s u := by
  unfold State.overflowRoom at h
  split at h
  · cases h; exact ⟨rfl, ⟨rfl, rfl, rfl⟩, rfl, rfl⟩
  split at h <;> cases h
  exact ⟨rfl, ⟨rfl, rfl, rfl⟩, rfl, rfl⟩

/-! The flip (R195). -/

/-- The staging records of pages, each with its slice, are taken by publication id. -/
def State.takePages (s : State) (id region : Nat) (pages : List (Nat × Nat)) : State :=
  pages.foldl (fun s e => s.modSlice e.1 fun l => { l with staging := l.staging.map fun g =>
    if g.1 == e.2 then (g.1, g.2.map fun t => { t with taken := some id, region := region }) else g }) s

/-- Each slice's share of a flip: its pages. -/
def flipShares (pages : List (Nat × Nat)) : Tbl (Option Share) :=
  pages.foldl (fun t e => tput none e.1 (some { (tget none t e.1).getD { st := .sent, writes := [], pages := [] } with
    pages := ((tget none t e.1).getD { st := .sent, writes := [], pages := [] }).pages ++ [e.2] }) t) []

/-- The publication of a flip of context x's command c, under the stamp that its core takes now. -/
def State.flipPub (s : State) (x q : Nat) (c : CopyCmd) : Pub :=
  { part := s.ctxPart x, region := ctxRegion x, core := coreKey x c.compute, stamp := mkStamp s.tick (s.originOf (coreKey x c.compute))
    shares := flipShares (s.stagedPages (s.ctxPart x) c.lo c.hi), ckpt := none, after := .flip x q, lastPage := (c.hi - 1) / 65536 }

/-- The state of a flip with its stamp and its pages taken, its notices not yet sent. -/
def State.flipTaken (s : State) (x q : Nat) (c : CopyCmd) : State :=
  ((s.takeStamp (coreKey x c.compute)).2.takePages s.seq (ctxRegion x) (s.stagedPages (s.ctxPart x) c.lo c.hi)).bump.setPub s.seq
    (some (s.flipPub x q c))

theorem State.flipTaken_kept (s : State) (x q : Nat) (c : CopyCmd) : (s.flipTaken x q c).cores = s.cores ∧ SameMemory s (s.flipTaken x q c) ∧
    (s.flipTaken x q c).ctxs = s.ctxs ∧ (s.flipTaken x q c).pub s.seq = some (s.flipPub x q c) := by
  obtain ⟨tiles, hstamp, -⟩ := s.takeStamp_kept (coreKey x c.compute)
  obtain ⟨slices, htaken⟩ : ∃ slices, State.takePages { s with tiles := tiles } s.seq (ctxRegion x) (s.stagedPages (s.ctxPart x) c.lo c.hi) =
    { s with tiles := tiles, slices := slices } := foldl_modSlice (fun e : Nat × Nat => e.1) _ _ _
  rw [State.flipTaken, hstamp, htaken]
  exact ⟨rfl, ⟨rfl, rfl, rfl⟩, rfl, State.pub_setPub _ _ _⟩

section
variable (hhead : s.headCopy x q = some c) (hkind : c.kind = .cpub) (hstarted : c.started = true) (hpub : c.pub = none)
include hhead hkind hstarted hpub

/-- A range with nothing staged is done. -/
theorem exec_cpubFlipStart_empty (hnone : s.stagedPages (s.ctxPart x) c.lo c.hi = []) :
    exec (.cpubFlipStart x q) s = .next (s.completeCopy x q) := by
  change execCpubFlipStart x q s = _
  simp only [execCpubFlipStart, hhead, hkind, hstarted, hpub, hnone]
  rfl

/-- The flip takes its stamp, its pages are taken, and its notices leave. -/
theorem exec_cpubFlipStart_stamps (hsome : s.stagedPages (s.ctxPart x) c.lo c.hi ≠ []) (hmay : s.mayStamp (coreKey x c.compute) = true) :
    exec (.cpubFlipStart x q) s =
      .next (((s.flipTaken x q c).setHead x q fun c => { c with pub := some s.seq }).sendNotices s.seq true) := by
  change execCpubFlipStart x q s = _
  have hpages : (s.stagedPages (s.ctxPart x) c.lo c.hi).isEmpty = false := by simpa using hsome
  simp only [execCpubFlipStart, hhead, hkind, hstarted, hpub, hpages, hmay, bne_self_eq_false, Bool.not_true, Option.isSome_none, Bool.or_self,
    Bool.false_eq_true, if_false]
  rfl

end

end

end Sys2Proof.Machine

namespace Sys2Proof.Proofs

open Sys2Proof Sys2Proof.Machine

/-- Settles O46: a turn's chunk is read (`MemSide.readRuns`) and stored (`State.storeRuns_kept`) before its end (`State.chunkDone_next`); an element
acts (`State.serveElement_acts`); a chunk on its way lands (`exec_chunkHold_stores`, `exec_chunkHold_overflows`); a flip takes its stamp
(`exec_cpubFlipStart_stamps`). A reduction's elements are single atomics (log entry 75). -/
theorem copyEnginesMoveChunks : Obligations.CopyEnginesMoveChunks := by
  unfold Obligations.CopyEnginesMoveChunks
  refine ⟨?accept, ?moves, ?turn, ?element, ?lands, ?flip⟩
  case accept =>
    intro s k c hstall
    obtain ⟨haccepts, hwaits⟩ := exec_copyAccept hstall
    refine ⟨fun u hu => ⟨_, haccepts u hu, ?_, ?_, rfl, ⟨rfl, rfl, rfl⟩, fun j hj => State.modCore_core_other u k _ j hj.symm⟩, hwaits⟩
    · rw [State.modCore_core_same]; rfl
    · rw [State.modCore_core_same]; rfl
  case moves =>
    intro s u site x j c rs b bs l heven hpick hgrant hroom hhead hstarted hkind hchunks hbar hgoes hread
    have hside : MemSide (s.turned site j) u := by
      have h := MemSide.readRuns (s.ctxPart x) (ctxRegion x) c.readStamp (c.asker x) rs (s.turned site j)
      rwa [State.turned, hread] at h
    obtain ⟨⟨cs, hrest⟩, hqueue, hhandle⟩ := State.storeRuns_kept x c.h l u
    have hturn := s.copyTurn_movesIn hhead hstarted hkind (by rw [hchunks]; rfl) (by rw [hchunks]; rfl) hread
    generalize l.foldl _ u = w at hrest hqueue hhandle hturn
    have hctx : u.ctx x = s.ctx x := by rw [State.ctx, hside.ctxs]; rfl
    have hhead' : w.headCopy x (j % 4) = some c := by
      change (w.queueAt x (j % 4)).cmds.head? = _
      rw [hqueue, State.queueAt, hctx]
      exact hhead
    rw [State.chunkDone_next hhead' hbar hgoes (by rw [hchunks]; rfl)] at hturn
    refine ⟨_, (exec_copyChunk_serves heven hpick hgrant hroom).trans (congrArg _ hturn), ?_, ?_, ?_, ?_⟩
    · rw [hrest]; rfl
    · rw [hrest]; exact ⟨rfl, rfl, rfl⟩
    · rw [State.setHead_headCopy, hhead', Option.map_some, CopyCmd.nextChunk, hchunks]; rfl
    · have hkept : (w.setHead x (j % 4) CopyCmd.nextChunk).handle x c.h = w.handle x c.h := by
        rw [State.handle, State.setHead, State.modQueue, State.modCtx_ctx_same]; rfl
      rw [hkept, hhandle, State.handle, hctx]
      rfl
  case turn =>
    intro s site
    change (_ → execCopyChunk site s = _) ∧ (_ → _ → _ → execCopyChunk site s = _) ∧ ∀ x j, _ → _ → _ → _ → execCopyChunk site s = _
    refine ⟨fun hidle => ?_, fun heven hnone hgrant => ?_, fun x j heven hpick hgrant hroom => ?_⟩
    · obtain hodd | ⟨hnone, hgrant⟩ := hidle
      · simp only [execCopyChunk, hodd, if_true]
      · simp only [execCopyChunk, hnone, hgrant, Bool.false_eq_true, if_false, ite_self]
    · simp only [execCopyChunk, heven, hnone, hgrant, Bool.false_eq_true, if_false, if_true]
    · simp only [execCopyChunk, heven, hpick, hgrant, hroom, Bool.false_eq_true, if_false]
  case element =>
    intro s v u cl x q n pa old fl sg tag st e c r hengine hcxl hcopy htick hhead hrun hcred va htr hact w
    have hserves : (s.engineTook cl e).serveRequest cl e = (s.engineTook cl e).serveElement cl e x q := by
      rw [State.serveRequest, hcxl, hcopy]
    rw [exec_atomicEngineRequest_one hengine htick, hserves, State.serveElement_acts (s := s.engineTook cl e) hhead hrun hcred htr hact]
    exact ⟨fun hmore => by rw [if_pos hmore]; rfl, fun hlast => by rw [if_neg (Nat.not_lt.mpr hlast)]; rfl⟩
  case lands =>
    intro s id f hfly hgoes
    refine ⟨fun hroom => ?_, fun hfull => ⟨exec_chunkHold_waits hfly hgoes hfull, fun a u hframe => ?_⟩⟩
    · have hdone := CtxTiles.chunkDone (((s.landed id).modSlice f.h.slice fun l => { l with held := l.held + f.h.size }).keepChunk f.h)
        f.ctx f.q f.bytes
      obtain ⟨hcores, hmem, hheld, hflying⟩ := hdone.chunkSide
      refine ⟨_, ⟨exec_chunkHold_stores hfly hgoes hroom, hcores, hmem⟩, hheld, ?_, ?_⟩
      · rw [hflying]; exact s.landed_gone id
      · rw [hdone.slice]
        exact congrArg Slice.held ((s.landed id).modSlice_slice_same f.h.slice fun l => { l with held := l.held + f.h.size })
    · have hroom := ChunkSide.overflowRoom hframe
      have htouch := ChunkSide.rimTouch (u.landed id) (s.ctxPart f.ctx) (some f.h.region) true (a.1 + a.2) f.h.size
      have hexec := exec_chunkHold_overflows hfly hgoes hfull hframe
      generalize (u.landed id).rimTouch _ _ _ _ _ = v at htouch hexec
      obtain ⟨hcores, hmem, hheld, hflying⟩ := ((CtxTiles.chunkDone (v.keepChunk { f.h with frame := some a }) f.ctx f.q f.bytes).chunkSide)
      refine ⟨_, ⟨hexec, hcores.trans (htouch.cores.trans hroom.cores), ?_⟩, hheld.trans ?_, ?_⟩
      · exact .trans (.trans hroom.mem (u := v) htouch.mem) hmem
      · exact congrArg (· ++ _) (htouch.held.trans hroom.held)
      · rw [hflying]
        exact htouch.flying ▸ u.landed_gone id
  case flip =>
    intro s x q c hhead hkind hstarted hpub
    refine ⟨exec_cpubFlipStart_empty hhead hkind hstarted hpub, fun hsome hmay => ?_⟩
    have hexec := exec_cpubFlipStart_stamps hhead hkind hstarted hpub hsome hmay
    obtain ⟨hcores, hmem, hctxs, hpubs⟩ := s.flipTaken_kept x q c
    generalize s.flipTaken x q c = u at hexec hcores hmem hctxs hpubs
    rw [State.sendNotices_some (s := u.setHead x q fun c => { c with pub := some s.seq }) (p := s.flipPub x q c) hpubs] at hexec
    have hhead' : u.headCopy x q = some c := by
      rw [State.headCopy, State.ctx, hctxs]
      exact hhead
    refine ⟨_, ⟨hexec, hcores, hmem⟩, ?_, ?_⟩
    · exact (u.setHead_headCopy x q _).trans (by rw [hhead']; rfl)
    · exact congrArg _ hpubs

end Sys2Proof.Proofs

/-! PROOFS. The partition manager (O54): writes that are refused, those that take effect at once, those that ask for a drain receipt, a
configuration, which changes what its partition names and no core and no memory, and a root region's start. -/

namespace Sys2Proof.Machine

open Sys2Proof

section
variable {s t u : State} {p cl v : Nat}

/-! What waits for a drain receipt (R395, R400). -/

/-- A drain that is asked for stands under the next number, and its receipt is the agenda's last event. -/
theorem State.askDrain_asks (s : State) (d : DrainFor) : (s.askDrain d).cores = s.cores ∧ SameMemory s (s.askDrain d) ∧
    tget none (s.askDrain d).drains s.seq = some d ∧ (s.askDrain d).agenda = s.agenda ++ [.event (.drainReceipt s.seq)] :=
  ⟨rfl, ⟨rfl, rfl, rfl⟩, tget_tput_same none (some d) s.seq s.drains, rfl⟩

section
variable (hfailed : s.failed = false) (henabled : (s.part p).enabled = true) (hstopped : s.allStopped p = true)
include hfailed henabled hstopped

theorem exec_addCluster (hcl : cl < 121) (hfree : s.clusterTaken 121 cl = false) (hready : (s.cluster cl).ready = 1) :
    exec (.addCluster p cl) s = .next (s.askDrain (.cluMove p cl true)) :=
  congrArg Host.Outcome.next (if_neg (by simp [hfailed, henabled, hstopped, hfree, hready, hcl]))

omit hfailed henabled hstopped in
theorem exec_addCluster_refused (htaken : s.clusterTaken 121 cl = true) : exec (.addCluster p cl) s = .next (s.emit (.pfRefused p)) :=
  congrArg Host.Outcome.next (if_pos (by simp [htaken]))

theorem exec_removeCluster (hmem : cl ∈ (s.part p).clusters) (htwo : 2 ≤ (s.part p).clusters.length) :
    ∃ regions, exec (.removeCluster p cl) s = .next (State.askDrain { s with regions := regions } (.cluMove p cl false)) :=
  ⟨_, congrArg Host.Outcome.next (if_neg (by simp [hfailed, henabled, hstopped, hmem, Nat.lt_of_succ_le htwo]))⟩

omit hfailed henabled hstopped in
theorem exec_removeCluster_refused (hmem : cl ∉ (s.part p).clusters) : exec (.removeCluster p cl) s = .next (s.emit (.pfRefused p)) :=
  congrArg Host.Outcome.next (if_pos (by simp [hmem]))

end

theorem exec_disablePartition (henabled : (s.part p).enabled = true) : exec (.disablePartition p) s =
    .next (if s.allEnded p then s.askDrain (.disable p) else s.emit (.pfRefused p)) := by
  refine congrArg Host.Outcome.next ?_
  cases hended : s.allEnded p <;> simp [henabled]

/-! Frames of the pools (R194, R363). -/

/-- Frames may join a pool of a partition. -/
def State.framesOk (s : State) (p : Nat) (fs : List Nat) : Bool := !s.failed && fs.all fun f => frameOk (s.part p) f

theorem exec_addSwapFrames (fs : List Nat) (henabled : (s.part p).enabled = true) : exec (.addSwapFrames p fs) s =
    .next (if s.framesOk p fs then s.modPart p fun q => { q with swap := q.swap ++ fs } else s.emit (.pfRefused p)) := by
  change execAddSwapFrames p fs s = _
  cases hfailed : s.failed <;> cases hall : fs.all fun f => frameOk (s.part p) f <;>
    simp [execAddSwapFrames, State.framesOk, henabled, hfailed, hall]

theorem exec_addShadowFrames (fs : List Nat) (henabled : (s.part p).enabled = true) : exec (.addShadowFrames p fs) s =
    .next (if s.framesOk p fs then s.modPart p fun q => { q with shadow := q.shadow ++ fs } else s.emit (.pfRefused p)) := by
  change execAddShadowFrames p fs s = _
  cases hfailed : s.failed <;> cases hall : fs.all fun f => frameOk (s.part p) f <;>
    simp [execAddShadowFrames, State.framesOk, henabled, hfailed, hall]

/-! Bindings (R401, R402). -/

theorem exec_bindVf {port root : Nat} (hlive : s.boundLive v = false) (hfailed : s.failed = false) (hv : v < 1024) (hport : port < 4) (hp : p ≤ 120)
    (hroot : s.regionAt p root = none) :
    exec (.bindVf v port p root) s = .next (s.modVf v fun f => { f with port := port, part := p, root := root, en := true }) :=
  congrArg Host.Outcome.next (if_neg (by simp [hfailed, hlive, hroot, hv, hport, hp]))

theorem exec_bindVf_refused {port root : Nat} (h : s.failed = true ∨ (s.regionAt p root).isSome = true ∨ s.boundLive v = true) :
    exec (.bindVf v port p root) s = .next (s.emit (.pfRefused v)) :=
  congrArg Host.Outcome.next (if_pos (by rcases h with h | h | h <;> simp [h]))

theorem exec_unbindVf (hlive : s.boundLive v = false) (hen : (s.vf v).en = true) :
    exec (.unbindVf v) s = .next (s.modVf v fun f => { f with en := false }) :=
  congrArg Host.Outcome.next (if_neg (by simp [hlive, hen]))

theorem exec_unbindVf_refused (hlive : s.boundLive v = true) : exec (.unbindVf v) s = .next (s.emit (.pfRefused v)) :=
  congrArg Host.Outcome.next (if_pos (by simp [hlive]))

theorem exec_writeVfEnergy (x : W64) (hv : v < 1024) (hen : (s.vf v).en = false) :
    exec (.writeVfEnergy v x) s = .next (s.modVf v fun f => { f with energy := x.toNat }) :=
  congrArg Host.Outcome.next (if_neg (by simp [hen, hv]))

theorem exec_writeVfEnergy_refused (x : W64) (hen : (s.vf v).en = true) : exec (.writeVfEnergy v x) s = .next (s.emit (.pfRefused v)) :=
  congrArg Host.Outcome.next (if_pos (by simp [hen]))

/-! Registers (R6, R329). -/

theorem exec_registerWrite_slice {site slot : Nat} {x : W64} (hfailed : s.failed = false) (hsite : site < 15488) (hslot : slot < 4)
    (hpos : 0 < x.toNat) (hlt : x.toNat < 2 ^ 32) : exec (.registerWrite (.slice site slot) x) s =
      .next (s.modTile site fun t => { t with slice := tput 0 slot x.toNat t.slice }) := by
  have hne : x ≠ 0#64 := by rintro rfl; exact absurd hpos (by decide)
  change execRegisterWrite (.slice site slot) x s = _
  simp only [execRegisterWrite, hfailed, Bool.false_eq_true, if_false]
  exact congrArg Host.Outcome.next (if_neg (by simpa [hne, hsite, hslot] using hlt))

/-- A slice that is not 0 stands in the tile's table, whose unlisted slots read as another value. -/
theorem Tile.sliceOf_set (t : Tile) {slot n : Nat} (hpos : 0 < n) : ({ t with slice := tput 0 slot n t.slice } : Tile).sliceOf slot = n := by
  simp only [Tile.sliceOf, tput, Nat.ne_of_gt hpos, if_false, tget_tins_same]

theorem exec_registerWrite_slice_zero {site slot : Nat} (hfailed : s.failed = false) :
    exec (.registerWrite (.slice site slot) 0#64) s = .next (s.emit (.pfRefused site)) := by
  change execRegisterWrite (.slice site slot) 0#64 s = _
  simp [execRegisterWrite, hfailed]

/-! Monitor stores (R412, R437). -/

/-- Bytes written as a number, lowest first, read back one by one. -/
theorem tget_twrite_leNat (bs : List Byte) : ∀ (t : Tbl Byte) (a i : Nat), i < bs.length →
    tget 0#8 (twrite t a bs.length (leNat bs)) (a + i) = bs.getD i 0#8 := by
  induction bs with
  | nil => exact fun _ _ i hi => absurd hi (Nat.not_lt_zero i)
  | cons b bs ih =>
    intro t a i hi
    rw [List.length_cons, twrite, leNat, Nat.add_mul_div_left _ _ (by decide), Nat.div_eq_of_lt b.isLt, Nat.zero_add]
    cases i with
    | zero =>
      refine (tget_twrite_before _ _ _ a _ (Nat.lt_succ_self a)).trans ((tget_tput_same ..).trans (BitVec.eq_of_toNat_eq ?_))
      rw [BitVec.toNat_ofNat, Nat.add_mul_mod_self_left, Nat.mod_eq_of_lt b.isLt, List.getD_cons_zero]
    | succ i =>
      rw [show a + (i + 1) = a + 1 + i by omega, ih _ _ _ (Nat.lt_of_succ_lt_succ hi), List.getD_cons_succ]

/-- The bytes of a store of n bytes that is loaded with fewer: zeros follow. -/
theorem getD_padded (bytes : List Byte) (n i : Nat) : (bytes ++ List.replicate n 0#8).getD i 0#8 = bytes.getD i 0#8 := by
  rcases Nat.lt_or_ge i bytes.length with hlt | hge
  · exact List.getD_append _ _ _ _ hlt
  · rw [List.getD_append_right _ _ _ _ hge, List.getD_eq_default bytes _ hge, List.getD_eq_getElem?_getD, List.getElem?_replicate]
    split <;> rfl

/-- A loaded tile: its store holds the image, its monitors' registers null data. -/
def Tile.withStore (image : List Byte) (t : Tile) : Tile :=
  { t with store := twrite [] 0 65536 (leNat image), loaded := true, storeHash := hashNat image
           stage := { t.stage with c := [] }, compute := { t.compute with c := [] } }

theorem exec_monitorStoreLoad {site : Nat} {bytes : List Byte} (hsite : site < 15488) (hlen : bytes.length ≤ 65536) :
    exec (.monitorStoreLoad site bytes) s =
      .next (s.modTile site (Tile.withStore (bytes ++ List.replicate (65536 - bytes.length) 0#8))) :=
  congrArg Host.Outcome.next (if_neg (by simp [hsite, hlen]))

/-- A store of n bytes, loaded with fewer, reads as they are, and 0 behind them. -/
theorem tget_twrite_padded {bytes : List Byte} {n i : Nat} (hlen : bytes.length ≤ n) (hi : i < n) :
    tget 0#8 (twrite [] 0 n (leNat (bytes ++ List.replicate (n - bytes.length) 0#8))) i = bytes.getD i 0#8 := by
  have himage : (bytes ++ List.replicate (n - bytes.length) 0#8).length = n := by
    rw [List.length_append, List.length_replicate, Nat.add_sub_cancel' hlen]
  have hbyte := tget_twrite_leNat (bytes ++ List.replicate (n - bytes.length) 0#8) [] 0 i (himage.symm ▸ hi)
  rwa [himage, Nat.zero_add, getD_padded] at hbyte

theorem Tile.withStore_store (image : List Byte) (t : Tile) : (t.withStore image).store = twrite [] 0 65536 (leNat image) := by
  rw [Tile.withStore]

theorem Tile.withStore_byte {bytes : List Byte} (hlen : bytes.length ≤ 65536) (t : Tile) {i : Nat} (hi : i < 65536) :
    tget 0#8 (t.withStore (bytes ++ List.replicate (65536 - bytes.length) 0#8)).store i = bytes.getD i 0#8 := by
  rw [Tile.withStore_store, tget_twrite_padded hlen hi]

/-! Meters (R407, R408). -/

theorem State.nextRecord_part (s : State) (p : Nat) : ((s.nextRecord p).part p).seq = (s.part p).seq + 1 ∧
    ((s.nextRecord p).part p).records.getLast? = some (s.meterRecord p ((s.part p).seq + 1)) ∧
    ((s.nextRecord p).part p).chain = hashNat (leBytes 48 (s.part p).chain ++ s.meterRecord p ((s.part p).seq + 1)) := by
  rw [State.nextRecord, State.modPart_part_same]
  refine ⟨rfl, ?_, rfl⟩
  rw [List.getLast?_drop, if_neg (by rw [List.length_append, List.length_singleton]; omega), List.getLast?_append, List.getLast?_singleton]
  rfl

/-! Energy (R415). -/

/-- Partition p's next period has begun. -/
def State.periodBegun (s : State) (p : Nat) : State := s.modPart p fun q => { q with enFrom := q.enFrom + q.enperiod }

theorem exec_energyPeriodEnd (used : List Nat) : exec (.energyPeriodEnd p used) s = .next (if (s.part p).periodDue s.tick then
    ((s.part p).clusters.zip used).foldl (fun s e => s.splitEnergy p e.1 e.2) (s.periodBegun p) else s) := by
  change execEnergyPeriodEnd p used s = _
  cases hdue : (s.part p).periodDue s.tick <;> simp [execEnergyPeriodEnd, hdue, State.periodBegun]

/-- The period of a partition of one cluster: what its rail used is split there. -/
theorem exec_energyPeriodEnd_due {e : Nat} (hcl : (s.part p).clusters = [cl]) (hdue : (s.part p).periodDue s.tick = true) :
    exec (.energyPeriodEnd p [e]) s = .next ((s.periodBegun p).splitEnergy p cl e) := by
  rw [exec_energyPeriodEnd, hdue, hcl]
  rfl

/-- Before its period is over, a partition's energy stands. -/
theorem exec_energyPeriodEnd_early (used : List Nat) (hnot : (s.part p).periodDue s.tick = false) :
    exec (.energyPeriodEnd p used) s = .next s := by
  rw [exec_energyPeriodEnd, hnot]
  rfl

/-- The whole energy of a cluster that one region's core cycles alone are counted for. -/
theorem energyShare_whole (e n : Nat) (hn : 0 < n) : energyShare e n n = e := by
  simp [energyShare, Nat.mul_div_cancel e hn]

/-- A cluster without core cycles and without residents was idle. -/
theorem State.splitEnergy_idle {e : Nat} (hcycles : (s.cluster cl).cycles = []) (hnone : (s.residents fun i => clusterOf i == cl) = []) :
    s.splitEnergy p cl e = (s.modPart p fun q => { q with idleEnergy := q.idleEnergy + e }).modCluster cl fun c => { c with cycles := [] } := by
  simp only [State.splitEnergy, hcycles, hnone]
  rfl

/-- One region's core cycles: its VF used it all. -/
theorem State.splitEnergy_one {e r n : Nat} (hcycles : (s.cluster cl).cycles = [(r, n)]) (hn : 0 < n) (hvf : s.vfOf r = some v) :
    s.splitEnergy p cl e = (s.modVf v fun f => { f with energy := f.energy + e }).modCluster cl fun c => { c with cycles := [] } := by
  have hof : s.vfCycles cl = [(v, n)] := by
    simp [State.vfCycles, hcycles, hvf, tput, Nat.ne_of_gt hn, tins]
  have hall : (((s.cluster cl).cycles.map (·.2)).sum) = n := by simp [hcycles]
  simp only [State.splitEnergy, hof, hall]
  rw [hcycles]
  simp [energyShare_whole e n hn]

/-- The split of an idle cluster's energy changes neither cores nor memory. -/
theorem State.splitEnergy_idle_aside {e : Nat} (hcycles : (s.cluster cl).cycles = [])
    (hnone : (s.residents fun i => clusterOf i == cl) = []) :
    (s.splitEnergy p cl e).cores = s.cores ∧ SameMemory s (s.splitEnergy p cl e) := by
  rw [State.splitEnergy_idle hcycles hnone]
  exact ⟨rfl, rfl, rfl, rfl⟩

/-- The split of one region's energy changes neither cores nor memory. -/
theorem State.splitEnergy_one_aside {e r n : Nat} (hcycles : (s.cluster cl).cycles = [(r, n)]) (hn : 0 < n) (hvf : s.vfOf r = some v) :
    (s.splitEnergy p cl e).cores = s.cores ∧ SameMemory s (s.splitEnergy p cl e) := by
  rw [State.splitEnergy_one hcycles hn hvf]
  exact ⟨rfl, rfl, rfl, rfl⟩

/-! A configuration (R398, R400). -/

/-- Cores, memory, regions and contexts are the same, and so are partition p's clusters and channels. -/
structure Rearranges (p : Nat) (s t : State) : Prop where
  cores : t.cores = s.cores
  mem : SameMemory s t
  regions : t.regions = s.regions
  ctxs : t.ctxs = s.ctxs
  clusters : (t.part p).clusters = (s.part p).clusters
  pclist : (t.part p).pclist = (s.part p).pclist

theorem Rearranges.refl (p : Nat) (s : State) : Rearranges p s s := ⟨rfl, ⟨rfl, rfl, rfl⟩, rfl, rfl, rfl, rfl⟩

theorem Rearranges.trans (h : Rearranges p s t) (k : Rearranges p t u) : Rearranges p s u where
  cores := k.cores.trans h.cores
  mem := h.mem.trans k.mem
  regions := k.regions.trans h.regions
  ctxs := k.ctxs.trans h.ctxs
  clusters := k.clusters.trans h.clusters
  pclist := k.pclist.trans h.pclist

theorem Rearranges.foldl {α : Type} {f : State → α → State} (hf : ∀ v a, Rearranges p v (f v a)) (l : List α) (s : State) :
    Rearranges p s (l.foldl f s) := List.foldlRecOn l f (.refl p s) fun v hv a _ => hv.trans (hf v a)

theorem Rearranges.modSlice (p : Nat) (s : State) (i : Nat) (f : Slice → Slice) : Rearranges p s (s.modSlice i f) :=
  ⟨rfl, ⟨rfl, rfl, rfl⟩, rfl, rfl, rfl, rfl⟩

theorem Rearranges.modPart {f : Partition → Partition} (hclusters : ∀ q, (f q).clusters = q.clusters) (hpclist : ∀ q, (f q).pclist = q.pclist)
    (i : Nat) (s : State) : Rearranges p s (s.modPart i f) := by
  refine ⟨rfl, ⟨rfl, rfl, rfl⟩, rfl, rfl, ?_, ?_⟩ <;> rw [State.modPart_part] <;> split
  · subst ‹i = p›; exact hclusters _
  · rfl
  · subst ‹i = p›; exact hpclist _
  · rfl

theorem Rearranges.modCluster (p : Nat) (s : State) (i : Nat) (f : Cluster → Cluster) : Rearranges p s (s.modCluster i f) :=
  ⟨rfl, ⟨rfl, rfl, rfl⟩, rfl, rfl, rfl, rfl⟩

theorem Rearranges.freeLicences (p : Nat) (s : State) (cl : Nat) : Rearranges p s (s.freeLicences cl) := ⟨rfl, ⟨rfl, rfl, rfl⟩, rfl, rfl, rfl, rfl⟩

theorem Rearranges.withHeld (p : Nat) (s : State) (hs : List Held) : Rearranges p s { s with held := hs } :=
  ⟨rfl, ⟨rfl, rfl, rfl⟩, rfl, rfl, rfl, rfl⟩

theorem Rearranges.clearCluster (p : Nat) (s : State) (cl : Nat) : Rearranges p s (s.clearCluster cl) := by
  unfold State.clearCluster
  exact (Rearranges.foldl (fun v i => .modSlice p v (4 * cl + i) _) (List.range 4) s).trans (.modCluster ..)

theorem Rearranges.passCluster (p : Nat) (s : State) (cl : Nat) (o : Option Nat) : Rearranges p s (s.passCluster cl o) := by
  unfold State.passCluster
  exact ((Rearranges.clearCluster p s cl).trans (.freeLicences ..)).trans (.modCluster ..)

theorem Rearranges.overflowRoom {q sl n : Nat} {a : Nat × Nat} (h : s.overflowRoom q sl n = some (a, u)) : Rearranges p s u := by
  unfold State.overflowRoom at h
  split at h
  · cases h; exact .refl p s
  split at h
  next fr rest _ =>
    cases h
    exact (Rearranges.modPart (f := fun r => { r with swap := rest }) (fun _ => rfl) (fun _ => rfl) q s).trans (.modSlice ..)
  next => cases h

theorem Rearranges.rehold (q : Nat) (s : State) (h : Held) : Rearranges p s (s.rehold q h) := by
  unfold State.rehold
  dsimp only
  have hown : Rearranges p s { s.modSlice (s.homeOf q h.firstVa) fun l => { l with held := l.held + h.size } with
      held := s.held ++ [{ h with slice := s.homeOf q h.firstVa, frame := none }] } := (Rearranges.modSlice ..).trans (.withHeld ..)
  split
  · exact hown
  split
  next hroom => exact (Rearranges.overflowRoom hroom).trans (.withHeld ..)
  next => exact hown

/-! Slices that keep neither staged pages nor frames. -/

def Slice.Bare (l : Slice) : Prop := l.staging = [] ∧ l.frames = []

def State.BareSlices (s : State) : Prop := ∀ sl, (s.slice sl).Bare

theorem State.BareSlices.modSlice (h : s.BareSlices) (i : Nat) {f : Slice → Slice} (hf : ∀ l : Slice, l.Bare → (f l).Bare) :
    (s.modSlice i f).BareSlices := fun sl => by
  rw [State.modSlice_slice]
  split
  · exact hf _ (h i)
  · exact h sl

theorem State.BareSlices.foldl {α : Type} {f : State → α → State} (hf : ∀ v a, State.BareSlices v → (f v a).BareSlices) (l : List α)
    (h : s.BareSlices) : (l.foldl f s).BareSlices := List.foldlRecOn l f h fun v hv a _ => hf v a hv

theorem State.BareSlices.of_slices (h : s.BareSlices) (heq : t.slices = s.slices) : t.BareSlices := fun sl => by
  rw [State.slice, heq]
  exact h sl

theorem State.BareSlices.passCluster (h : s.BareSlices) (cl : Nat) (o : Option Nat) : (s.passCluster cl o).BareSlices := by
  have hclear : (s.clearCluster cl).BareSlices := by
    unfold State.clearCluster
    dsimp only
    refine .of_slices (.foldl (fun v i hv => ?_) (List.range 4) h) (State.modCluster_slices ..)
    exact hv.modSlice (4 * cl + i) fun _ hl => hl
  unfold State.passCluster
  exact .of_slices hclear rfl

/-- Where nothing is staged and no frame is in use, a partition's frames in use are those of its regions and contexts. -/
theorem State.framesInUse_eq_nil (hregions : t.regions = s.regions) (hctxs : t.ctxs = s.ctxs) (hbare : t.BareSlices)
    (hnone : s.framesInUse p = []) : t.framesInUse p = [] := by
  have hpart (x : Nat) : t.ctxPart x = s.ctxPart x := by rw [State.ctxPart, State.region, hregions]; rfl
  rw [State.framesInUse, List.append_eq_nil_iff, List.append_eq_nil_iff] at hnone ⊢
  refine ⟨?_, ?_⟩
  · rw [hregions, hctxs]
    simp only [hpart]
    exact hnone.1
  · refine List.flatMap_eq_nil_iff.mpr fun i _ => ?_
    obtain ⟨hstaging, hframes⟩ := hbare i
    rw [hstaging, hframes]
    rfl

/-! The clusters of a partition (R60, R80). -/

/-- The partition's clusters, as far as they are marked as its own. -/
def State.ownClusters (s : State) (p : Nat) : List Nat := (s.part p).clusters.filter fun c => (s.cluster c).part == some p

/-- The slices of clusters. -/
def slicesOf (cls : List Nat) : List Nat := cls.flatMap fun c => [4 * c, 4 * c + 1, 4 * c + 2, 4 * c + 3]

/-- Nothing is left in the slices given. -/
def State.emptySlices (s : State) (is : List Nat) : State := is.foldl (fun s i => s.modSlice i fun l =>
  { l with stb := [], chains := [], hostAtoms := [], staging := [], held := 0, frames := [], full := false }) s

/-- Held chunk h is of a region of partition p. -/
def State.ownsHeld (s : State) (p : Nat) (h : Held) : Bool := (s.region h.region).part == p

/-- Partition p has given up its clusters outside cls and taken those of cls that were not its own; nothing is at a new home yet. -/
def State.movedClusters (s : State) (p : Nat) (cls : List Nat) : State :=
  let s1 := State.emptySlices { s with held := s.held.filter fun h => !s.ownsHeld p h } (slicesOf (s.ownClusters p))
  let s2 := ((s.ownClusters p).filter fun c => !cls.contains c).foldl (fun s c => s.passCluster c none) s1
  let s3 := (cls.filter fun c => !(s.ownClusters p).contains c).foldl (fun s c => s.passCluster c (some p)) s2
  s3.modPart p fun q => { q with clusters := sortOn id cls, swap := q.swap ++ (slicesOf (s.ownClusters p)).flatMap fun i => (s.slice i).frames }

/-- What the slices kept by page goes to its new home. -/
def State.putStaged (s : State) (p : Nat) (staged : Tbl (Option Staging)) : State :=
  staged.foldl (fun s e => s.modSlice (s.homeOf p (e.1 * 65536)) fun l => { l with staging := tput none e.1 e.2 l.staging }) s

theorem State.setClusters_eq (s : State) (p : Nat) (cls : List Nat) : s.setClusters p cls =
    if cls.isEmpty then s.movedClusters p cls
    else (s.held.filter (s.ownsHeld p)).foldl (fun s h => s.rehold p h)
      (((s.movedClusters p cls).putStaged p ((slicesOf (s.ownClusters p)).flatMap fun i => (s.slice i).staging)).rehomePubs p) := rfl

theorem Rearranges.emptySlices (p : Nat) (s : State) (is : List Nat) : Rearranges p s (s.emptySlices is) :=
  Rearranges.foldl (fun v i => .modSlice p v i _) is s

/-- What is the same where clusters have moved, beside the partition's clusters themselves. -/
theorem State.movedClusters_kept (s : State) (p : Nat) (cls : List Nat) :
    (s.movedClusters p cls).cores = s.cores ∧ SameMemory s (s.movedClusters p cls) ∧ (s.movedClusters p cls).regions = s.regions ∧
    (s.movedClusters p cls).ctxs = s.ctxs ∧ ((s.movedClusters p cls).part p).clusters = sortOn id cls := by
  have hmoved := ((((Rearranges.withHeld p s (s.held.filter fun h => !s.ownsHeld p h)).trans (.emptySlices p _ (slicesOf (s.ownClusters p)))).trans
    (.foldl (fun v c => .passCluster p v c none) ((s.ownClusters p).filter fun c => !cls.contains c) _)).trans
    (.foldl (fun v c => .passCluster p v c (some p)) (cls.filter fun c => !(s.ownClusters p).contains c) _))
  unfold State.movedClusters
  dsimp only
  generalize List.foldl _ (List.foldl _ _ _) _ = w at hmoved ⊢
  exact ⟨hmoved.cores, hmoved.mem, hmoved.regions, hmoved.ctxs, by rw [State.modPart_part_same]⟩

theorem State.movedClusters_bare (hbare : s.BareSlices) (p : Nat) (cls : List Nat) : (s.movedClusters p cls).BareSlices := by
  have hempty : (State.emptySlices { s with held := s.held.filter fun h => !s.ownsHeld p h } (slicesOf (s.ownClusters p))).BareSlices :=
    .foldl (fun v i hv => hv.modSlice i fun _ _ => ⟨rfl, rfl⟩) _ (.of_slices hbare rfl)
  have hgiven := State.BareSlices.foldl (fun v c hv => hv.passCluster c none) ((s.ownClusters p).filter fun c => !cls.contains c) hempty
  have htaken := State.BareSlices.foldl (fun v c hv => hv.passCluster c (some p)) (cls.filter fun c => !(s.ownClusters p).contains c) hgiven
  unfold State.movedClusters
  exact .of_slices htaken rfl

theorem State.setClusters_kept (s : State) (p : Nat) (cls : List Nat) :
    (s.setClusters p cls).cores = s.cores ∧ SameMemory s (s.setClusters p cls) ∧ (s.setClusters p cls).regions = s.regions ∧
    (s.setClusters p cls).ctxs = s.ctxs ∧ ((s.setClusters p cls).part p).clusters = sortOn id cls := by
  obtain ⟨hcores, hmem, hregions, hctxs, hclusters⟩ := s.movedClusters_kept p cls
  rw [State.setClusters_eq]
  split
  · exact ⟨hcores, hmem, hregions, hctxs, hclusters⟩
  have hstaged : Rearranges p (s.movedClusters p cls)
      ((s.movedClusters p cls).putStaged p ((slicesOf (s.ownClusters p)).flatMap fun i => (s.slice i).staging)) :=
    .foldl (fun v e => .modSlice p v _ _) _ _
  have hpubs := hstaged.trans (u := State.rehomePubs _ p) ⟨rfl, ⟨rfl, rfl, rfl⟩, rfl, rfl, rfl, rfl⟩
  have hall := hpubs.trans (.foldl (fun v h => .rehold p v h) (s.held.filter (s.ownsHeld p)) _)
  exact ⟨hall.cores.trans hcores, .trans hmem hall.mem, hall.regions.trans hregions, hall.ctxs.trans hctxs, hall.clusters.trans hclusters⟩

/-- Where nothing is staged, held or in an overflow frame, nothing has to find a new home. -/
theorem State.setClusters_bare (hbare : s.BareSlices) (hheld : s.held = []) (p : Nat) (cls : List Nat) : (s.setClusters p cls).BareSlices := by
  have hstaged : ((slicesOf (s.ownClusters p)).flatMap fun i => (s.slice i).staging) = [] :=
    List.flatMap_eq_nil_iff.mpr fun i _ => (hbare i).1
  have hmoved := State.movedClusters_bare hbare p cls
  rw [State.setClusters_eq, hstaged, hheld]
  split
  · exact hmoved
  · exact .of_slices hmoved rfl

/-! The state of a configuration before the partition's own fields are set, and after. -/

/-- Clusters and allocation are the configuration's, the clusters' licences FREE, and what is given up waits for its drain receipt. -/
def State.rearranged (s : State) (p : Nat) (cls : List Nat) (v : W64) (pcs oldCls oldPcs : List Nat) : State :=
  cls.foldl State.freeLicences (((s.setClusters p cls).setRimpart p v pcs).release p oldCls oldPcs)

/-- The partition with its allocation written. -/
def Partition.withRimpart (v : W64) (pcs : List Nat) (q : Partition) : Partition :=
  { q with base := rimBase v, pccount := rimCount v, rimEn := rimOn v, pclist := pcs }

theorem State.setRimpart_chans (s : State) (p : Nat) (v : W64) (pcs : List Nat) :
    ∃ c, s.setRimpart p v pcs = { (s.clearCaches p).modPart p (Partition.withRimpart v pcs) with chans := c } := by
  unfold State.setRimpart
  dsimp only
  split
  · exact List.foldlRecOn (motive := fun w : State => ∃ c, w = { (s.clearCaches p).modPart p (Partition.withRimpart v pcs) with chans := c }) pcs _
      ⟨_, rfl⟩ fun w ⟨c, hw⟩ pc _ => by subst hw; exact ⟨_, rfl⟩
  · exact ⟨_, rfl⟩

theorem State.setRimpart_kept (s : State) (p : Nat) (v : W64) (pcs : List Nat) :
    (s.setRimpart p v pcs).cores = s.cores ∧ SameMemory s (s.setRimpart p v pcs) ∧ (s.setRimpart p v pcs).regions = s.regions ∧
    (s.setRimpart p v pcs).ctxs = s.ctxs ∧ ((s.setRimpart p v pcs).part p).clusters = (s.part p).clusters ∧
    ((s.setRimpart p v pcs).part p).pclist = pcs ∧ (s.BareSlices → (s.setRimpart p v pcs).BareSlices) := by
  have hclear : Rearranges p s (s.clearCaches p) := .foldl (fun v i => .modSlice p v i _) _ s
  have hbare (h : s.BareSlices) : (s.clearCaches p).BareSlices :=
    .foldl (f := fun s i => s.modSlice i fun l => { l with stb := l.stb.filter fun e => !e.dev, chains := [] })
      (fun v i hv => hv.modSlice i fun _ hl => hl) _ h
  obtain ⟨c, hset⟩ := s.setRimpart_chans p v pcs
  rw [hset]
  generalize s.clearCaches p = w at hclear hbare
  have hpart : ({ w.modPart p (Partition.withRimpart v pcs) with chans := c } : State).part p = (w.part p).withRimpart v pcs :=
    w.modPart_part_same p (Partition.withRimpart v pcs)
  rw [hpart]
  exact ⟨hclear.cores, hclear.mem, hclear.regions, hclear.ctxs, hclear.clusters, rfl, fun h => .of_slices (hbare h) rfl⟩

/-- What the configuration's moves leave alone, and what they give the partition. -/
theorem State.rearranged_kept (s : State) (p : Nat) (cls : List Nat) (v : W64) (pcs oldCls oldPcs : List Nat) :
    (s.rearranged p cls v pcs oldCls oldPcs).cores = s.cores ∧ SameMemory s (s.rearranged p cls v pcs oldCls oldPcs) ∧
    ((s.rearranged p cls v pcs oldCls oldPcs).part p).clusters = sortOn id cls ∧ ((s.rearranged p cls v pcs oldCls oldPcs).part p).pclist = pcs ∧
    (s.framesInUse p = [] → s.held = [] → s.BareSlices → (s.rearranged p cls v pcs oldCls oldPcs).framesInUse p = []) := by
  obtain ⟨hcores, hmem, hregions, hctxs, hclusters⟩ := s.setClusters_kept p cls
  obtain ⟨kcores, kmem, kregions, kctxs, kclusters, hpclist, hbare⟩ := (s.setClusters p cls).setRimpart_kept p v pcs
  have hclusters := kclusters.trans hclusters
  have hcores := kcores.trans hcores
  have hmem := SameMemory.trans hmem kmem
  have hregions := kregions.trans hregions
  have hctxs := kctxs.trans hctxs
  have hbare (h : s.BareSlices) (hheld : s.held = []) := hbare (State.setClusters_bare h hheld p cls)
  unfold State.rearranged
  generalize (s.setClusters p cls).setRimpart p v pcs = w at *
  obtain ⟨drains, agenda, seq, hrelease⟩ := w.release_eq p oldCls oldPcs
  obtain ⟨pairs, hfree⟩ : ∃ pairs, cls.foldl State.freeLicences (w.release p oldCls oldPcs) =
      { w with drains := drains, agenda := agenda, seq := seq, pairs := pairs } := by
    rw [hrelease]
    exact List.foldlRecOn (motive := fun u : State => ∃ pairs, u = { w with drains := drains, agenda := agenda, seq := seq, pairs := pairs }) cls _
      ⟨_, rfl⟩ fun u ⟨c, hu⟩ cl _ => by subst hu; exact ⟨_, rfl⟩
  rw [hfree]
  exact ⟨hcores, hmem, hclusters, hpclist, fun hnone hheld h =>
    State.framesInUse_eq_nil hregions hctxs (.of_slices (hbare h hheld) rfl) hnone⟩

/-- The partition's fields as a configuration sets them in state w: pools without the frames in use, meters and counters anew. -/
def State.setFields (w : State) (p : Nat) (key : Byte) (swap shadow : List Nat) (q : Partition) : Partition :=
  { q with
    enabled := true, key := key, swap := swap.filter fun f => !(w.framesInUse p).contains f
    shadow := shadow.filter fun f => !(w.framesInUse p).contains f
    ops := 0, opsFrac := 0, rimocc := 0, hostb := 0, ctr := {}, ctrAt := [], portBase := (List.range 4).map fun i => (w.port i).bytes
    idleEnergy := 0, failed := false, pressure := none }

/-- What follows the moves: the partition's fields, its functions' energy, its tiles' slices, its regions' pools and its chain. -/
def State.configured (w : State) (p : Nat) (cls : List Nat) (key : Byte) (slice : Nat) (swap shadow : List Nat) : State :=
  let u := w.modPart p (w.setFields p key swap shadow)
  ((cls.foldl (fun (s : State) c => s.setSlices slice c) { u with vfs := u.vfs.map fun (e : Nat × Vf) =>
    if e.2.en && e.2.part == p then (e.1, { e.2 with energy := 0 }) else e }).remapAll p).startChain p

theorem exec_configurePartition {cls : List Nat} {key : Byte} {x : W64} {pcs : List Nat} {slice : Nat} {swap shadow : List Nat}
    (hok : s.configOk p cls key x pcs slice swap shadow = true) : ∃ oldCls oldPcs, exec (.configurePartition p cls key x pcs slice swap shadow) s =
      .next ((s.rearranged p cls x pcs oldCls oldPcs).configured p cls key slice swap shadow) :=
  ⟨_, _, congrArg Host.Outcome.next (if_neg (by rw [hok]; decide))⟩

theorem exec_configurePartition_refused {cls : List Nat} {key : Byte} {x : W64} {pcs : List Nat} {slice : Nat} {swap shadow : List Nat}
    (hbad : s.configOk p cls key x pcs slice swap shadow = false) :
    exec (.configurePartition p cls key x pcs slice swap shadow) s = .next (s.emit (.pfRefused p)) :=
  congrArg Host.Outcome.next (if_pos (by rw [hbad]; rfl))

theorem State.setSlices_tiles (s : State) (n cl : Nat) : ∃ ts, s.setSlices n cl = { s with tiles := ts } := by
  unfold State.setSlices
  exact List.foldlRecOn (motive := fun u : State => ∃ ts, u = { s with tiles := ts }) (clusterSites cl) _ ⟨_, rfl⟩
    fun u ⟨ts, hu⟩ i _ => by subst hu; exact ⟨_, rfl⟩

theorem State.startChain_part (s : State) (p : Nat) :
    ∃ chain r, (s.startChain p).part p = { s.part p with seq := 0, chain := chain, records := [r] } :=
  ⟨_, _, s.modPart_part_same p _⟩

theorem State.configured_kept (w : State) (p : Nat) (cls : List Nat) (key : Byte) (slice : Nat) (swap shadow : List Nat) :
    (w.configured p cls key slice swap shadow).cores = w.cores ∧ SameMemory w (w.configured p cls key slice swap shadow) ∧
    ∃ chain r, (w.configured p cls key slice swap shadow).part p =
      { w.setFields p key swap shadow (w.part p) with seq := 0, chain := chain, records := [r] } := by
  unfold State.configured
  dsimp only
  have hpart := w.modPart_part_same p (w.setFields p key swap shadow)
  have hu : (w.modPart p (w.setFields p key swap shadow)).cores = w.cores ∧ SameMemory w (w.modPart p (w.setFields p key swap shadow)) :=
    ⟨rfl, rfl, rfl, rfl⟩
  generalize w.modPart p (w.setFields p key swap shadow) = u at hpart hu
  obtain ⟨tiles, htiles⟩ : ∃ ts, cls.foldl (fun (s : State) c => s.setSlices slice c) { u with vfs := u.vfs.map fun (e : Nat × Vf) =>
      if e.2.en && e.2.part == p then (e.1, { e.2 with energy := 0 }) else e } = { u with tiles := ts, vfs := u.vfs.map fun (e : Nat × Vf) =>
      if e.2.en && e.2.part == p then (e.1, { e.2 with energy := 0 }) else e } :=
    List.foldlRecOn (motive := fun v : State => ∃ ts, v = { u with tiles := ts, vfs := _ }) cls _ ⟨_, rfl⟩ fun v ⟨ts, hv⟩ c _ => by
      obtain ⟨ts', hts⟩ := v.setSlices_tiles slice c
      rw [hts, hv]
      exact ⟨ts', rfl⟩
  rw [htiles]
  obtain ⟨chain, r, hchain⟩ := State.startChain_part (State.remapAll { u with tiles := tiles, vfs := u.vfs.map fun (e : Nat × Vf) =>
      if e.2.en && e.2.part == p then (e.1, { e.2 with energy := 0 }) else e } p) p
  obtain ⟨hcores, hmem⟩ := hu
  exact ⟨hcores, hmem, chain, r, hpart ▸ hchain⟩

/-! Root regions (R400, R341). -/

/-- Cores and regions are the same. -/
def CoresRegions (s t : State) : Prop := t.cores = s.cores ∧ t.regions = s.regions

theorem CoresRegions.trans (h : CoresRegions s t) (k : CoresRegions t u) : CoresRegions s u := ⟨k.1.trans h.1, k.2.trans h.2⟩

theorem CoresRegions.region (h : CoresRegions s t) (i : Nat) : t.region i = s.region i := by
  rw [State.region, h.2]
  rfl

theorem MemSide.coresRegions (h : MemSide s t) : CoresRegions s t := ⟨h.cores, h.regions⟩

theorem CoresRegions.modCluster (s : State) (i : Nat) (f : Cluster → Cluster) : CoresRegions s (s.modCluster i f) := ⟨rfl, rfl⟩

theorem CoresRegions.chargeHost (s : State) (p port n : Nat) : CoresRegions s (s.chargeHost p port n) := ⟨rfl, rfl⟩

theorem CoresRegions.hostAtomWrite (s : State) (sl pa n x : Nat) (st : Stamp) : CoresRegions s (s.hostAtomWrite sl pa n x st) := ⟨rfl, rfl⟩

theorem CoresRegions.engineChain (s : State) (cl p sl l : Nat) (reg : Option Nat) : CoresRegions s (s.engineChain cl p sl l reg).2 := by
  unfold State.engineChain
  dsimp only
  refine .trans ?_ (.modCluster ..)
  repeat' split
  · exact ⟨rfl, rfl⟩
  · exact ⟨rfl, rfl⟩
  · exact (MemSide.chain ..).coresRegions

/-- An engine's act enters no core and no region. -/
theorem CoresRegions.engineAct (s : State) (cl p reg va n : Nat) (f : Nat → Option Nat) (carried : Stamp) (who : Asker) :
    CoresRegions s (engineAct s cl p reg va n f carried who).2 := by
  have htr := (Translates.translate s p va .atomic reg (mkStamp (s.tick + 1) 0) who).coresRegions
  unfold Machine.engineAct
  dsimp only
  split
  next heq => rw [heq] at htr; exact htr
  next heq => rw [heq] at htr; exact htr
  next pa w heq =>
    rw [heq] at htr
    refine CoresRegions.trans (t := w) htr ?_
    split
    · split
      · exact ⟨rfl, rfl⟩
      have hchain := CoresRegions.engineChain w cl p (w.homeOf p va) (pa / 64) (some reg)
      generalize w.engineChain cl p (w.homeOf p va) (pa / 64) (some reg) = r at hchain ⊢
      have hold : CoresRegions w (if w.privateAt p pa = true then (leNat (r.2.freeBytes n).1, (r.2.freeBytes n).2)
          else (r.1.newest.1.toNat / 256 ^ (pa % 64) % 256 ^ n, r.2)).2 := by
        split
        · exact hchain.trans (MemSide.freeBytes r.2 n).coresRegions
        · exact hchain
      generalize (if w.privateAt p pa = true then _ else _ : Nat × State) = o at hold ⊢
      refine hold.trans ?_
      split
      · exact (CoresRegions.modCluster ..).trans (Grows.enterWrite ..).coresRegions
      · exact .modCluster ..
    · split
      · exact (((CoresRegions.modCluster ..).trans (.chargeHost ..)).trans (.hostAtomWrite ..)).trans (.chargeHost ..)
      · exact (CoresRegions.modCluster ..).trans (.chargeHost ..)

/-- A live root region at va, under the next number, with its sites counted. -/
def State.rootMade (s : State) (p va : Nat) (b : BlockRead) : State :=
  let u := s.bump.modRegion s.seq fun _ => newRegion s p none va b
  u.modRegion s.seq fun g => { g with pool := u.poolSize s.seq }

theorem State.rootMade_region (s : State) (p va : Nat) (b : BlockRead) :
    ∃ n, (s.rootMade p va b).region s.seq = { newRegion s p none va b with pool := n } :=
  ⟨_, (State.modRegion_region_same ..).trans (by rw [State.modRegion_region_same])⟩

/-- The device's write of STATE, charged to nobody. -/
def State.stateCleared (u s : State) (p va : Nat) : State :=
  (Machine.engineAct u (u.engineOf p (va + 136)) p s.seq (va + 136) 1 (fun _ => some 0) 0 .device).2.chargedNone s

theorem CoresRegions.stateCleared (u s : State) (p va : Nat) : CoresRegions u (u.stateCleared s p va) :=
  (CoresRegions.engineAct u _ p s.seq (va + 136) 1 (fun _ => some 0) 0 .device).trans ⟨rfl, rfl⟩

theorem exec_startRootRegion {va : Nat} {b : BlockRead} (hfailed : s.failed = false) (hpart : (s.part p).failed = false)
    (henabled : (s.part p).enabled = true) (hdev : devHalf va = true) (halign : va % 256 = 0) (hnew : s.regionAt p va = none)
    (hblock : rootBlock (s.modRegion s.seq fun g => { g with part := p }) p s.seq va = some b) : exec (.startRootRegion p va) s =
      .next (if refusedBlock b 0 = 0 then (s.rootMade p va b).stateCleared s p va else s.emit (.pfRefused p)) := by
  change execStartRootRegion p va s = _
  have hrun : (s.failed || (s.part p).failed || !(s.part p).enabled || !devHalf va || va % 256 != 0 || (s.regionAt p va).isSome) = false := by
    simp [hfailed, hpart, henabled, hdev, halign, hnew]
  simp only [execStartRootRegion, hrun, hblock, Bool.false_eq_true, if_false]
  by_cases hok : refusedBlock b 0 = 0
  · simp only [hok, bne_self_eq_false, Bool.false_eq_true, if_false, if_true]
    rfl
  · simp [hok]

end

end Sys2Proof.Machine

namespace Sys2Proof.Proofs

open Sys2Proof Sys2Proof.Machine

/-- Settles O54: each write is answered once, where it may be made and where not; a configuration is its moves and its fields
(`State.rearranged_kept`, `State.configured_kept`). Which contexts count as stopped is log entry 34's; a monitor's registers start anew (R437). -/
theorem partitionManagerActs : Obligations.PartitionManagerActs := by
  unfold Obligations.PartitionManagerActs
  refine ⟨?configure, ?clusters, ?pools, ?bindings, ?bound, ?root, ?energy, ?failed, ?registers, ?stores, ?meters, ?periods⟩
  case configure =>
    intro s p cls key v pcs slice swap shadow
    refine ⟨fun hok => ?_, exec_configurePartition_refused⟩
    obtain ⟨oldCls, oldPcs, hexec⟩ := exec_configurePartition hok
    obtain ⟨hcores, hmem, hclusters, hpclist, hframes⟩ := s.rearranged_kept p cls v pcs oldCls oldPcs
    generalize s.rearranged p cls v pcs oldCls oldPcs = w at hexec hcores hmem hclusters hpclist hframes
    obtain ⟨kcores, kmem, chain, r, hpart⟩ := w.configured_kept p cls key slice swap shadow
    refine ⟨_, hexec, kcores.trans hcores, .trans hmem kmem, ?_⟩
    rw [hpart]
    refine ⟨rfl, rfl, fun f hf => List.mem_of_mem_filter hf, fun f hf => List.mem_of_mem_filter hf, fun hnone hheld hbare => ?_,
      rfl, rfl, rfl, rfl, hpclist, hclusters, rfl⟩
    have hunused := hframes hnone hheld hbare
    simp only [State.setFields, hunused]
    simp
  case clusters =>
    intro s p cl hfailed henabled hstopped
    refine ⟨fun hcl hfree hready => ?_, exec_addCluster_refused, fun hmem htwo => ?_, exec_removeCluster_refused⟩
    · obtain ⟨hcores, hmem, hdrains, hagenda⟩ := s.askDrain_asks (.cluMove p cl true)
      exact ⟨_, ⟨exec_addCluster hfailed henabled hstopped hcl hfree hready, hcores, hmem⟩, hdrains, hagenda⟩
    · obtain ⟨regions, hexec⟩ := exec_removeCluster hfailed henabled hstopped hmem htwo
      obtain ⟨hcores, hmem, hdrains, hagenda⟩ := State.askDrain_asks { s with regions := regions } (.cluMove p cl false)
      exact ⟨_, ⟨hexec, hcores, hmem⟩, hdrains, hagenda⟩
  case pools =>
    intro s p henabled
    have hdisable := exec_disablePartition henabled
    refine ⟨fun hended => ?_, fun hlive => by rw [hdisable, hlive]; rfl, fun fs => ?_⟩
    · rw [if_pos hended] at hdisable
      obtain ⟨hcores, hmem, hdrains, -⟩ := s.askDrain_asks (.disable p)
      exact ⟨_, ⟨hdisable, hcores, hmem⟩, hdrains⟩
    have hswap := exec_addSwapFrames fs henabled
    have hshadow := exec_addShadowFrames fs henabled
    refine ⟨fun hfailed hall => ?_, fun hbad => ?_⟩
    · have hok : s.framesOk p fs = true := by rw [State.framesOk, hfailed, hall]; rfl
      rw [if_pos hok] at hswap hshadow
      exact ⟨⟨_, ⟨hswap, rfl, rfl, rfl, rfl⟩, congrArg Partition.swap (s.modPart_part_same p _)⟩,
        ⟨_, ⟨hshadow, rfl, rfl, rfl, rfl⟩, congrArg Partition.shadow (s.modPart_part_same p _)⟩⟩
    · have hbad : s.framesOk p fs = false := by rcases hbad with h | h <;> simp [State.framesOk, h]
      rw [hbad] at hswap hshadow
      exact ⟨hswap, hshadow⟩
  case bindings =>
    intro s v port p root hlive
    exact ⟨fun hfailed hv hport hp hroot => ⟨_, ⟨exec_bindVf hlive hfailed hv hport hp hroot, rfl, rfl, rfl, rfl⟩, s.modVf_vf_same v _⟩,
      fun hbad => exec_bindVf_refused (hbad.imp_right .inl), fun hen => ⟨_, ⟨exec_unbindVf hlive hen, rfl, rfl, rfl, rfl⟩, s.modVf_vf_same v _⟩⟩
  case bound =>
    intro s v hlive
    exact ⟨fun port p root => exec_bindVf_refused (.inr (.inr hlive)), exec_unbindVf_refused hlive⟩
  case root =>
    intro s p va b hfailed hpart henabled hdev halign hnew hblock
    have hexec := exec_startRootRegion hfailed hpart henabled hdev halign hnew hblock
    refine ⟨fun hok => ?_, fun hbad => by rw [hexec, if_neg hbad]⟩
    rw [if_pos hok] at hexec
    have hkept := CoresRegions.stateCleared (s.rootMade p va b) s p va
    obtain ⟨n, hmade⟩ := s.rootMade_region p va b
    refine ⟨_, hexec, hkept.1, ?_⟩
    rw [hkept.region, hmade]
    exact ⟨rfl, rfl, rfl, rfl, rfl, rfl⟩
  case energy =>
    intro s v x
    exact ⟨fun hv hen => ⟨_, ⟨exec_writeVfEnergy x hv hen, rfl, rfl, rfl, rfl⟩, s.modVf_vf_same v _⟩, exec_writeVfEnergy_refused x⟩
  case failed => exact fun s reg v hfailed => congrArg Host.Outcome.next (if_pos hfailed)
  case registers =>
    intro s p v hfailed
    refine ⟨⟨_, ⟨congrArg Host.Outcome.next (if_neg (by rw [hfailed]; decide)), rfl, rfl, rfl, rfl⟩, s.modPart_part_same p _⟩,
      fun site slot hsite hslot hpos hlt => ?_, fun site slot hzero => hzero ▸ exec_registerWrite_slice_zero hfailed⟩
    refine ⟨_, ⟨exec_registerWrite_slice hfailed hsite hslot hpos hlt, rfl, rfl, rfl, rfl⟩, ?_⟩
    rw [State.modTile_tile_same]
    exact Tile.sliceOf_set _ hpos
  case stores =>
    intro s site bytes hsite hlen
    refine ⟨_, ⟨exec_monitorStoreLoad hsite hlen, rfl, rfl, rfl, rfl⟩, ?_⟩
    rw [State.modTile_tile_same]
    exact ⟨rfl, rfl, rfl, fun i hi => Tile.withStore_byte hlen _ hi⟩
  case meters =>
    intro s p
    refine ⟨fun hdue => ⟨s.nextRecord p, ⟨congrArg Host.Outcome.next (if_pos hdue), rfl, rfl, rfl, rfl⟩, s.nextRecord_part p⟩, fun hnot => ?_⟩
    exact congrArg Host.Outcome.next (if_neg (by rw [hnot]; decide))
  case periods =>
    intro s p cl u hcl hperiod
    have hdue (h : (s.part p).enFrom + (s.part p).enperiod ≤ s.tick) : (s.part p).periodDue s.tick = true := by
      simp [Partition.periodDue, hperiod, h]
    have hbegun : (s.periodBegun p).part p = { s.part p with enFrom := (s.part p).enFrom + (s.part p).enperiod } := s.modPart_part_same p _
    refine ⟨fun h => ⟨fun hcycles hnone => ?_, fun r n v hcycles hn hvf => ?_⟩, fun hearly =>
      exec_energyPeriodEnd_early [u] (by simp [Partition.periodDue, Nat.not_le.mpr hearly])⟩
    · have haside := State.splitEnergy_idle_aside (s := s.periodBegun p) (p := p) (e := u) hcycles hnone
      refine ⟨_, ⟨exec_energyPeriodEnd_due hcl (hdue h), haside⟩, ?_⟩
      rw [State.splitEnergy_idle (s := s.periodBegun p) hcycles hnone, State.modCluster_part, State.modPart_part_same, hbegun]
      exact ⟨rfl, rfl⟩
    · have haside := State.splitEnergy_one_aside (s := s.periodBegun p) (p := p) (e := u) hcycles hn hvf
      refine ⟨_, ⟨exec_energyPeriodEnd_due hcl (hdue h), haside⟩, ?_⟩
      rw [State.splitEnergy_one (s := s.periodBegun p) hcycles hn hvf, State.modCluster_vf, State.modVf_vf_same,
        State.modCluster_part, State.modVf_part, hbegun, State.modCluster_cluster_same]
      exact ⟨rfl, rfl, rfl⟩

end Sys2Proof.Proofs
